-- ==== Sys2Proof/Word.lean ====
section
/-! DEFINITION. The word types of the module and their plainest shapes (R2, R17). -/

namespace Sys2Proof

/-- A byte of memory or of register space. -/
abbrev Byte := BitVec 8

/-- A 32-bit word: the unit of the zero and poison flags of register space (R17). -/
abbrev Word32 := BitVec 32

/-- A 64-bit value: a scalar register, an effective address, a system register. -/
abbrev Word64 := BitVec 64

/-- A set of lanes, bit l for lane l (R26). -/
abbrev Mask := BitVec 32

/-- A sparse table: (key, value) pairs with strictly rising keys, and no entry equal to the value
that an unlisted key reads as. -/
abbrev Cells (α : Type) := List (Nat × α)

/-- The lanes of a mask in ascending order (R8). -/
def lanesOf (m : Mask) : List Nat := (List.range 32).filter (fun l => m.getLsbD l)

/-- The mask of a list of lanes. -/
def maskOf (ls : List Nat) : Mask := ls.foldl (fun m l => m ||| ((1#32) <<< l)) 0

end Sys2Proof
end

