-- ==== Sys2Proof/Config.lean ====
section
/-! DEFINITION. What an implementation fixes and the values that the manual leaves open. -/

namespace Sys2Proof

/-- A value that the manual leaves open: the n-th one of the run, w bits wide. It has no body, so nothing can be proved
about which value it is (log 3). -/
opaque Config.freeValue (w n : Nat) : BitVec w

/-- The number of compute dies of a module (R12). -/
def Config.dies : Nat := 8

/-- The core positions of a module, die × 64 + mesh position (R13, R14). -/
def Config.corePositions : Nat := 512

/-- Group slots per core, and how many of them may be active (R304). -/
def Config.slots : Nat := 32
/-- Places of the active set (R304). -/
def Config.activePlaces : Nat := 8

/-- Ticks of the 1 GHz timebase in a second (R175). -/
def Config.second : Nat := 1000000000
/-- Ticks of the timebase in a millisecond. -/
def Config.milli : Nat := 1000000
/-- Ticks of the timebase in a microsecond. -/
def Config.micro : Nat := 1000
/-- Parts of a tick: a cycle takes a whole number of them at every rate of R443, 650 to 1,300 MHz in steps of 50. -/
def Config.parts : Nat := 26771144400

end Sys2Proof
end

