-- ==== Sys2Proof/Machine/Causes.lean ====
section
/-! DEFINITION. The cause codes (R90, R168, R217, R248, R264, R288, R371, R384, R401, R418, R425) and their severities. -/

namespace Sys2Proof.Machine

/-- A cause code (R425). -/
abbrev Cause := BitVec 9

/-- ILLEGAL_OPCODE. -/
def cILLEGAL_OPCODE : Cause := 0x001
/-- FILL_OPCODE. -/
def cFILL_OPCODE : Cause := 0x002
/-- ILLEGAL_CLASS. -/
def cILLEGAL_CLASS : Cause := 0x003
/-- ILLEGAL_TYPE. -/
def cILLEGAL_TYPE : Cause := 0x004
/-- ILLEGAL_HINT. -/
def cILLEGAL_HINT : Cause := 0x005
/-- ILLEGAL_MOD. -/
def cILLEGAL_MOD : Cause := 0x006
/-- ILLEGAL_ROUNDING. -/
def cILLEGAL_ROUNDING : Cause := 0x007
/-- ILLEGAL_SYSREG. -/
def cILLEGAL_SYSREG : Cause := 0x008
/-- PRIV. -/
def cPRIV : Cause := 0x009
/-- VIEW_RANGE. -/
def cVIEW_RANGE : Cause := 0x00A
/-- VIEW_WIDTH. -/
def cVIEW_WIDTH : Cause := 0x00B
/-- RS_BOUNDS. -/
def cRS_BOUNDS : Cause := 0x00C
/-- LA_HAZARD. -/
def cLA_HAZARD : Cause := 0x00D
/-- UNIFORMITY. -/
def cUNIFORMITY : Cause := 0x00E
/-- FETCH_BOUNDS. -/
def cFETCH_BOUNDS : Cause := 0x00F
/-- CALL_DEPTH. -/
def cCALL_DEPTH : Cause := 0x010
/-- RET_EMPTY. -/
def cRET_EMPTY : Cause := 0x011
/-- TRAP. -/
def cTRAP : Cause := 0x012
/-- BREAKPOINT. -/
def cBREAKPOINT : Cause := 0x013
/-- HANDLER_EXIT. -/
def cHANDLER_EXIT : Cause := 0x014
/-- GROUP_ENDED. -/
def cGROUP_ENDED : Cause := 0x016
/-- OB_NONE. -/
def cOB_NONE : Cause := 0x018
/-- OB_FORMAT. -/
def cOB_FORMAT : Cause := 0x019
/-- OB_RANGE. -/
def cOB_RANGE : Cause := 0x01A
/-- OB_FULL. -/
def cOB_FULL : Cause := 0x01B
/-- MATRIX_OVERLAP. -/
def cMATRIX_OVERLAP : Cause := 0x01C
/-- FRAME_INVALID. -/
def cFRAME_INVALID : Cause := 0x01D
/-- SHADOW_DIVERGE. -/
def cSHADOW_DIVERGE : Cause := 0x040
/-- RESIDUE_FAIL. -/
def cRESIDUE_FAIL : Cause := 0x041
/-- POISON_CONSUMED. -/
def cPOISON_CONSUMED : Cause := 0x042
/-- SRAM_CORRECTED. -/
def cSRAM_CORRECTED : Cause := 0x043
/-- SRAM_UNCORR. -/
def cSRAM_UNCORR : Cause := 0x044
/-- CORE_RETIRED. -/
def cCORE_RETIRED : Cause := 0x045
/-- REPLAY_MISMATCH. -/
def cREPLAY_MISMATCH : Cause := 0x046
/-- CAPTURE_FULL. -/
def cCAPTURE_FULL : Cause := 0x047
/-- ADDR_RANGE. -/
def cADDR_RANGE : Cause := 0x080
/-- MISALIGNED. -/
def cMISALIGNED : Cause := 0x081
/-- TIER_ACCESS. -/
def cTIER_ACCESS : Cause := 0x082
/-- SCR_BOUNDS. -/
def cSCR_BOUNDS : Cause := 0x083
/-- CLU_RANGE. -/
def cCLU_RANGE : Cause := 0x084
/-- SPILL_FORMAT. -/
def cSPILL_FORMAT : Cause := 0x085
/-- COPY_APERTURE. -/
def cCOPY_APERTURE : Cause := 0x086
/-- PAGE_ABSENT. -/
def cPAGE_ABSENT : Cause := 0x087
/-- TABLE_ABSENT. -/
def cTABLE_ABSENT : Cause := 0x088
/-- PAGE_PERM. -/
def cPAGE_PERM : Cause := 0x089
/-- PTE_INVALID. -/
def cPTE_INVALID : Cause := 0x08A
/-- PTE_POISON. -/
def cPTE_POISON : Cause := 0x08B
/-- PTE_CRIT. -/
def cPTE_CRIT : Cause := 0x08C
/-- TLB_PARITY. -/
def cTLB_PARITY : Cause := 0x08D
/-- HBM_REBUILT. -/
def cHBM_REBUILT : Cause := 0x08E
/-- HBM_UNCORR. -/
def cHBM_UNCORR : Cause := 0x08F
/-- HBM_CHANNEL_LOST. -/
def cHBM_CHANNEL_LOST : Cause := 0x090
/-- SCM_UNCORR. -/
def cSCM_UNCORR : Cause := 0x091
/-- COPY_TPL. -/
def cCOPY_TPL : Cause := 0x100
/-- COPY_ADDR_OVF. -/
def cCOPY_ADDR_OVF : Cause := 0x101
/-- COPY_OVERLAP. -/
def cCOPY_OVERLAP : Cause := 0x102
/-- COPY_FAULT. -/
def cCOPY_FAULT : Cause := 0x103
/-- STREAM_UNBOUND. -/
def cSTREAM_UNBOUND : Cause := 0x104
/-- STREAM_DIR. -/
def cSTREAM_DIR : Cause := 0x105
/-- STREAM_DESC. -/
def cSTREAM_DESC : Cause := 0x106
/-- STREAM_END. -/
def cSTREAM_END : Cause := 0x107
/-- STREAM_KIND. -/
def cSTREAM_KIND : Cause := 0x108
/-- BAR_RANGE. -/
def cBAR_RANGE : Cause := 0x140
/-- BAR_UNINIT. -/
def cBAR_UNINIT : Cause := 0x141
/-- BAR_COUNT. -/
def cBAR_COUNT : Cause := 0x142
/-- BAR_OVER. -/
def cBAR_OVER : Cause := 0x143
/-- BAR_BUSY. -/
def cBAR_BUSY : Cause := 0x144
/-- DEP_RANGE. -/
def cDEP_RANGE : Cause := 0x145
/-- DEP_UNDERFLOW. -/
def cDEP_UNDERFLOW : Cause := 0x146
/-- QUEUE_RANGE. -/
def cQUEUE_RANGE : Cause := 0x147
/-- LREC_CRC. -/
def cLREC_CRC : Cause := 0x148
/-- LREC_INVALID. -/
def cLREC_INVALID : Cause := 0x149
/-- KHDR_INVALID. -/
def cKHDR_INVALID : Cause := 0x14A
/-- VDIE_ABSENT. -/
def cVDIE_ABSENT : Cause := 0x14B
/-- QOVERRUN. -/
def cQOVERRUN : Cause := 0x14C
/-- WATCHDOG. -/
def cWATCHDOG : Cause := 0x14D
/-- WATCHDOG_SECOND. -/
def cWATCHDOG_SECOND : Cause := 0x14E
/-- LINK_HALF. -/
def cLINK_HALF : Cause := 0x180
/-- LINK_DOWN. -/
def cLINK_DOWN : Cause := 0x181
/-- LINK_TRAIN_FAIL. -/
def cLINK_TRAIN_FAIL : Cause := 0x182
/-- PATH_LOST. -/
def cPATH_LOST : Cause := 0x183
/-- MODULE_RESETTING. -/
def cMODULE_RESETTING : Cause := 0x184
/-- STEP_PRIV. -/
def cSTEP_PRIV : Cause := 0x1C0
/-- POWER_DRAINED. -/
def cPOWER_DRAINED : Cause := 0x1C1
/-- SNAP_UNCOVERED. -/
def cSNAP_UNCOVERED : Cause := 0x1C2
/-- MODULE_LOST. -/
def cMODULE_LOST : Cause := 0x1C3
/-- REBUILD_FAIL. -/
def cREBUILD_FAIL : Cause := 0x1C4
/-- RECOVERY_STALLED. -/
def cRECOVERY_STALLED : Cause := 0x1C5
/-- MODULE_FATAL. -/
def cMODULE_FATAL : Cause := 0x1C6

/-- CORRECTED (R424). -/
def sevCORRECTED : Nat := 0
/-- ADVISORY (R424). -/
def sevADVISORY : Nat := 1
/-- CONTAINED (R424). -/
def sevCONTAINED : Nat := 2
/-- FATAL (R424). -/
def sevFATAL : Nat := 3

/-- The severity that the table of R425 gives a cause; LINK_DOWN and LINK_TRAIN_FAIL are CONTAINED for a die-to-die link
and ADVISORY for a fabric port, which the writer of the record says. -/
def severity (c : Cause) : Nat :=
  if c = cSRAM_CORRECTED ∨ c = cHBM_REBUILT then sevCORRECTED
  else if c = cSHADOW_DIVERGE ∨ c = cRESIDUE_FAIL ∨ c = cCORE_RETIRED ∨ c = cREPLAY_MISMATCH ∨ c = cCAPTURE_FULL
    ∨ c = cHBM_CHANNEL_LOST ∨ c = cWATCHDOG ∨ c = cLINK_HALF ∨ c = cMODULE_RESETTING ∨ c = cPOWER_DRAINED then sevADVISORY
  else if c = cRECOVERY_STALLED ∨ c = cMODULE_FATAL then sevFATAL
  else sevCONTAINED

/-- The causes that a trap can raise: those that R425 lists as trapping. A code that its table does not name, a cause that only a record carries,
and one that parks are never raised (R314, R371, R425). -/
def raisable (c : Cause) : Bool :=
  let n := c.toNat
  (decide (0x001 ≤ n) && decide (n ≤ 0x014)) || (decide (0x018 ≤ n) && decide (n ≤ 0x01C)) || (decide (0x040 ≤ n) && decide (n ≤ 0x042))
    || (decide (0x080 ≤ n) && decide (n ≤ 0x086)) || (decide (0x089 ≤ n) && decide (n ≤ 0x08C))
    || (decide (0x100 ≤ n) && decide (n ≤ 0x108) && c != cCOPY_FAULT) || (decide (0x140 ≤ n) && decide (n ≤ 0x147))
    || c == cWATCHDOG || c == cSTEP_PRIV

/-- The causes whose trap writes an error record (R425). -/
def trapRecords (c : Cause) : Bool :=
  (decide (0x040 ≤ c) && decide (c ≤ 0x07F)) || c == cWATCHDOG || c == cPTE_INVALID || c == cPTE_POISON || c == cPTE_CRIT

end Sys2Proof.Machine
end

