-- ==== Sys2Proof/Machine/Cells.lean ====
section
/-! DEFINITION. Sparse tables in one canonical form, tables of records by number, bytes of values, and the CRC-32 of R99. -/

namespace Sys2Proof.Machine

/-- The value of a key: that of its first pair, or `d` for a key that is not listed. -/
def cget {α : Type} (d : α) : List (Nat × α) → Nat → α
  | [], _ => d
  | (k', v) :: r, k => if k = k' then v else cget d r k

/-- Inserts a pair before the first larger key. -/
def cins {α : Type} (k : Nat) (v : α) : List (Nat × α) → List (Nat × α)
  | [] => [(k, v)]
  | (k', v') :: r => if k < k' then (k, v) :: (k', v') :: r else (k', v') :: cins k v r

/-- A table without a key. -/
def cdel {α : Type} (t : List (Nat × α)) (k : Nat) : List (Nat × α) := t.filter (fun p => p.1 != k)

/-- Writes a key of a table whose unlisted keys read as `d`: the value `d` removes the pair. -/
def cput {α : Type} [DecidableEq α] (d : α) (t : List (Nat × α)) (k : Nat) (v : α) : List (Nat × α) :=
  if v = d then cdel t k else cins k v (cdel t k)

/-- Changes every listed value by its key; a value that becomes the default is no longer listed. -/
def cmap {α : Type} [DecidableEq α] (d : α) (t : List (Nat × α)) (f : Nat → α → α) : List (Nat × α) :=
  (t.map (fun p => (p.1, f p.1 p.2))).filter (fun p => p.2 != d)

/-- Strictly rising keys, and no pair that says what an unlisted key says. -/
def cwf {α : Type} [DecidableEq α] (d : α) : List (Nat × α) → Bool
  | [] => true
  | (k, v) :: r => decide (v ≠ d) && r.all (fun p => decide (k < p.1)) && cwf d r

/-- The record of a number in a table of records. -/
def tget? {α : Type} : List (Nat × α) → Nat → Option α
  | [], _ => none
  | (k', v) :: r, k => if k = k' then some v else tget? r k

/-- Writes the record of a number. -/
def tput {α : Type} (t : List (Nat × α)) (k : Nat) (v : α) : List (Nat × α) := cins k v (cdel t k)

/-- Writes a run of keys from `k` on. -/
def cputs {α : Type} [DecidableEq α] (d : α) (t : List (Nat × α)) (k : Nat) : List α → List (Nat × α)
  | [] => t
  | v :: r => cputs d (cput d t k v) (k + 1) r

/-- Reads a run of `n` keys from `k` on. -/
def cgets {α : Type} (d : α) (t : List (Nat × α)) (k n : Nat) : List α :=
  (List.range n).map (fun i => cget d t (k + i))

/-- A number from its bytes, the first the least significant (R2). -/
def leNat (bs : List Byte) : Nat := bs.foldr (fun b n => b.toNat + 256 * n) 0

/-- The n bytes of a number, the least significant first (R2). -/
def leBytes (n v : Nat) : List Byte := (List.range n).map (fun i => BitVec.ofNat 8 (v >>> (8 * i)))

/-- Bits hi..lo of a number. -/
def bitsOf (v hi lo : Nat) : Nat := (v >>> lo) % 2 ^ (hi + 1 - lo)

/-- One bit of the reflected CRC-32 polynomial (R99). -/
def crcBit (c : BitVec 32) : BitVec 32 := if c.getLsbD 0 then (c >>> 1) ^^^ 0xEDB88320 else c >>> 1

/-- One byte of the CRC-32 (R99). -/
def crcByte (c : BitVec 32) (b : Byte) : BitVec 32 :=
  let c0 := c ^^^ b.setWidth 32
  crcBit (crcBit (crcBit (crcBit (crcBit (crcBit (crcBit (crcBit c0)))))))

/-- The CRC-32 of IEEE 802.3 (R99). -/
def crc32 (bs : List Byte) : BitVec 32 := ~~~(bs.foldl crcByte 0xFFFFFFFF)

/-- A packed word from (value, low bit) fields. -/
def packFields (fs : List (Nat × Nat)) : Nat := fs.foldl (fun a f => a + f.1 * 2 ^ f.2) 0

/-- The first element of a list that a function accepts, with what it gives. -/
def firstSome {α β : Type} (f : α → Option β) : List α → Option β
  | [] => none
  | a :: r => match f a with | some b => some b | none => firstSome f r

end Sys2Proof.Machine
end

