-- ==== Sys2Proof/Syntax.lean ====
section
/-! DEFINITION. The syntax of the machine: element types (R32), operand fields (R81), system registers
(R69, R165, R293), the fields that every instruction carries (R78), and the one inductive of instructions
and steps, one constructor per row of the opcode table. Names follow the table. -/

namespace Sys2Proof

/-- The element types of R32, in code order. -/
inductive Ty where
  | b8 | b16 | b32 | b64 | i8 | i16 | i32 | i64 | sm4 | sm6 | sm8 | ts8
  | e4m3 | e5m2 | bf16 | f16 | f32 | f64 | a80f | a80i | sx8
  deriving DecidableEq, Repr

/-- The rounding modes of R45. -/
inductive RMode where
  | rne | rtz | rup | rdn | rsto
  deriving DecidableEq, Repr

/-- The memory orderings of R86. -/
inductive MemOrd where
  | rlx | acq | rel | ar
  deriving DecidableEq, Repr

/-- The memory scopes of R86 and R332. -/
inductive Scope where
  | grp | team | clu | die | mod | dom
  deriving DecidableEq, Repr

/-- The system registers that R69, R165 and R293 assign. -/
inductive SysReg where
  | lane | item | age | eos | helper | live | cdepth
  | vw (k : BitVec 2) | fstat | seed | zskip | place | step
  | scrbase | clubase | prvbase | capbase | wp (k : BitVec 3)
  | team | group | clu | cluteam | trange
  | tvec | split | tcause | tpc | tprio | tmask | tinfo
  deriving DecidableEq, Repr

/-- An operand field after decode (R81, R82, R83). -/
inductive Opnd where
  | nil                                -- a field that the instruction does not use
  | view (k : BitVec 2) (n : BitVec 16) -- classes 0x0 to 0x3
  | opf  (k : BitVec 3)                -- class 0x4, operand file
  | last (k : BitVec 2)                -- class 0x5, last-result file
  | scal (k : BitVec 6)                -- class 0x6, scalar
  | pred (k : BitVec 4)                -- class 0x7, predicate
  | port (k : BitVec 4)                -- class 0x8, stream port
  | sys  (r : SysReg)                  -- class 0x9, system register
  | imm  (k : BitVec 16)               -- class 0xA, 16-bit immediate
  | rs   (a : BitVec 16)               -- class 0xB, register-space byte address
  | wide (q : Word32)                  -- the pair 0xF, 0xF of A and B
  | raw  (f : BitVec 20)               -- a field of the branch form
  deriving DecidableEq, Repr

/-- The fields of one instruction word besides its opcode (R78), operands already decoded. -/
structure Enc where
  neg : Bool            -- GRD[85]
  grd : BitVec 4        -- GRD[84:81]
  ty  : Ty
  la  : BitVec 4
  uni : Bool
  yld : Bool
  mod : BitVec 4
  d   : Opnd
  a   : Opnd
  b   : Opnd
  x   : BitVec 4
  deriving DecidableEq, Repr

/-- The causes that decode raises for a word that is no instruction (R89, checks 1 to 8), in their order. -/
inductive DecodeCause where
  | fillOpcode | illegalOpcode | illegalHint | illegalType | illegalRounding
  | illegalMod | illegalClass | illegalSysreg
  deriving DecidableEq, Repr

/-- What the physical world does to a matrix step or tile operation (R56, R57): nothing, or bits that a fault inverts in the value that
the unit computes for an output element, and in what its shadow unit or its residue unit computes. An input of the agenda. -/
inductive StepFault where
  | none
  | shadow (row col main check : Nat)
  | residue (row col main check : Nat)
  deriving DecidableEq, Repr

/-- Why a sketch ends (R314). -/
inductive SketchEnd where
  | forbidden | cause | count | dataReturned | parent
  deriving DecidableEq, Repr

/-- What a read of one sector's protection finds (R376, R381). -/
inductive SectorCheck where
  | pass | rebuilt | uncorrectable
  deriving DecidableEq, Repr

/-- The outcome of the bring-up self-test (R440): the cores that fail, and whether another unit fails. -/
structure SelfTest where
  cores : List Nat
  unitFails : Bool
  failDie : BitVec 4
  deriving DecidableEq, Repr

/-- An Idneit command entry (R441): flags, tag and the 64-bit parameters of bytes 8 to 63. -/
structure Cmd where
  flg : Byte
  tag : BitVec 16
  p   : List Word64
  deriving DecidableEq, Repr

/-- The instructions and steps of the module: one constructor per row of the opcode table. -/
inductive Instr where
  | nop (e : Enc)  -- NOP, R152
  | bra (e : Enc)  -- BRA, R156
  | bri (e : Enc)  -- BRI, R156
  | call (e : Enc)  -- CALL, R158
  | calli (e : Enc)  -- CALLI, R158
  | ret (e : Enc)  -- RET, R158
  | exit (e : Enc)  -- EXIT, R159
  | yield (e : Enc)  -- YIELD, R161
  | yieldMarkExpiry (g : Nat)  -- YIELD_MARK_EXPIRY, R161
  | sleep (e : Enc)  -- SLEEP, R162
  | sleepExpiry (g : Nat)  -- SLEEP_EXPIRY, R162
  | trap (e : Enc)  -- TRAP, R164
  | rft (e : Enc)  -- RFT, R166
  | endg (e : Enc)  -- ENDG, R167
  | hbeat (e : Enc)  -- HBEAT, R163
  | beos (e : Enc)  -- BEOS, R156
  | brk (e : Enc)  -- BRK, R164
  | srd (e : Enc)  -- SRD, R169
  | swr (e : Enc)  -- SWR, R170
  | tlbi (e : Enc)  -- TLBI, R171
  | tlbiAck (g : Nat)  -- TLBI_ACK, R171
  | rply (e : Enc)  -- RPLY, R172
  | errd (e : Enc)  -- ERRD, R173
  | wdset (e : Enc)  -- WDSET, R174
  | timeI (e : Enc)  -- TIME, R175
  | pmcrd (e : Enc)  -- PMCRD, R176
  | mov (e : Enc)  -- MOV, R107
  | sel (e : Enc)  -- SEL, R108
  | iadd (e : Enc)  -- IADD, R109
  | iaddc (e : Enc)  -- IADDC, R109
  | isub (e : Enc)  -- ISUB, R109
  | isubb (e : Enc)  -- ISUBB, R109
  | imul (e : Enc)  -- IMUL, R110
  | imulh (e : Enc)  -- IMULH, R110
  | imad (e : Enc)  -- IMAD, R110
  | imadh (e : Enc)  -- IMADH, R110
  | idiv (e : Enc)  -- IDIV, R111
  | irem (e : Enc)  -- IREM, R111
  | ineg (e : Enc)  -- INEG, R112
  | iabs (e : Enc)  -- IABS, R112
  | imin (e : Enc)  -- IMIN, R112
  | imax (e : Enc)  -- IMAX, R112
  | icmp (e : Enc)  -- ICMP, R113
  | andB (e : Enc)  -- AND, R114
  | orB (e : Enc)  -- OR, R114
  | xorB (e : Enc)  -- XOR, R114
  | andn (e : Enc)  -- ANDN, R114
  | notB (e : Enc)  -- NOT, R114
  | shl (e : Enc)  -- SHL, R115
  | shr (e : Enc)  -- SHR, R115
  | sar (e : Enc)  -- SAR, R115
  | rotl (e : Enc)  -- ROTL, R115
  | bfe (e : Enc)  -- BFE, R116
  | bfi (e : Enc)  -- BFI, R116
  | popc (e : Enc)  -- POPC, R117
  | clz (e : Enc)  -- CLZ, R117
  | ctz (e : Enc)  -- CTZ, R117
  | brev (e : Enc)  -- BREV, R117
  | lea (e : Enc)  -- LEA, R118
  | plop (e : Enc)  -- PLOP, R119
  | pmov (e : Enc)  -- PMOV, R119
  | fadd (e : Enc)  -- FADD, R121
  | fsub (e : Enc)  -- FSUB, R121
  | fmul (e : Enc)  -- FMUL, R121
  | ffma (e : Enc)  -- FFMA, R121
  | fmin (e : Enc)  -- FMIN, R123
  | fmax (e : Enc)  -- FMAX, R123
  | fcmp (e : Enc)  -- FCMP, R124
  | fclass (e : Enc)  -- FCLASS, R125
  | frnd (e : Enc)  -- FRND, R126
  | fdiv (e : Enc)  -- FDIV, R127
  | fsqrt (e : Enc)  -- FSQRT, R127
  | frcp (e : Enc)  -- FRCP, R127
  | frsq (e : Enc)  -- FRSQ, R127
  | fexp2 (e : Enc)  -- FEXP2, R128
  | flog2 (e : Enc)  -- FLOG2, R128
  | fsin (e : Enc)  -- FSIN, R128
  | fcos (e : Enc)  -- FCOS, R128
  | fscale (e : Enc)  -- FSCALE, R129
  | fdot2 (e : Enc)  -- FDOT2, R130
  | aadd (e : Enc)  -- AADD, R131
  | cvt (e : Enc)  -- CVT, R133
  | pack (e : Enc)  -- PACK, R136
  | unpk (e : Enc)  -- UNPK, R137
  | qblk (e : Enc)  -- QBLK, R138
  | dqblk (e : Enc)  -- DQBLK, R139
  | resid (e : Enc)  -- RESID, R140
  | shfi (e : Enc)  -- SHFI, R144
  | shfx (e : Enc)  -- SHFX, R144
  | shfn (e : Enc)  -- SHFN, R144
  | qswp (e : Enc)  -- QSWP, R145
  | qbc (e : Enc)  -- QBC, R145
  | qred (e : Enc)  -- QRED, R145
  | vote (e : Enc)  -- VOTE, R146
  | gred (e : Enc)  -- GRED, R147
  | gscan (e : Enc)  -- GSCAN, R148
  | matchL (e : Enc)  -- MATCH, R149
  | cmpk (e : Enc)  -- CMPK, R150
  | ld (e : Enc)  -- LD, R184
  | st (e : Enc)  -- ST, R184
  | ldpk (e : Enc)  -- LDPK, R186
  | stpk (e : Enc)  -- STPK, R186
  | pref (e : Enc)  -- PREF, R187
  | atom (e : Enc)  -- ATOM, R189
  | red (e : Enc)  -- RED, R189
  | cas (e : Enc)  -- CAS, R189
  | xchg (e : Enc)  -- XCHG, R189
  | mwait (e : Enc)  -- MWAIT, R190
  | mwaitWake (g : Nat)  -- MWAIT_WAKE, R330
  | mwaitTimeout (g : Nat)  -- MWAIT_TIMEOUT, R190
  | vspill (e : Enc)  -- VSPILL, R191
  | vfill (e : Enc)  -- VFILL, R192
  | ctpl (e : Enc)  -- CTPL, R199
  | bseal (e : Enc)  -- BSEAL, R205
  | bwait (e : Enc)  -- BWAIT, R206
  | btest (e : Enc)  -- BTEST, R207
  | spbind (e : Enc)  -- SPBIND, R210
  | spseek (e : Enc)  -- SPSEEK, R215
  | spdrn (e : Enc)  -- SPDRN, R215
  | sprel (e : Enc)  -- SPREL, R215
  | bari (e : Enc)  -- BARI, R252
  | barr (e : Enc)  -- BARR, R253
  | barw (e : Enc)  -- BARW, R254
  | barrw (e : Enc)  -- BARRW, R254
  | bart (e : Enc)  -- BART, R254
  | fence (e : Enc)  -- FENCE, R256
  | pbar (e : Enc)  -- PBAR, R257
  | psync (e : Enc)  -- PSYNC, R258
  | stepadv (e : Enc)  -- STEPADV, R259
  | depdec (e : Enc)  -- DEPDEC, R260
  | qpush (e : Enc)  -- QPUSH, R261
  | lhinge (e : Enc)  -- LHINGE, R262
  | dhop (e : Enc)  -- DHOP, R263
  | mloop (e : Enc)  -- MLOOP, R229
  | mstep (e : Enc)  -- MSTEP, R229
  | mzero (e : Enc)  -- MZERO, R236
  | mcvt (e : Enc)  -- MCVT, R238
  | macc (e : Enc)  -- MACC, R237
  | msync (e : Enc)  -- MSYNC, R239
  | obres (e : Enc)  -- OBRES, R224
  | obrel (e : Enc)  -- OBREL, R227
  | obld (e : Enc)  -- OBLD, R226
  | matrixOpStart (core : Nat)  -- MATRIX_OP_START, R218
  | matrixStep (core : Nat) (fault : StepFault)  -- MATRIX_STEP, R232
  | matrixOpComplete (core : Nat) (fault : StepFault)  -- MATRIX_OP_COMPLETE, R234
  | longLatencyComplete (g : Nat)  -- LONG_LATENCY_COMPLETE, R88
  | trapEntry (g : Nat) (cause : BitVec 9) (mask : Mask) (info : Word64)  -- TRAP_ENTRY, R165
  | asyncCauseDelivery (g : Nat)  -- ASYNC_CAUSE_DELIVERY, R316
  | groupSwap (core : Nat)  -- GROUP_SWAP, R307
  | sketchSpawn (g : Nat)  -- SKETCH_SPAWN, R312
  | sketchEnd (g : Nat) (why : SketchEnd)  -- SKETCH_END, R314
  | groupPark (g : Nat)  -- GROUP_PARK, R318
  | granuleDrowsy (g : Nat) (granule : Nat)  -- GRANULE_DROWSY, R74
  | drowsyWake (g : Nat) (granule : Nat)  -- DROWSY_WAKE, R74
  | streamReadAhead (g : Nat) (port : BitVec 4) (lane : Nat)  -- STREAM_READ_AHEAD, R213
  | copyDelivery (core : Nat) (chan : BitVec 3)  -- COPY_DELIVERY, R200
  | copyComplete (core : Nat) (chan : BitVec 3)  -- COPY_COMPLETE, R201
  | writeBackAccept (core : Nat) (chan : BitVec 3)  -- WRITE_BACK_ACCEPT, R402
  | writeBackDrain (die : BitVec 2)  -- WRITE_BACK_DRAIN, R383
  | queueHeadService (q : BitVec 12)  -- QUEUE_HEAD_SERVICE, R285
  | clusterPreempt (cluster : Nat)  -- CLUSTER_PREEMPT, R298
  | clusterRestore (cluster : Nat)  -- CLUSTER_RESTORE, R322
  | groupEnd (g : Nat)  -- GROUP_END, R300
  | contextSaved (ctx : BitVec 7)  -- CONTEXT_SAVED, R270
  | contextDrainComplete (ctx : BitVec 7)  -- CONTEXT_DRAIN_COMPLETE, R275
  | watchdog (g : Nat)  -- WATCHDOG, R429
  | deadWaitExpiry (g : Nat)  -- DEAD_WAIT_EXPIRY, R430
  | watchdogSecond (g : Nat)  -- WATCHDOG_SECOND, R431
  | coreRetired (core : Nat)  -- CORE_RETIRED, R427
  | etcherMark (ctx : BitVec 7)  -- ETCHER_MARK, R409
  | etcherPageCopy (ctx : BitVec 7)  -- ETCHER_PAGE_COPY, R410
  | boundaryCommit (ctx : BitVec 7)  -- BOUNDARY_COMMIT, R414
  | boundaryComplete (ctx : BitVec 7)  -- BOUNDARY_COMPLETE, R414
  | beaconTimeout (m : BitVec 9)  -- BEACON_TIMEOUT, R415
  | recoveryDetect (m : BitVec 9)  -- RECOVERY_DETECT, R415
  | recoveryAdmit (spare : BitVec 9)  -- RECOVERY_ADMIT, R415
  | scmRebuild (stripe : Nat) (shards : List (List Byte))  -- SCM_REBUILD, R416
  | scrubStripe (found : List (Nat × SectorCheck))  -- SCRUB_STRIPE, R381
  | refreshRetry (stack : Nat)  -- REFRESH_RETRY, R379
  | srefEntry (pc : Nat)  -- SREF_ENTRY, R380
  | srefEntryComplete (pc : Nat)  -- SREF_ENTRY_COMPLETE, R380
  | srefExitComplete (pc : Nat)  -- SREF_EXIT_COMPLETE, R380
  | transientRequestFail (line : Nat) (die : BitVec 3)  -- TRANSIENT_REQUEST_FAIL, R347
  | persistentRequestRetire (line : Nat)  -- PERSISTENT_REQUEST_RETIRE, R347
  | linkTrainAttempt (link : Nat) (failed : List (Nat × Nat)) (ok : Bool)  -- LINK_TRAIN_ATTEMPT, R387
  | laneFailure (link : Nat) (bundle lane : Nat)  -- LANE_FAILURE, R388
  | bundleDrainComplete (link : Nat)  -- BUNDLE_DRAIN_COMPLETE, R391
  | deadTimeExpiry (link : Nat)  -- DEAD_TIME_EXPIRY, R391
  | dwellExpiry (link : Nat)  -- DWELL_EXPIRY, R391
  | withdrawalConfirm (m : BitVec 9)  -- WITHDRAWAL_CONFIRM, R399
  | pathLostResend (seq : Nat)  -- PATH_LOST_RESEND, R400
  | throttleStep (watts : BitVec 16) (inlet tj : BitVec 8)  -- THROTTLE_STEP, R443
  | thermalTrip (inlet tj : BitVec 8)  -- THERMAL_TRIP, R443
  | meminitDone (listsAgree : Bool)  -- MEMINIT_DONE, R440
  | selftestDone (r : SelfTest)  -- SELFTEST_DONE, R440
  | mwRead (off : BitVec 36) (n : Nat)  -- MW_READ, R343
  | mwWrite (off : BitVec 36) (bytes : List Byte)  -- MW_WRITE, R343
  | queueTailWrite (q : BitVec 12) (tail : BitVec 16)  -- QUEUE_TAIL_WRITE, R280
  | mctlReset (v : Word64)  -- MCTL_RESET, R442
  | fwload (v : Word64)  -- FWLOAD, R440
  | ictailWrite (v : Word64)  -- ICTAIL_WRITE, R441
  | ccheadWrite (v : Word64)  -- CCHEAD_WRITE, R441
  | thstatClear (v : Word64)  -- THSTAT_CLEAR, R443
  | etcfgWrite (v : Word64)  -- ETCFG_WRITE, R411
  | routeWrite (m : BitVec 9) (v : Word32)  -- ROUTE_WRITE, R397
  | cwRegisterWrite (off : BitVec 16) (v : Word64)  -- CW_REGISTER_WRITE, R438
  | ctxnew (c : Cmd)  -- CTXNEW, R270
  | ctxrun (c : Cmd)  -- CTXRUN, R270
  | ctxstop (c : Cmd)  -- CTXSTOP, R270
  | ctxkill (c : Cmd)  -- CTXKILL, R275
  | ctxsync (c : Cmd)  -- CTXSYNC, R269
  | resync (c : Cmd)  -- RESYNC, R276
  | qcreate (c : Cmd)  -- QCREATE, R281
  | qresumeSkip (c : Cmd)  -- QRESUME_SKIP, R281
  | qresumeRetry (c : Cmd)  -- QRESUME_RETRY, R281
  | qdestroy (c : Cmd)  -- QDESTROY, R281
  | depset (c : Cmd)  -- DEPSET, R284
  | depfree (c : Cmd)  -- DEPFREE, R284
  | hostDepdec (c : Cmd)  -- HOST_DEPDEC, R284
  | cohset (c : Cmd)  -- COHSET, R350
  | pgfree (c : Cmd)  -- PGFREE, R365
  | pgmig (c : Cmd)  -- PGMIG, R369
  | hostRply (c : Cmd)  -- HOST_RPLY, R172
  | hostTlbi (c : Cmd)  -- HOST_TLBI, R171
  | ltrain (c : Cmd)  -- LTRAIN, R387
  | rstep (c : Cmd)  -- RSTEP, R415
  | sgjoin (c : Cmd)  -- SGJOIN, R407
  | scrub (c : Cmd)  -- SCRUB, R434
  | errpop (c : Cmd)  -- ERRPOP, R422
  | coreret (c : Cmd)  -- CORERET, R426
  | capset (c : Cmd)  -- CAPSET, R432
  | replay (c : Cmd)  -- REPLAY, R433
  | dbgrd (c : Cmd)  -- DBGRD, R441
  | dbgwr (c : Cmd)  -- DBGWR, R441
  | dbgres (c : Cmd)  -- DBGRES, R164
  | dbgresEnd (c : Cmd)  -- DBGRES_END, R274
  | mreset (c : Cmd)  -- MRESET, R442
  | illegalOpcode (why : DecodeCause)  -- ILLEGAL_OPCODE, R92
  | l2Eviction (die : BitVec 3) (line : Nat)  -- L2_EVICTION, R345
  | directoryEviction (line : Nat)  -- DIRECTORY_EVICTION, R346
  | flitCrcFail (link : Nat) (bundle lane : Nat)  -- FLIT_CRC_FAIL, R388
  | templateVisible (g : Nat)  -- TEMPLATE_VISIBLE, R199
  | beacon (m : BitVec 9)  -- BEACON, R415
  -- the steps without an operand stand last: compiled code can number them beyond 244
  | pageServiceDemandZero  -- PAGE_SERVICE_DEMAND_ZERO, R365
  | launchStart  -- LAUNCH_START, R286
  | clusterPlace  -- CLUSTER_PLACE, R296
  | recoveryFence  -- RECOVERY_FENCE, R415
  | recoveryQuiesce  -- RECOVERY_QUIESCE, R415
  | recoveryRebuild  -- RECOVERY_REBUILD, R415
  | recoveryMap  -- RECOVERY_MAP, R415
  | recoveryResume  -- RECOVERY_RESUME, R415
  | memoryLinkSplit  -- MEMORY_LINK_SPLIT, R393
  | forwardOnlyTimeout  -- FORWARD_ONLY_TIMEOUT, R399
  | powerFail  -- POWER_FAIL, R404
  | holdupRecharged  -- HOLDUP_RECHARGED, R404
  | fwloadComplete  -- FWLOAD_COMPLETE, R440
  | bringupLtrainDone  -- BRINGUP_LTRAIN_DONE, R440
  | restoreDone  -- RESTORE_DONE, R440
  | fetchBounds  -- FETCH_BOUNDS, R80
  | powerReturn  -- POWER_RETURN, R404
  | mergeWindowGrant  -- MERGE_WINDOW_GRANT, R341
  | keptResponseExpiry  -- KEPT_RESPONSE_EXPIRY, R400
  deriving DecidableEq, Repr

/-- The opcode (R91) and the fields of an encoded instruction; `none` for a step that has no word. -/
def Instr.parts : Instr → Option (Nat × Enc)
  | .nop e => some (0x000, e)
  | .bra e => some (0x001, e)
  | .bri e => some (0x002, e)
  | .call e => some (0x003, e)
  | .calli e => some (0x004, e)
  | .ret e => some (0x005, e)
  | .exit e => some (0x006, e)
  | .yield e => some (0x007, e)
  | .yieldMarkExpiry _ => none
  | .sleep e => some (0x008, e)
  | .sleepExpiry _ => none
  | .trap e => some (0x009, e)
  | .rft e => some (0x00A, e)
  | .endg e => some (0x00B, e)
  | .hbeat e => some (0x00C, e)
  | .beos e => some (0x00D, e)
  | .brk e => some (0x00E, e)
  | .srd e => some (0x00F, e)
  | .swr e => some (0x010, e)
  | .tlbi e => some (0x011, e)
  | .tlbiAck _ => none
  | .rply e => some (0x012, e)
  | .errd e => some (0x013, e)
  | .wdset e => some (0x014, e)
  | .timeI e => some (0x015, e)
  | .pmcrd e => some (0x016, e)
  | .mov e => some (0x040, e)
  | .sel e => some (0x041, e)
  | .iadd e => some (0x042, e)
  | .iaddc e => some (0x043, e)
  | .isub e => some (0x044, e)
  | .isubb e => some (0x045, e)
  | .imul e => some (0x046, e)
  | .imulh e => some (0x047, e)
  | .imad e => some (0x048, e)
  | .imadh e => some (0x049, e)
  | .idiv e => some (0x04A, e)
  | .irem e => some (0x04B, e)
  | .ineg e => some (0x04C, e)
  | .iabs e => some (0x04D, e)
  | .imin e => some (0x04E, e)
  | .imax e => some (0x04F, e)
  | .icmp e => some (0x050, e)
  | .andB e => some (0x051, e)
  | .orB e => some (0x052, e)
  | .xorB e => some (0x053, e)
  | .andn e => some (0x054, e)
  | .notB e => some (0x055, e)
  | .shl e => some (0x056, e)
  | .shr e => some (0x057, e)
  | .sar e => some (0x058, e)
  | .rotl e => some (0x059, e)
  | .bfe e => some (0x05A, e)
  | .bfi e => some (0x05B, e)
  | .popc e => some (0x05C, e)
  | .clz e => some (0x05D, e)
  | .ctz e => some (0x05E, e)
  | .brev e => some (0x05F, e)
  | .lea e => some (0x060, e)
  | .plop e => some (0x061, e)
  | .pmov e => some (0x062, e)
  | .fadd e => some (0x0C0, e)
  | .fsub e => some (0x0C1, e)
  | .fmul e => some (0x0C2, e)
  | .ffma e => some (0x0C3, e)
  | .fmin e => some (0x0C4, e)
  | .fmax e => some (0x0C5, e)
  | .fcmp e => some (0x0C6, e)
  | .fclass e => some (0x0C7, e)
  | .frnd e => some (0x0C8, e)
  | .fdiv e => some (0x0C9, e)
  | .fsqrt e => some (0x0CA, e)
  | .frcp e => some (0x0CB, e)
  | .frsq e => some (0x0CC, e)
  | .fexp2 e => some (0x0CD, e)
  | .flog2 e => some (0x0CE, e)
  | .fsin e => some (0x0CF, e)
  | .fcos e => some (0x0D0, e)
  | .fscale e => some (0x0D1, e)
  | .fdot2 e => some (0x0D2, e)
  | .aadd e => some (0x0D3, e)
  | .cvt e => some (0x140, e)
  | .pack e => some (0x141, e)
  | .unpk e => some (0x142, e)
  | .qblk e => some (0x143, e)
  | .dqblk e => some (0x144, e)
  | .resid e => some (0x145, e)
  | .shfi e => some (0x180, e)
  | .shfx e => some (0x181, e)
  | .shfn e => some (0x182, e)
  | .qswp e => some (0x183, e)
  | .qbc e => some (0x184, e)
  | .qred e => some (0x185, e)
  | .vote e => some (0x186, e)
  | .gred e => some (0x187, e)
  | .gscan e => some (0x188, e)
  | .matchL e => some (0x189, e)
  | .cmpk e => some (0x18A, e)
  | .ld e => some (0x1C0, e)
  | .st e => some (0x1C1, e)
  | .ldpk e => some (0x1C2, e)
  | .stpk e => some (0x1C3, e)
  | .pref e => some (0x1C4, e)
  | .atom e => some (0x1C5, e)
  | .red e => some (0x1C6, e)
  | .cas e => some (0x1C7, e)
  | .xchg e => some (0x1C8, e)
  | .mwait e => some (0x1C9, e)
  | .mwaitWake _ => none
  | .mwaitTimeout _ => none
  | .vspill e => some (0x1CA, e)
  | .vfill e => some (0x1CB, e)
  | .ctpl e => some (0x240, e)
  | .bseal e => some (0x241, e)
  | .bwait e => some (0x242, e)
  | .btest e => some (0x243, e)
  | .spbind e => some (0x244, e)
  | .spseek e => some (0x245, e)
  | .spdrn e => some (0x246, e)
  | .sprel e => some (0x247, e)
  | .bari e => some (0x280, e)
  | .barr e => some (0x281, e)
  | .barw e => some (0x282, e)
  | .barrw e => some (0x283, e)
  | .bart e => some (0x284, e)
  | .fence e => some (0x285, e)
  | .pbar e => some (0x286, e)
  | .psync e => some (0x287, e)
  | .stepadv e => some (0x288, e)
  | .depdec e => some (0x289, e)
  | .qpush e => some (0x28A, e)
  | .lhinge e => some (0x28B, e)
  | .dhop e => some (0x28C, e)
  | .mloop e => some (0x2C0, e)
  | .mstep e => some (0x2C1, e)
  | .mzero e => some (0x2C2, e)
  | .mcvt e => some (0x2C3, e)
  | .macc e => some (0x2C4, e)
  | .msync e => some (0x2C5, e)
  | .obres e => some (0x2C6, e)
  | .obrel e => some (0x2C7, e)
  | .obld e => some (0x2C8, e)
  | .matrixOpStart _ => none
  | .matrixStep _ _ => none
  | .matrixOpComplete _ _ => none
  | .longLatencyComplete _ => none
  | .trapEntry _ _ _ _ => none
  | .asyncCauseDelivery _ => none
  | .groupSwap _ => none
  | .sketchSpawn _ => none
  | .sketchEnd _ _ => none
  | .groupPark _ => none
  | .pageServiceDemandZero => none
  | .granuleDrowsy _ _ => none
  | .drowsyWake _ _ => none
  | .streamReadAhead _ _ _ => none
  | .copyDelivery _ _ => none
  | .copyComplete _ _ => none
  | .writeBackAccept _ _ => none
  | .writeBackDrain _ => none
  | .queueHeadService _ => none
  | .launchStart => none
  | .clusterPlace => none
  | .clusterPreempt _ => none
  | .clusterRestore _ => none
  | .groupEnd _ => none
  | .contextSaved _ => none
  | .contextDrainComplete _ => none
  | .watchdog _ => none
  | .deadWaitExpiry _ => none
  | .watchdogSecond _ => none
  | .coreRetired _ => none
  | .etcherMark _ => none
  | .etcherPageCopy _ => none
  | .boundaryCommit _ => none
  | .boundaryComplete _ => none
  | .beaconTimeout _ => none
  | .recoveryDetect _ => none
  | .recoveryFence => none
  | .recoveryQuiesce => none
  | .recoveryAdmit _ => none
  | .recoveryRebuild => none
  | .recoveryMap => none
  | .recoveryResume => none
  | .scmRebuild _ _ => none
  | .scrubStripe _ => none
  | .refreshRetry _ => none
  | .srefEntry _ => none
  | .srefEntryComplete _ => none
  | .srefExitComplete _ => none
  | .transientRequestFail _ _ => none
  | .persistentRequestRetire _ => none
  | .linkTrainAttempt _ _ _ => none
  | .laneFailure _ _ _ => none
  | .bundleDrainComplete _ => none
  | .deadTimeExpiry _ => none
  | .dwellExpiry _ => none
  | .memoryLinkSplit => none
  | .withdrawalConfirm _ => none
  | .forwardOnlyTimeout => none
  | .pathLostResend _ => none
  | .powerFail => none
  | .holdupRecharged => none
  | .throttleStep _ _ _ => none
  | .thermalTrip _ _ => none
  | .fwloadComplete => none
  | .bringupLtrainDone => none
  | .meminitDone _ => none
  | .selftestDone _ => none
  | .restoreDone => none
  | .mwRead _ _ => none
  | .mwWrite _ _ => none
  | .queueTailWrite _ _ => none
  | .mctlReset _ => none
  | .fwload _ => none
  | .ictailWrite _ => none
  | .ccheadWrite _ => none
  | .thstatClear _ => none
  | .etcfgWrite _ => none
  | .routeWrite _ _ => none
  | .cwRegisterWrite _ _ => none
  | .ctxnew _ => none
  | .ctxrun _ => none
  | .ctxstop _ => none
  | .ctxkill _ => none
  | .ctxsync _ => none
  | .resync _ => none
  | .qcreate _ => none
  | .qresumeSkip _ => none
  | .qresumeRetry _ => none
  | .qdestroy _ => none
  | .depset _ => none
  | .depfree _ => none
  | .hostDepdec _ => none
  | .cohset _ => none
  | .pgfree _ => none
  | .pgmig _ => none
  | .hostRply _ => none
  | .hostTlbi _ => none
  | .ltrain _ => none
  | .rstep _ => none
  | .sgjoin _ => none
  | .scrub _ => none
  | .errpop _ => none
  | .coreret _ => none
  | .capset _ => none
  | .replay _ => none
  | .dbgrd _ => none
  | .dbgwr _ => none
  | .dbgres _ => none
  | .dbgresEnd _ => none
  | .mreset _ => none
  | .illegalOpcode _ => none
  | .fetchBounds => none
  | .powerReturn => none
  | .mergeWindowGrant => none
  | .l2Eviction _ _ => none
  | .directoryEviction _ => none
  | .flitCrcFail _ _ _ => none
  | .keptResponseExpiry => none
  | .templateVisible _ => none
  | .beacon _ => none

end Sys2Proof
end

