-- ==== Sys2Proof/Machine/Num.lean ====
section
/-! DEFINITION. Number formats and rounding (R32 to R49): exact values, `round`, `sat`, the conversions to
sign-magnitude, twin-shift and block-scale codes, and the rounding of quotients, roots and elementary functions. -/

namespace Sys2Proof.Machine

/-- The sticky flags of `%fstat`, in its bit order: NX, UF, OF, NV, ST (R52). -/
abbrev Flags := BitVec 5

/-- Inexact (R52). -/
def flNX : Flags := 1
/-- Underflow (R52). -/
def flUF : Flags := 2
/-- Overflow (R52). -/
def flOF : Flags := 4
/-- Invalid (R52). -/
def flNV : Flags := 8
/-- Saturated (R52). -/
def flST : Flags := 16

/-- The exact value of a code: a NaN, an infinity, or (−1)^neg × m × 2^e, where m = 0 is a signed zero. -/
inductive Val where
  | nan (sig : Bool)
  | inf (neg : Bool)
  | fin (neg : Bool) (m : Nat) (e : Int)
  deriving DecidableEq, Repr

/-- 2^n for an integer exponent that is not negative; 1 below zero. -/
def pow2 (n : Int) : Nat := 2 ^ n.toNat

/-- The number of significant bits of a natural number. -/
def bitLen (n : Nat) : Nat := if n = 0 then 0 else Nat.log2 n + 1

/-- An integer as a value. -/
def Val.ofInt (i : Int) : Val := .fin (decide (i < 0)) i.natAbs 0

/-- A floating-point format (R39): exponent and stored significand bits, bias, and whether the leading bit is stored. -/
structure Fmt where
  eb : Nat
  fb : Nat
  bias : Nat
  lead : Bool
  deriving DecidableEq, Repr

/-- The format of a floating-point type (R39). -/
def Ty.fmt : Ty → Option Fmt
  | .e4m3 => some ⟨4, 3, 7, false⟩
  | .e5m2 => some ⟨5, 2, 15, false⟩
  | .bf16 => some ⟨8, 7, 127, false⟩
  | .f16 => some ⟨5, 10, 15, false⟩
  | .f32 => some ⟨8, 23, 127, false⟩
  | .f64 => some ⟨11, 52, 1023, false⟩
  | .a80f => some ⟨15, 63, 16383, true⟩
  | _ => none

/-- The bits of a code of a type (R32). -/
def Ty.bits : Ty → Nat
  | .b8 | .i8 | .sm8 | .ts8 | .e4m3 | .e5m2 | .sx8 => 8
  | .b16 | .i16 | .bf16 | .f16 => 16
  | .b32 | .i32 | .f32 => 32
  | .b64 | .i64 | .f64 => 64
  | .sm4 => 4
  | .sm6 => 6
  | .a80f | .a80i => 80

/-- The bytes of register space that an element takes: one for sm4 and sm6, 12 for an accumulator element (R34, R42, R63). -/
def Ty.bytes : Ty → Nat
  | .b8 | .i8 | .sm8 | .ts8 | .e4m3 | .e5m2 | .sx8 | .sm4 | .sm6 => 1
  | .b16 | .i16 | .bf16 | .f16 => 2
  | .b32 | .i32 | .f32 => 4
  | .b64 | .i64 | .f64 => 8
  | .a80f | .a80i => 12

/-- The two's-complement integer types (R33). -/
def Ty.signed : Ty → Bool
  | .i8 | .i16 | .i32 | .i64 | .a80i => true
  | _ => false

/-- The floating-point types. -/
def Ty.isFloat (t : Ty) : Bool := (Ty.fmt t).isSome

/-- n bits read as two's complement. -/
def signedOf (n v : Nat) : Int := if v % 2 ^ n < 2 ^ (n - 1) then (v % 2 ^ n : Nat) else (v % 2 ^ n : Nat) - 2 ^ n

/-- The integer of a b- or i-type code (R33). -/
def intOf (t : Ty) (v : Nat) : Int := if Ty.signed t then signedOf (Ty.bits t) v else (v % 2 ^ Ty.bits t : Nat)

/-- An integer wrapped to n bits. -/
def wrapBits (n : Nat) (i : Int) : Nat := (i % (2 ^ n : Nat)).toNat

/-- One term of a twin-shift code, in units of 2^−6 (R36). -/
def ts8Term (s : Bool) (k : Nat) : Int :=
  if k = 7 then 0 else if s then -((2 ^ (6 - k) : Nat) : Int) else (2 ^ (6 - k) : Nat)

/-- The value of a twin-shift code in units of 2^−6: its unit value (R36, R55). -/
def ts8Units (c : Nat) : Int :=
  ts8Term (c.testBit 7) ((c >>> 4) % 8) + ts8Term (c.testBit 3) (c % 8)

/-- The canonical forms of R37. -/
def ts8Canonical (c : Nat) : Bool :=
  let sa := c.testBit 7; let ka := (c >>> 4) % 8; let sb := c.testBit 3; let kb := c % 8
  c == 0x77
    || (decide (ka ≤ 6) && !sb && kb == 7)
    || (ka == 0 && kb == 0 && sa == sb)
    || (decide (ka < kb) && decide (kb ≤ 6) && sa == sb)
    || (decide (ka + 3 ≤ kb) && decide (kb ≤ 6) && sa != sb)

/-- The canonical twin-shift codes in ascending code order (R37). -/
def ts8Codes : List Nat := (List.range 256).filter ts8Canonical

/-- The magnitude of a sign-magnitude code of n bits, and its sign (R34). -/
def smVal (n v : Nat) : Val := .fin (v.testBit (n - 1) && v % 2 ^ (n - 1) != 0) (v % 2 ^ (n - 1)) 0

/-- The value of a floating-point code (R39, R40, R43). -/
def fmtVal (t : Ty) (f : Fmt) (v : Nat) : Val :=
  let fw := if f.lead then f.fb + 1 else f.fb
  let frac := v % 2 ^ fw
  let ex := (v >>> fw) % 2 ^ f.eb
  let neg := v.testBit (fw + f.eb)
  let ones := 2 ^ f.eb - 1
  let scale : Int := (max ex 1 : Nat) - (f.bias : Int) - f.fb
  if f.lead then
    if ex = ones then
      if frac = 2 ^ 63 then .inf neg else .nan (!frac.testBit 62)
    else .fin neg frac scale
  else if t = .e4m3 then
    if ex = ones ∧ frac = 7 then .nan false
    else .fin neg (if ex = 0 then frac else frac + 2 ^ f.fb) scale
  else if ex = ones then
    if frac = 0 then .inf neg else .nan (!frac.testBit (f.fb - 1))
  else .fin neg (if ex = 0 then frac else frac + 2 ^ f.fb) scale

/-- The exact value of a code (R33 to R44). An a80i code is its raw integer. -/
def valOf (t : Ty) (v : Nat) : Val :=
  match Ty.fmt t with
  | some f => fmtVal t f v
  | none =>
    match t with
    | .sm4 => smVal 4 v
    | .sm6 => smVal 6 v
    | .sm8 => smVal 8 v
    | .ts8 => let u := ts8Units (v % 256); .fin (decide (u < 0)) u.natAbs (-6)
    | .sx8 => if v % 256 = 255 then .nan false else .fin false 1 ((v % 256 : Nat) - 127)
    | t => Val.ofInt (intOf t v)

/-- The canonical NaN of a floating-point type (R39). -/
def canonNaN : Ty → Nat
  | .e4m3 => 0x7F
  | .e5m2 => 0x7E
  | .bf16 => 0x7FC0
  | .f16 => 0x7E00
  | .f32 => 0x7FC00000
  | .f64 => 0x7FF8000000000000
  | .a80f => 0x7FFFC000000000000000
  | .sx8 => 255
  | .ts8 => 0x77
  | _ => 0

/-- The sign bit of a floating-point code. -/
def signBit (t : Ty) (neg : Bool) : Nat := if neg then 2 ^ (Ty.bits t - 1) else 0

/-- The infinity of a type; e4m3 has none, and gives its largest finite value (R40, R46). -/
def infCode (t : Ty) (f : Fmt) (neg : Bool) : Nat :=
  signBit t neg + (if t = .e4m3 then 0x7E
    else if f.lead then (2 ^ f.eb - 1) * 2 ^ 64 + 2 ^ 63 else (2 ^ f.eb - 1) * 2 ^ f.fb)

/-- The largest finite code of a type (R39). -/
def maxFinite (t : Ty) (f : Fmt) (neg : Bool) : Nat :=
  signBit t neg + (if t = .e4m3 then 0x7E
    else if f.lead then (2 ^ f.eb - 2) * 2 ^ 64 + (2 ^ 64 - 1) else (2 ^ f.eb - 2) * 2 ^ f.fb + (2 ^ f.fb - 1))

/-- What `round` gives: the code, the flags, and the rounding state after it. -/
structure Rounded where
  code : Nat
  fl : Flags
  rs : BitVec 32
  deriving DecidableEq, Repr

/-- One step of a lane's rounding state (R49). -/
def rsStep (s : BitVec 32) : BitVec 32 :=
  if s.getLsbD 0 then (s >>> 1) ^^^ 0x80200003 else s >>> 1

/-- Rounds the magnitude m × 2^sh′ down to an integer count of units, where `sh` bits are discarded and `sticky` says
that more non-zero bits lie below them (R45, R49). Gives the count, whether it is inexact, and the rounding state. -/
def roundUnits (mode : RMode) (neg : Bool) (rs : BitVec 32) (m sh : Nat) (sticky : Bool) : Nat × Bool × BitVec 32 :=
  let lo := m >>> sh
  let rem := m % 2 ^ sh
  if rem = 0 ∧ sticky = false then (lo, false, rs)
  else
    match mode with
    | .rne =>
      let half := 2 ^ sh
      let up := decide (half < 2 * rem) || (2 * rem == half && (sticky || lo % 2 == 1))
      (if up then lo + 1 else lo, true, rs)
    | .rtz => (lo, true, rs)
    | .rup => (if neg then lo else lo + 1, true, rs)
    | .rdn => (if neg then lo + 1 else lo, true, rs)
    | .rsto =>
      let s' := rsStep rs
      let f2 := (rem * 2 ^ 32) >>> sh
      (if 2 ^ 32 ≤ f2 + s'.toNat then lo + 1 else lo, true, s')

/-- Assembles a finite floating-point code from a significand and the exponent of its last bit (R39). -/
def packFin (t : Ty) (f : Fmt) (neg : Bool) (m : Nat) (q : Int) : Nat :=
  let sig := if f.lead then 64 else f.fb
  if m < 2 ^ f.fb then signBit t neg + m
  else
    let ex := (q + f.bias + f.fb).toNat
    signBit t neg + ex * 2 ^ sig + (if f.lead then m else m - 2 ^ f.fb)

/-- The overflow result of R47. -/
def overflowCode (t : Ty) (f : Fmt) (mode : RMode) (neg : Bool) : Nat :=
  match mode with
  | .rne => infCode t f neg
  | .rtz | .rsto => maxFinite t f neg
  | .rup => if neg then maxFinite t f neg else infCode t f neg
  | .rdn => if neg then infCode t f neg else maxFinite t f neg

/-- Rounds a finite magnitude (m, plus something below its last bit if `sticky`) × 2^e to a floating-point type
(R46 steps 5 and 6, R47). -/
def roundFloat (t : Ty) (f : Fmt) (mode : RMode) (rs : BitVec 32) (neg : Bool) (m : Nat) (e : Int) (sticky : Bool) :
    Rounded :=
  if m = 0 ∧ sticky = false then ⟨signBit t neg, 0, rs⟩
  else
    let qmin : Int := 1 - (f.bias : Int) - f.fb
    let q0 : Int := (bitLen m : Nat) + e - (f.fb + 1)
    let q := if q0 < qmin then qmin else q0
    let (n0, inx, rs') :=
      if q ≤ e then roundUnits mode neg rs (m <<< (e - q).toNat) 0 sticky
      else roundUnits mode neg rs m (q - e).toNat sticky
    let carry := n0 = 2 ^ (f.fb + 1)
    let n := if carry then 2 ^ f.fb else n0
    let q' := if carry then q + 1 else q
    let top : Int := (2 ^ f.eb : Nat) - 2 - (f.bias : Int) - f.fb
    -- a value beyond the range is not representable: rsto steps even where its last bit is exact (R49)
    let rsO := if mode = .rsto ∧ inx = false then rsStep rs else rs'
    if t = .e4m3 then
      if (n ≥ 2 ^ f.fb) ∧ (q' > top + 1 ∨ (q' = top + 1 ∧ n > 14)) then ⟨infCode t f neg, flST ||| flNX, rsO⟩
      else
        let small := decide (n < 2 ^ f.fb)
        ⟨packFin t f neg n q', (if inx then flNX else 0) ||| (if inx && small && n != 0 then flUF else 0), rs'⟩
    else if n ≥ 2 ^ f.fb ∧ q' > top then ⟨overflowCode t f mode neg, flOF ||| flNX, rsO⟩
    else
      let small := decide (n < 2 ^ f.fb)
      ⟨packFin t f neg n q', (if inx then flNX else 0) ||| (if inx && small && n != 0 then flUF else 0), rs'⟩

/-- A finite value rounded to an integer by a mode; the flag says that it differs (R46 step 3). -/
def roundInt (mode : RMode) (rs : BitVec 32) (neg : Bool) (m : Nat) (e : Int) : Int × Bool × BitVec 32 :=
  let (n, inx, rs') :=
    if e ≥ 0 then (m <<< e.toNat, false, rs) else roundUnits mode neg rs m (-e).toNat false
  (if neg then -(n : Int) else n, inx, rs')

/-- Conversion to a sign-magnitude type of n bits (R35). -/
def roundSm (n : Nat) (rs : BitVec 32) (v : Val) : Rounded :=
  let lim := 2 ^ (n - 1) - 1
  match v with
  | .nan _ => ⟨0, flNV, rs⟩
  | .inf neg => ⟨(if neg then 2 ^ (n - 1) else 0) + lim, flST ||| flNX, rs⟩
  | .fin neg m e =>
    let (i, inx, _) := roundInt .rne rs neg m e
    if i.natAbs > lim then ⟨(if neg then 2 ^ (n - 1) else 0) + lim, flST ||| flNX, rs⟩
    else ⟨(if i < 0 then 2 ^ (n - 1) else 0) + i.natAbs, if inx then flNX else 0, rs⟩

/-- The canonical code nearest to a value given as i units of 2^−(6 + k), the smaller code on a tie (R38). -/
def ts8Nearest (i : Int) (k : Nat) : Nat :=
  (ts8Codes.foldl (fun (best : Nat × Nat) c =>
    let d := (i - ts8Units c * (2 ^ k : Nat)).natAbs
    if d < best.2 then (c, d) else best) (0x77, i.natAbs + 1)).1

/-- Conversion to ts8 (R38). -/
def roundTs8 (rs : BitVec 32) (v : Val) : Rounded :=
  match v with
  | .nan _ => ⟨0x77, flNV, rs⟩
  | .inf neg => ⟨if neg then 0x88 else 0x00, flST ||| flNX, rs⟩
  | .fin neg m e =>
    if m = 0 then ⟨0x77, 0, rs⟩
    else
      let k := (-(e + 6)).toNat
      let a := m <<< (e + 6).toNat
      if a > 128 * 2 ^ k then ⟨if neg then 0x88 else 0x00, flST ||| flNX, rs⟩
      else
        let i : Int := if neg then -(a : Int) else a
        let c := ts8Nearest i k
        ⟨c, if ts8Units c * (2 ^ k : Nat) = i then 0 else flNX, rs⟩

/-- Conversion to a block scale (R134). -/
def roundSx8 (rs : BitVec 32) (v : Val) : Rounded :=
  match v with
  | .nan _ => ⟨255, flNV, rs⟩
  | .inf _ => ⟨254, flST, rs⟩
  | .fin _ m e =>
    if m = 0 then ⟨0, flST, rs⟩
    else
      let x : Int := 127 + ((bitLen m : Nat) - 1 + e)
      if x < 0 then ⟨0, flST, rs⟩ else if x > 254 then ⟨254, flST, rs⟩ else ⟨x.toNat, 0, rs⟩

/-- The least and the greatest integer of a b, i or a80i type. -/
def intLo (t : Ty) : Int := if Ty.signed t then -((2 ^ (Ty.bits t - 1) : Nat) : Int) else 0
/-- The greatest integer of a b, i or a80i type. -/
def intHi (t : Ty) : Int := if Ty.signed t then ((2 ^ (Ty.bits t - 1) : Nat) : Int) - 1 else ((2 ^ Ty.bits t : Nat) : Int) - 1

/-- `round(x, ty, mode)` (R46). -/
def round (t : Ty) (mode : RMode) (rs : BitVec 32) (v : Val) : Rounded :=
  match t with
  | .sm4 => roundSm 4 rs v
  | .sm6 => roundSm 6 rs v
  | .sm8 => roundSm 8 rs v
  | .ts8 => roundTs8 rs v
  | .sx8 => roundSx8 rs v
  | t =>
    match Ty.fmt t with
    | some f =>
      match v with
      | .nan _ => ⟨canonNaN t, 0, rs⟩
      | .inf neg => ⟨infCode t f neg, if t = .e4m3 then flST ||| flNX else 0, rs⟩
      | .fin neg m e => roundFloat t f mode rs neg m e false
    | none =>
      match v with
      | .nan _ => ⟨0, flNV, rs⟩
      | .inf neg => ⟨wrapBits (Ty.bits t) (if neg then intLo t else intHi t), flNV, rs⟩
      | .fin neg m e =>
        let (i, inx, rs') := roundInt mode rs neg m e
        -- an integer beyond the range is not representable: rsto steps (R49)
        let rsO := if mode = .rsto ∧ inx = false then rsStep rs else rs'
        if i < intLo t then ⟨wrapBits (Ty.bits t) (intLo t), flNV, rsO⟩
        else if i > intHi t then ⟨wrapBits (Ty.bits t) (intHi t), flNV, rsO⟩
        else ⟨wrapBits (Ty.bits t) i, if inx then flNX else 0, rs'⟩

/-- `sat(x, ty)` for an integer type: the code and whether it was clamped (R48). -/
def satInt (t : Ty) (i : Int) : Nat × Bool :=
  if i < intLo t then (wrapBits (Ty.bits t) (intLo t), true)
  else if i > intHi t then (wrapBits (Ty.bits t) (intHi t), true)
  else (wrapBits (Ty.bits t) i, false)

/-- Whether a value is a signalling NaN. -/
def Val.isSNaN : Val → Bool
  | .nan s => s
  | _ => false

/-- Whether a value is a NaN. -/
def Val.isNaN : Val → Bool
  | .nan _ => true
  | _ => false

/-- Whether a value is infinite. -/
def Val.isInf : Val → Bool
  | .inf _ => true
  | _ => false

/-- The opposite value. -/
def Val.neg : Val → Val
  | .nan s => .nan s
  | .inf n => .inf (!n)
  | .fin n m e => .fin (!n) m e

/-- The signed integer of a finite value in units of 2^e0, for e0 at or below its exponent. -/
def Val.units (e0 : Int) : Val → Int
  | .fin neg m e => let x : Int := (m <<< (e - e0).toNat : Nat); if neg then -x else x
  | _ => 0

/-- The exponent of a finite value's last bit. -/
def Val.expo : Val → Int
  | .fin _ m e => if m = 0 then 0 else e
  | _ => 0

/-- A value with the NV flag that forming it raises: the exact results of sums and products (R122). -/
structure VF where
  v : Val
  nv : Bool
  deriving DecidableEq, Repr

/-- The exact sum of a list of values, with special values by R122; an exact zero sum of operands of opposite signs is
+0, or −0 under rdn (R46 step 7). -/
def sumVals (mode : RMode) (vs : List Val) : VF :=
  if vs.any Val.isNaN then ⟨.nan false, vs.any Val.isSNaN⟩
  else
    let pos := vs.any (fun v => v == .inf false)
    let ngs := vs.any (fun v => v == .inf true)
    if pos && ngs then ⟨.nan false, true⟩
    else if pos then ⟨.inf false, false⟩
    else if ngs then ⟨.inf true, false⟩
    else
      let e0 := vs.foldl (fun (a : Int) v => min a v.expo) 0
      let i := vs.foldl (fun (a : Int) v => a + v.units e0) 0
      if i = 0 then
        let allNeg := vs.all (fun v => match v with | .fin n m _ => n && m == 0 | _ => false)
        let allPos := vs.all (fun v => match v with | .fin n m _ => !n && m == 0 | _ => false)
        ⟨.fin (if vs.isEmpty then false else if allNeg then true else if allPos then false else mode == .rdn) 0 0, false⟩
      else ⟨.fin (decide (i < 0)) i.natAbs e0, false⟩

/-- The exact product of two values (R122); an invalid product is a NaN that sets NV. -/
def mulVals (a b : Val) : VF :=
  match a, b with
  | .nan s, .nan t => ⟨.nan false, s || t⟩
  | .nan s, _ => ⟨.nan false, s⟩
  | _, .nan s => ⟨.nan false, s⟩
  | .inf n, .inf k => ⟨.inf (n != k), false⟩
  | .inf n, .fin k m _ => if m = 0 then ⟨.nan false, true⟩ else ⟨.inf (n != k), false⟩
  | .fin n m _, .inf k => if m = 0 then ⟨.nan false, true⟩ else ⟨.inf (n != k), false⟩
  | .fin n m e, .fin k m' e' => ⟨.fin (n != k) (m * m') (e + e'), false⟩

/-- The integer square root of n, by the digits of its binary expansion from the top. -/
def isqrtLoop : Nat → Nat → Nat → Nat
  | 0, _, r => r
  | k + 1, n, r => let t := r + 2 ^ k; isqrtLoop k n (if t * t ≤ n then t else r)

/-- The integer square root. -/
def isqrt (n : Nat) : Nat := isqrtLoop (bitLen n / 2 + 1) n 0

/-- Rounds a magnitude given as an integer quotient of at least 40 more bits than the type keeps. -/
def roundQuot (t : Ty) (mode : RMode) (rs : BitVec 32) (neg : Bool) (num den : Nat) (e : Int) : Rounded :=
  match Ty.fmt t with
  | none => ⟨0, 0, rs⟩
  | some f =>
    let k := bitLen den + f.fb + 40
    let n := num <<< k
    roundFloat t f mode rs neg (n / den) (e - k) (n % den != 0)

/-- FDIV (R127). -/
def divVals (t : Ty) (mode : RMode) (rs : BitVec 32) (a b : Val) : Rounded :=
  let nan (nv : Bool) : Rounded := ⟨canonNaN t, if nv then flNV else 0, rs⟩
  match a, b with
  | .nan s, .nan u => nan (s || u)
  | .nan s, _ => nan s
  | _, .nan s => nan s
  | .inf _, .inf _ => nan true
  | .inf n, .fin k _ _ => round t mode rs (.inf (n != k))
  | .fin n _ _, .inf k => ⟨signBit t (n != k), 0, rs⟩
  | .fin n m e, .fin k m' e' =>
    if m' = 0 then (if m = 0 then nan true else round t mode rs (.inf (n != k)))
    else if m = 0 then ⟨signBit t (n != k), 0, rs⟩
    else roundQuot t mode rs (n != k) m m' (e - e')

/-- FSQRT (R127). -/
def sqrtVal (t : Ty) (mode : RMode) (rs : BitVec 32) (a : Val) : Rounded :=
  match a with
  | .nan s => ⟨canonNaN t, if s then flNV else 0, rs⟩
  | .inf neg => if neg then ⟨canonNaN t, flNV, rs⟩ else round t mode rs (.inf false)
  | .fin neg m e =>
    if m = 0 then ⟨signBit t neg, 0, rs⟩
    else if neg then ⟨canonNaN t, flNV, rs⟩
    else
      match Ty.fmt t with
      | none => ⟨0, 0, rs⟩
      | some f =>
        let k := 2 * (f.fb + 40) + (if e % 2 = 0 then 0 else 1)
        let n := m <<< k
        let r := isqrt n
        roundFloat t f mode rs false r ((e - k) / 2) (r * r != n)

/-- FRSQ: 1 / √a (R127). -/
def rsqVal (t : Ty) (mode : RMode) (rs : BitVec 32) (a : Val) : Rounded :=
  match a with
  | .nan s => ⟨canonNaN t, if s then flNV else 0, rs⟩
  | .inf neg => if neg then ⟨canonNaN t, flNV, rs⟩ else ⟨0, 0, rs⟩
  | .fin neg m e =>
    if m = 0 then round t mode rs (.inf neg)
    else if neg then ⟨canonNaN t, flNV, rs⟩
    else
      match Ty.fmt t with
      | none => ⟨0, 0, rs⟩
      | some f =>
        -- 1/√(m·2^e) with an even exponent: √(2^2j / m') · 2^(−j − e'/2)
        let m' := if e % 2 = 0 then m else 2 * m
        let e' := if e % 2 = 0 then e else e - 1
        let j := bitLen m' + f.fb + 40
        let n := 2 ^ (2 * j) / m'
        let r := isqrt n
        roundFloat t f mode rs false r (-(j : Int) - e' / 2) (r * r * m' != 2 ^ (2 * j))

/-- FSCALE (R129). -/
def scaleVal (t : Ty) (mode : RMode) (rs : BitVec 32) (raw : Nat) (a : Val) (n : Int) : Rounded :=
  match a with
  | .nan s => ⟨canonNaN t, if s then flNV else 0, rs⟩
  | .inf _ => ⟨raw, 0, rs⟩
  | .fin neg m e =>
    if m = 0 then ⟨raw, 0, rs⟩
    else
      -- an exponent beyond every format gives the same overflow or underflow as one just beyond it
      let n' : Int := if n > 5000 then 5000 else if n < -5000 then -5000 else n
      round t mode rs (.fin neg m (e + n'))

/-- FRND: the integral value of the type by a mode (R126). -/
def rndVal (t : Ty) (mode : RMode) (rs : BitVec 32) (a : Val) : Rounded :=
  match a with
  | .nan s => ⟨canonNaN t, if s then flNV else 0, rs⟩
  | .inf neg => round t .rne rs (.inf neg)
  | .fin neg m e =>
    let (i, _, rs') := roundInt mode rs neg m e
    ⟨(round t .rne rs (.fin neg i.natAbs 0)).code, 0, rs'⟩

/-- The fraction bits of the elementary functions' working precision. -/
def elemBits : Nat := 400

/-- The fixed-point series Σ x^k / (k! …) of `exp`: terms until the fuel ends. -/
def expLoop (x : Nat) : Nat → Nat → Nat → Nat → Nat
  | 0, _, _, acc => acc
  | fuel + 1, k, term, acc =>
    let term' := ((term * x) >>> elemBits) / k
    expLoop x fuel (k + 1) term' (acc + term')

/-- e^x for 0 ≤ x < 1 in fixed point. -/
def expFix (x : Nat) : Nat := expLoop x 100 1 (2 ^ elemBits) (2 ^ elemBits)

/-- Σ y^(2k+1)/(2k+1) with y2 = y², in fixed point. -/
def atanhLoop (y2 : Nat) : Nat → Nat → Nat → Nat → Nat
  | 0, _, _, acc => acc
  | fuel + 1, k, p, acc =>
    let p' := (p * y2) >>> elemBits
    atanhLoop y2 fuel (k + 1) p' (acc + p' / (2 * k + 1))

/-- ln((1+y)/(1−y)) = 2·atanh y for 0 ≤ y ≤ 1/3 in fixed point. -/
def twoAtanh (y : Nat) : Nat :=
  2 * atanhLoop ((y * y) >>> elemBits) 135 1 y y

/-- ln 2 in fixed point. -/
def ln2Fix : Nat := twoAtanh (2 ^ elemBits / 3)

/-- arctan(1/k) in fixed point, alternating series. -/
def atanInvLoop (k2 : Nat) : Nat → Nat → Nat → Int → Int
  | 0, _, _, acc => acc
  | fuel + 1, i, p, acc =>
    let p' := p / k2
    atanInvLoop k2 fuel (i + 1) p' (if i % 2 = 1 then acc - (p' / (2 * i + 1) : Nat) else acc + (p' / (2 * i + 1) : Nat))

/-- π in fixed point by Machin's formula. -/
def piFix : Nat :=
  let at5 := atanInvLoop 25 90 1 (2 ^ elemBits / 5) (2 ^ elemBits / 5 : Nat)
  let at239 := atanInvLoop (239 * 239) 30 1 (2 ^ elemBits / 239) (2 ^ elemBits / 239 : Nat)
  (4 * (4 * at5 - at239)).toNat

/-- The sine or cosine series of x ≤ π/2 in fixed point, from its first term and index. -/
def sinLoop (x2 : Nat) : Nat → Nat → Nat → Int → Int
  | 0, _, _, acc => acc
  | fuel + 1, k, term, acc =>
    let term' := ((term * x2) >>> elemBits) / ((k + 1) * (k + 2))
    -- the sign alternates with each pair of indices
    sinLoop x2 fuel (k + 2) term' (if (k / 2) % 2 = 0 then acc - term' else acc + term')

/-- sin x for 0 ≤ x ≤ π/2, in fixed point. -/
def sinFix (x : Nat) : Nat := (sinLoop ((x * x) >>> elemBits) 60 1 x x).toNat

/-- cos x for 0 ≤ x ≤ π/2, in fixed point. -/
def cosFix (x : Nat) : Nat := (sinLoop ((x * x) >>> elemBits) 60 0 (2 ^ elemBits) (2 ^ elemBits : Nat)).toNat

/-- Rounds an inexact fixed-point magnitude × 2^e. -/
def roundElem (t : Ty) (mode : RMode) (rs : BitVec 32) (neg : Bool) (x : Nat) (e : Int) : Rounded :=
  match Ty.fmt t with
  | none => ⟨0, 0, rs⟩
  | some f => roundFloat t f mode rs neg x (e - elemBits) true

/-- FEXP2 (R128). -/
def exp2Val (t : Ty) (mode : RMode) (rs : BitVec 32) (a : Val) : Rounded :=
  match a with
  | .nan s => ⟨canonNaN t, if s then flNV else 0, rs⟩
  | .inf neg => if neg then ⟨0, 0, rs⟩ else round t mode rs (.inf false)
  | .fin neg m e =>
    if m = 0 then round t mode rs (.fin false 1 0)
    else if e ≥ 0 ∨ m % 2 ^ (-e).toNat = 0 then
      -- an integral argument has an exact result
      let i := if e ≥ 0 then m <<< (min e 20).toNat else m >>> (-e).toNat
      let i' := min i 5000
      round t mode rs (.fin false 1 (if neg then -(i' : Int) else i'))
    else
      let k := (-e).toNat
      let ip := min (m >>> k) 5000
      let fp := m % 2 ^ k
      -- 2^(±(ip + fp/2^k)) = 2^n · 2^g with 0 < g < 1
      let g := if neg then 2 ^ k - fp else fp
      let n : Int := if neg then -(ip : Int) - 1 else ip
      let gf := if k ≤ elemBits then g <<< (elemBits - k) else g >>> (k - elemBits)
      roundElem t mode rs false (expFix ((gf * ln2Fix) >>> elemBits)) n

/-- FLOG2 (R128). -/
def log2Val (t : Ty) (mode : RMode) (rs : BitVec 32) (a : Val) : Rounded :=
  match a with
  | .nan s => ⟨canonNaN t, if s then flNV else 0, rs⟩
  | .inf neg => if neg then ⟨canonNaN t, flNV, rs⟩ else round t mode rs (.inf false)
  | .fin neg m e =>
    if m = 0 then round t mode rs (.inf true)
    else if neg then ⟨canonNaN t, flNV, rs⟩
    else
      let k := bitLen m - 1
      let n : Int := e + k
      if m = 2 ^ k then round t mode rs (Val.ofInt n)
      else
        -- a = 2^n · x with 1 < x < 2
        let y := ((m - 2 ^ k) <<< elemBits) / (m + 2 ^ k)
        let l := (twoAtanh y <<< elemBits) / ln2Fix
        let tot : Int := n * (2 ^ elemBits : Nat) + l
        roundElem t mode rs (decide (tot < 0)) (if tot < 0 then tot.natAbs - 1 else tot.natAbs) 0

/-- The fraction of a turn of π: the argument of FSIN and FCOS reduced to [0, 2) half-turns, in fixed point. -/
def reduceTurn (m : Nat) (e : Int) : Nat :=
  if e ≥ 0 then (m <<< (min e 2).toNat) % 2 * 2 ^ elemBits
  else
    let k := (-e).toNat
    let r := m % 2 ^ (k + 1)
    if k ≤ elemBits then r <<< (elemBits - k) else r >>> (k - elemBits)

/-- FSIN: sin(π × a) (R128). -/
def sinpiVal (t : Ty) (mode : RMode) (rs : BitVec 32) (a : Val) : Rounded :=
  match a with
  | .nan s => ⟨canonNaN t, if s then flNV else 0, rs⟩
  | .inf _ => ⟨canonNaN t, flNV, rs⟩
  | .fin neg m e =>
    if e ≥ 0 ∨ m % 2 ^ (-e).toNat = 0 then ⟨signBit t neg, 0, rs⟩
    else
      let u := reduceTurn m e
      let one := 2 ^ elemBits
      let flip := decide (one ≤ u)
      let v := if flip then u - one else u
      let w := if v * 2 > one then one - v else v
      if w * 2 = one then round t mode rs (.fin (neg != flip) 1 0)
      else
        let x := (w * piFix) >>> elemBits
        roundElem t mode rs (neg != flip) (if w * 4 ≤ one then sinFix x else cosFix (((one - 2 * w) * piFix) >>> (elemBits + 1))) 0

/-- FCOS: cos(π × a) (R128). -/
def cospiVal (t : Ty) (mode : RMode) (rs : BitVec 32) (a : Val) : Rounded :=
  match a with
  | .nan s => ⟨canonNaN t, if s then flNV else 0, rs⟩
  | .inf _ => ⟨canonNaN t, flNV, rs⟩
  | .fin _ m e =>
    if e ≥ 0 ∨ m % 2 ^ (-e).toNat = 0 then
      let i := if e ≥ 0 then m <<< (min e 2).toNat else m >>> (-e).toNat
      round t mode rs (.fin (i % 2 == 1) 1 0)
    else
      let u := reduceTurn m e
      let one := 2 ^ elemBits
      let flip := decide (one ≤ u)
      let v := if flip then u - one else u
      -- cos on (0, 1): positive below 1/2, negative above
      if v * 2 = one then ⟨0, 0, rs⟩
      else
        let low := decide (v * 2 < one)
        let w := if low then v else one - v
        roundElem t mode rs (flip != !low) (if w * 4 ≤ one then cosFix ((w * piFix) >>> elemBits) - 1
          else sinFix (((one - 2 * w) * piFix) >>> (elemBits + 1))) 0

/-- The order of two values that are not NaN, −0 below +0 (R123, R147). -/
def valLt (a b : Val) : Bool :=
  match a, b with
  | .inf n, .inf k => n && !k
  | .inf n, _ => n
  | _, .inf k => !k
  | .fin n m e, .fin k m' e' =>
    let e0 := min e e'
    let x := (Val.fin n m e).units e0; let y := (Val.fin k m' e').units e0
    decide (x < y) || (x == y && x == 0 && n && !k)
  | _, _ => false

/-- Numeric comparison of values that are not NaN, with +0 = −0 (R124). -/
def valCmp (a b : Val) : Ordering :=
  match a, b with
  | .fin _ 0 _, .fin _ 0 _ => .eq
  | _, _ => if valLt a b then .lt else if valLt b a then .gt else .eq

/-- The magnitude of a value as (m, e); 0 for a value that is not finite. -/
def magOf : Val → Nat × Int
  | .fin _ m e => (m, e)
  | _ => (0, 0)

/-- Whether one magnitude is smaller than another. -/
def magLt (a b : Nat × Int) : Bool :=
  let lo := min a.2 b.2
  decide (a.1 <<< (a.2 - lo).toNat < b.1 <<< (b.2 - lo).toNat)

end Sys2Proof.Machine
end

