-- ==== Sys2Proof/Machine/Encoding.lean ====
section
/-! DEFINITION. The encoding tables of the manual, as data: for each of the 137 opcodes (R91) the hints, types, MOD and X
values and operand classes that decode accepts (R84 to R87, R106, R120, R132, R143, R152, R183, R208, R228, R249). -/

namespace Sys2Proof

/-- What one operand field of an instruction may hold (R81, R83). -/
inductive FieldSpec where
  | unused              -- all zeros
  | cls (ok : List Nat) -- one of these classes
  | opt (ok : List Nat) -- all zeros, or one of these classes
  | brOff               -- the signed offset of the branch form
  | brPrio              -- a priority of the branch form, bits 19 to 12 zero
  | imm12               -- class 0xA with IDX bits 15 to 12 zero
  deriving DecidableEq, Repr

/-- One row of an encoding table. -/
structure OpSpec where
  laOk  : Bool := false
  uniOk : Bool := false
  tys   : List Ty
  tyOk  : Ty → BitVec 4 → BitVec 4 → Bool := fun _ _ _ => true
  rnd   : Bool := false
  mx    : BitVec 4 → BitVec 4 → Ty → Bool
  dab   : BitVec 4 → FieldSpec × FieldSpec × FieldSpec
  wide  : Bool := false

/-- A row of the opcode map: the opcode, the constructor, and its encoding row. -/
structure OpRow where
  op   : Nat
  ins  : Enc → Instr
  spec : OpSpec

/-- The value destinations V of R101. -/
def vDst : List Nat := [0, 1, 2, 3, 4, 5, 6, 8, 11]
/-- The value sources S of R101. -/
def sSrc : List Nat := [0, 1, 2, 3, 4, 5, 6, 7, 8, 9, 10, 11]
/-- The value sources without stream ports, S− of R101. -/
def sNoPort : List Nat := [0, 1, 2, 3, 4, 5, 6, 7, 9, 10, 11]
/-- The uniform set U of R152, R177 and R249. -/
def uSet : List Nat := [6, 9, 10]
/-- The target set T of R152. -/
def tSet : List Nat := [0, 1, 4, 5, 6, 11]
/-- The address set AD of R177. -/
def adSet : List Nat := [0, 1, 4, 5, 6, 9, 11]
/-- The offset set OF of R177. -/
def ofSet : List Nat := [0, 1, 4, 5, 6, 10]
/-- The value destinations without stream ports, V− of R177. -/
def vNoPort : List Nat := [0, 1, 2, 3, 4, 5, 6, 11]
/-- The store data set DS of R177. -/
def dsSet : List Nat := [0, 1, 2, 3, 4, 5, 6, 7, 9, 11]
/-- The classes of a 12-byte element operand; classes 0x4 to 0x6 pass decode and raise VIEW_WIDTH at issue (R66, R131). -/
def accDst : List Nat := [0, 1, 2, 3, 4, 5, 6, 11]

/-- The type set B of R101. -/
def bTys : List Ty := [.b8, .b16, .b32, .b64]
/-- The type set I of R101. -/
def iTys : List Ty := [.b8, .b16, .b32, .b64, .i8, .i16, .i32, .i64]
/-- The type set F of R101. -/
def fTys : List Ty := [.bf16, .f16, .f32, .f64]
/-- The types of code 0x00 to 0x11. -/
def tys0x11 : List Ty := [.b8, .b16, .b32, .b64, .i8, .i16, .i32, .i64, .sm4, .sm6, .sm8, .ts8, .e4m3, .e5m2, .bf16, .f16, .f32, .f64]
/-- The type set E of R101. -/
def eTys : List Ty := tys0x11 ++ [.sx8]
/-- The type set M of R183. -/
def mTys : List Ty := [.b8, .b16, .b32, .b64, .i8, .i16, .i32, .i64, .sm8, .ts8, .e4m3, .e5m2, .bf16, .f16, .f32, .f64, .sx8]
/-- The type set A of R183. -/
def aTys : List Ty := [.b32, .b64, .i32, .i64, .f32, .f64]
/-- The types of SRD, SWR, CAS, XCHG and MWAIT. -/
def b32b64 : List Ty := [.b32, .b64]

/-- MOD and X both zero. -/
def mxZero (m x : BitVec 4) (_ : Ty) : Bool := m == 0 && x == 0
/-- One modifier bit in MOD[0]. -/
def mx1 (m x : BitVec 4) (_ : Ty) : Bool := m < 2 && x == 0
/-- Any X, MOD zero. -/
def mxX (m _x : BitVec 4) (_ : Ty) : Bool := m == 0
/-- A rounding mode in MOD[2:0], MOD[3] zero, X zero. -/
def mxR (m x : BitVec 4) (_ : Ty) : Bool := m < 8 && x == 0
/-- The third-source selector of R102. -/
def mxC (x : BitVec 4) : Bool := x == 0 || 8 ≤ x
/-- The reduction operations of R143: codes 0 to 5, code 6 in GSCAN only, no logic on an F type. -/
def mxRed (scan : Bool) (op : BitVec 4) (t : Ty) : Bool :=
  op < 3 || (op < 6 && !(fTys.contains t)) || (op == 6 && scan)
/-- The operation code of an atomic, X[3] and MOD[1:0] (R188). -/
def atomOpOf (m x : BitVec 4) : Nat := (x >>> 3).toNat * 4 + (m &&& 3).toNat
/-- The atomic forms of R188: codes 0 to 5, no logic on f32 or f64, scope 0 to 5. -/
def mxAtom (m x : BitVec 4) (t : Ty) : Bool :=
  let o := atomOpOf m x
  decide (o < 6) && (x &&& 7) < 6 && (decide (o < 3) || !(t == .f32 || t == .f64))
/-- The source type code of CVT and PACK, MOD[3] and X (R132). -/
def styCode (m x : BitVec 4) : Nat := (m >>> 3).toNat * 16 + x.toNat
/-- CVT's source type: not reserved, not a80i (R132). -/
def cvtSrcOk (m x : BitVec 4) : Bool := decide (styCode m x < 0x15) && styCode m x != 0x13
/-- The type pairs of PACK (R136). -/
def packOk (t : Ty) (m x : BitVec 4) : Bool :=
  (styCode m x == 0x08 && t == .sm4) || (styCode m x == 0x09 && t == .sm6)
    || (styCode m x == 0x10 && (t == .bf16 || t == .f16))

/-- The rows of opcodes 0x000 to 0x03F. -/
def ctlRows : List OpRow := [
  ⟨0x000, .nop, { tys := [.b8], mx := mxZero, dab := fun _ => (.unused, .unused, .unused) }⟩,
  ⟨0x001, .bra, { uniOk := true, tys := [.b8], mx := mxZero, dab := fun _ => (.brOff, .brPrio, .brPrio) }⟩,
  ⟨0x002, .bri, { uniOk := true, tys := [.b8], mx := (fun m x _ => m == 0 && x < 8), dab := fun _ => (.brOff, .brPrio, .brPrio) }⟩,
  ⟨0x003, .call, { uniOk := true, tys := [.b8], mx := mxZero, dab := fun _ => (.brOff, .brPrio, .brPrio) }⟩,
  ⟨0x004, .calli, { uniOk := true, tys := [.b8], mx := mxZero, dab := fun _ => (.unused, .cls tSet, .imm12) }⟩,
  ⟨0x005, .ret, { uniOk := true, tys := [.b8], mx := mxZero, dab := fun _ => (.unused, .unused, .unused) }⟩,
  ⟨0x006, .exit, { tys := [.b8], mx := mxZero, dab := fun _ => (.unused, .unused, .unused) }⟩,
  ⟨0x007, .yield, { tys := [.b8], mx := mxZero, dab := fun _ => (.unused, .unused, .unused) }⟩,
  ⟨0x008, .sleep, { tys := [.b8], mx := mxZero, dab := fun _ => (.unused, .cls uSet, .unused), wide := true }⟩,
  ⟨0x009, .trap, { tys := [.b8], mx := mxZero, dab := fun _ => (.unused, .imm12, .unused) }⟩,
  ⟨0x00A, .rft, { tys := [.b8], mx := mx1, dab := fun _ => (.unused, .unused, .unused) }⟩,
  ⟨0x00B, .endg, { tys := [.b8], mx := mxZero, dab := fun _ => (.unused, .unused, .unused) }⟩,
  ⟨0x00C, .hbeat, { tys := [.b8], mx := mxZero, dab := fun _ => (.unused, .unused, .unused) }⟩,
  ⟨0x00D, .beos, { uniOk := true, tys := [.b8], mx := (fun m x _ => m < 2 && x == 0), dab := fun _ => (.brOff, .brPrio, .brPrio) }⟩,
  ⟨0x00E, .brk, { tys := [.b8], mx := mxZero, dab := fun _ => (.unused, .unused, .unused) }⟩,
  ⟨0x00F, .srd, { tys := b32b64, mx := mxZero, dab := fun _ => (.cls vDst, .cls [9], .unused) }⟩,
  ⟨0x010, .swr, { tys := b32b64, mx := mxZero, dab := fun _ => (.cls [9], .cls uSet, .unused), wide := true }⟩,
  ⟨0x011, .tlbi, { tys := [.b8], mx := (fun m x _ => m < 3 && 3 ≤ x && x ≤ 5), dab := (fun m => (.unused, if m == 0 then .unused else .cls [6], if m == 2 then .cls [6] else .unused)) }⟩,
  ⟨0x012, .rply, { tys := [.b8], mx := mx1, dab := (fun m => (.cls [6], .cls [6], if m == 0 then .cls [6] else .unused)) }⟩,
  ⟨0x013, .errd, { tys := [.b8], mx := mx1, dab := fun _ => (.cls [11], .unused, .unused) }⟩,
  ⟨0x014, .wdset, { tys := [.b8], mx := mx1, dab := fun _ => (.unused, .cls uSet, .unused) }⟩,
  ⟨0x015, .timeI, { tys := [.b64], mx := mx1, dab := fun _ => (.cls [6], .unused, .unused) }⟩,
  ⟨0x016, .pmcrd, { tys := [.b64], mx := mxZero, dab := fun _ => (.cls [6], .cls uSet, .unused) }⟩]

/-- The rows of opcodes 0x040 to 0x0BF. -/
def intRows : List OpRow := [
  ⟨0x040, .mov, { tys := (eTys ++ [.a80f, .a80i]), mx := mxZero, dab := fun _ => (.cls vDst, .cls sSrc, .unused), wide := true }⟩,
  ⟨0x041, .sel, { tys := eTys, mx := mxX, dab := fun _ => (.cls vDst, .cls sSrc, .cls sSrc) }⟩,
  ⟨0x042, .iadd, { tys := iTys, mx := mx1, dab := fun _ => (.cls vDst, .cls sSrc, .cls sSrc) }⟩,
  ⟨0x043, .iaddc, { tys := iTys, mx := mxX, dab := fun _ => (.cls vDst, .cls sSrc, .cls sSrc) }⟩,
  ⟨0x044, .isub, { tys := iTys, mx := mx1, dab := fun _ => (.cls vDst, .cls sSrc, .cls sSrc) }⟩,
  ⟨0x045, .isubb, { tys := iTys, mx := mxX, dab := fun _ => (.cls vDst, .cls sSrc, .cls sSrc) }⟩,
  ⟨0x046, .imul, { tys := iTys, mx := mxZero, dab := fun _ => (.cls vDst, .cls sSrc, .cls sSrc) }⟩,
  ⟨0x047, .imulh, { tys := iTys, mx := mxZero, dab := fun _ => (.cls vDst, .cls sSrc, .cls sSrc) }⟩,
  ⟨0x048, .imad, { tys := iTys, mx := (fun m x _ => m == 0 && mxC x), dab := fun _ => (.cls vDst, .cls sSrc, .cls sSrc) }⟩,
  ⟨0x049, .imadh, { tys := iTys, mx := (fun m x _ => m == 0 && mxC x), dab := fun _ => (.cls vDst, .cls sSrc, .cls sSrc) }⟩,
  ⟨0x04A, .idiv, { laOk := true, tys := iTys, mx := mxZero, dab := fun _ => (.cls vDst, .cls sSrc, .cls sSrc) }⟩,
  ⟨0x04B, .irem, { laOk := true, tys := iTys, mx := mxZero, dab := fun _ => (.cls vDst, .cls sSrc, .cls sSrc) }⟩,
  ⟨0x04C, .ineg, { tys := iTys, mx := mx1, dab := fun _ => (.cls vDst, .cls sSrc, .unused) }⟩,
  ⟨0x04D, .iabs, { tys := [.i8, .i16, .i32, .i64], mx := mx1, dab := fun _ => (.cls vDst, .cls sSrc, .unused) }⟩,
  ⟨0x04E, .imin, { tys := iTys, mx := mxZero, dab := fun _ => (.cls vDst, .cls sSrc, .cls sSrc) }⟩,
  ⟨0x04F, .imax, { tys := iTys, mx := mxZero, dab := fun _ => (.cls vDst, .cls sSrc, .cls sSrc) }⟩,
  ⟨0x050, .icmp, { tys := iTys, mx := (fun m x _ => m < 6 && x == 0), dab := fun _ => (.cls [7], .cls sSrc, .cls sSrc) }⟩,
  ⟨0x051, .andB, { tys := bTys, mx := mxZero, dab := fun _ => (.cls vDst, .cls sSrc, .cls sSrc) }⟩,
  ⟨0x052, .orB, { tys := bTys, mx := mxZero, dab := fun _ => (.cls vDst, .cls sSrc, .cls sSrc) }⟩,
  ⟨0x053, .xorB, { tys := bTys, mx := mxZero, dab := fun _ => (.cls vDst, .cls sSrc, .cls sSrc) }⟩,
  ⟨0x054, .andn, { tys := bTys, mx := mxZero, dab := fun _ => (.cls vDst, .cls sSrc, .cls sSrc) }⟩,
  ⟨0x055, .notB, { tys := bTys, mx := mxZero, dab := fun _ => (.cls vDst, .cls sSrc, .unused) }⟩,
  ⟨0x056, .shl, { tys := bTys, mx := mxZero, dab := fun _ => (.cls vDst, .cls sSrc, .cls sSrc) }⟩,
  ⟨0x057, .shr, { tys := bTys, mx := mxZero, dab := fun _ => (.cls vDst, .cls sSrc, .cls sSrc) }⟩,
  ⟨0x058, .sar, { tys := bTys, mx := mxZero, dab := fun _ => (.cls vDst, .cls sSrc, .cls sSrc) }⟩,
  ⟨0x059, .rotl, { tys := bTys, mx := mxZero, dab := fun _ => (.cls vDst, .cls sSrc, .cls sSrc) }⟩,
  ⟨0x05A, .bfe, { tys := iTys, mx := mxZero, dab := fun _ => (.cls vDst, .cls sSrc, .cls sSrc) }⟩,
  ⟨0x05B, .bfi, { tys := bTys, mx := (fun m x _ => m == 0 && mxC x), dab := fun _ => (.cls vDst, .cls sSrc, .cls sSrc) }⟩,
  ⟨0x05C, .popc, { tys := bTys, mx := mxZero, dab := fun _ => (.cls vDst, .cls sSrc, .unused) }⟩,
  ⟨0x05D, .clz, { tys := bTys, mx := mxZero, dab := fun _ => (.cls vDst, .cls sSrc, .unused) }⟩,
  ⟨0x05E, .ctz, { tys := bTys, mx := mxZero, dab := fun _ => (.cls vDst, .cls sSrc, .unused) }⟩,
  ⟨0x05F, .brev, { tys := bTys, mx := mxZero, dab := fun _ => (.cls vDst, .cls sSrc, .unused) }⟩,
  ⟨0x060, .lea, { tys := [.b64, .i64], mx := (fun _ x _ => x == 0), dab := fun _ => (.cls vDst, .cls sSrc, .cls sSrc) }⟩,
  ⟨0x061, .plop, { tys := [.b8], mx := (fun m x _ => m < 8 && x == 0), dab := fun _ => (.cls [7], .cls [7], .cls [7]) }⟩,
  ⟨0x062, .pmov, { tys := bTys, mx := mx1, dab := fun _ => (.cls ([7] ++ vDst), .cls sSrc, .unused), wide := true }⟩]

/-- The rows of opcodes 0x0C0 to 0x13F. -/
def fpRows : List OpRow := [
  ⟨0x0C0, .fadd, { tys := fTys, rnd := true, mx := mxR, dab := fun _ => (.cls vDst, .cls sSrc, .cls sSrc) }⟩,
  ⟨0x0C1, .fsub, { tys := fTys, rnd := true, mx := mxR, dab := fun _ => (.cls vDst, .cls sSrc, .cls sSrc) }⟩,
  ⟨0x0C2, .fmul, { tys := fTys, rnd := true, mx := mxR, dab := fun _ => (.cls vDst, .cls sSrc, .cls sSrc) }⟩,
  ⟨0x0C3, .ffma, { tys := fTys, rnd := true, mx := (fun m x _ => m < 8 && mxC x), dab := fun _ => (.cls vDst, .cls sSrc, .cls sSrc) }⟩,
  ⟨0x0C4, .fmin, { tys := fTys, mx := mxZero, dab := fun _ => (.cls vDst, .cls sSrc, .cls sSrc) }⟩,
  ⟨0x0C5, .fmax, { tys := fTys, mx := mxZero, dab := fun _ => (.cls vDst, .cls sSrc, .cls sSrc) }⟩,
  ⟨0x0C6, .fcmp, { tys := fTys, mx := (fun m x _ => m < 8 && x == 0), dab := fun _ => (.cls [7], .cls sSrc, .cls sSrc) }⟩,
  ⟨0x0C7, .fclass, { tys := fTys, mx := mxZero, dab := fun _ => (.cls vDst, .cls sSrc, .unused) }⟩,
  ⟨0x0C8, .frnd, { tys := fTys, rnd := true, mx := mxR, dab := fun _ => (.cls vDst, .cls sSrc, .unused) }⟩,
  ⟨0x0C9, .fdiv, { laOk := true, tys := fTys, rnd := true, mx := mxR, dab := fun _ => (.cls vDst, .cls sSrc, .cls sSrc) }⟩,
  ⟨0x0CA, .fsqrt, { laOk := true, tys := fTys, rnd := true, mx := mxR, dab := fun _ => (.cls vDst, .cls sSrc, .unused) }⟩,
  ⟨0x0CB, .frcp, { laOk := true, tys := fTys, rnd := true, mx := mxR, dab := fun _ => (.cls vDst, .cls sSrc, .unused) }⟩,
  ⟨0x0CC, .frsq, { laOk := true, tys := fTys, rnd := true, mx := mxR, dab := fun _ => (.cls vDst, .cls sSrc, .unused) }⟩,
  ⟨0x0CD, .fexp2, { laOk := true, tys := [.bf16, .f16, .f32], rnd := true, mx := mxR, dab := fun _ => (.cls vDst, .cls sSrc, .unused) }⟩,
  ⟨0x0CE, .flog2, { laOk := true, tys := [.bf16, .f16, .f32], rnd := true, mx := mxR, dab := fun _ => (.cls vDst, .cls sSrc, .unused) }⟩,
  ⟨0x0CF, .fsin, { laOk := true, tys := [.bf16, .f16, .f32], rnd := true, mx := mxR, dab := fun _ => (.cls vDst, .cls sSrc, .unused) }⟩,
  ⟨0x0D0, .fcos, { laOk := true, tys := [.bf16, .f16, .f32], rnd := true, mx := mxR, dab := fun _ => (.cls vDst, .cls sSrc, .unused) }⟩,
  ⟨0x0D1, .fscale, { tys := fTys, rnd := true, mx := mxR, dab := fun _ => (.cls vDst, .cls sSrc, .cls sSrc) }⟩,
  ⟨0x0D2, .fdot2, { tys := [.bf16, .f16], rnd := true, mx := (fun m x _ => m < 8 && mxC x), dab := fun _ => (.cls vDst, .cls sSrc, .cls sSrc) }⟩,
  ⟨0x0D3, .aadd, { tys := [.a80f, .a80i], rnd := true, mx := (fun m x t => x == 0 && m < 8 && (t != .a80i || m == 0)), dab := fun _ => (.cls accDst, .cls accDst, .cls accDst) }⟩]

/-- The rows of opcodes 0x140 to 0x17F (their causes where two may apply: log 85). -/
def cvtRows : List OpRow := [
  ⟨0x140, .cvt, { tys := (eTys ++ [.a80f]), tyOk := (fun _ m x => cvtSrcOk m x), rnd := true, mx := (fun _ _ _ => true), dab := fun _ => (.cls vDst, .cls sSrc, .unused), wide := true }⟩,
  ⟨0x141, .pack, { tys := [.sm4, .sm6, .bf16, .f16], tyOk := packOk, rnd := true, mx := (fun m _ t => (t != .sm4 && t != .sm6) || m &&& 7 == 0), dab := fun _ => (.cls vDst, .cls sSrc, .cls sSrc) }⟩,
  ⟨0x142, .unpk, { tys := [.sm4, .sm6, .bf16, .f16], mx := (fun m x t => m == 0 && x < 2 && (x == 0 || t == .bf16 || t == .f16)), dab := fun _ => (.cls vDst, .cls sSrc, .unused) }⟩,
  ⟨0x143, .qblk, { tys := [.sm4, .sm6, .sm8, .ts8, .e4m3, .e5m2], rnd := true, mx := (fun m x _ => m < 8 && x < 2), dab := fun _ => (.cls vDst, .cls sSrc, .cls vDst) }⟩,
  ⟨0x144, .dqblk, { tys := [.f32], tyOk := (fun _ _ x => 8 ≤ x && x ≤ 13), rnd := true, mx := (fun m _ _ => m < 8), dab := fun _ => (.cls vDst, .cls sSrc, .cls sSrc) }⟩,
  ⟨0x145, .resid, { tys := (iTys ++ [.a80i]), mx := mxZero, dab := fun _ => (.cls vDst, .cls sSrc, .unused) }⟩]

/-- The rows of opcodes 0x180 to 0x1BF. -/
def xlaneRows : List OpRow := [
  ⟨0x180, .shfi, { tys := eTys, mx := mxZero, dab := fun _ => (.cls vDst, .cls sNoPort, .cls sSrc) }⟩,
  ⟨0x181, .shfx, { tys := eTys, mx := mxZero, dab := fun _ => (.cls vDst, .cls sNoPort, .cls sSrc) }⟩,
  ⟨0x182, .shfn, { tys := eTys, mx := mx1, dab := fun _ => (.cls vDst, .cls sNoPort, .cls sSrc) }⟩,
  ⟨0x183, .qswp, { tys := eTys, mx := (fun m x _ => m == 0 && x < 3), dab := fun _ => (.cls vDst, .cls sNoPort, .unused) }⟩,
  ⟨0x184, .qbc, { tys := eTys, mx := mxZero, dab := fun _ => (.cls vDst, .cls sNoPort, .cls sSrc) }⟩,
  ⟨0x185, .qred, { tys := (iTys ++ fTys), mx := (fun m x t => m < 8 && x == 0 && mxRed false m t), dab := fun _ => (.cls vDst, .cls sSrc, .unused) }⟩,
  ⟨0x186, .vote, { tys := [.b8, .b32], tyOk := (fun t m _ => t == if m &&& 3 == 3 then .b32 else .b8), mx := (fun m x _ => m < 4 && x == 0), dab := (fun m => (if m &&& 3 == 3 then .cls vDst else .cls [7], .cls [7], .unused)) }⟩,
  ⟨0x187, .gred, { tys := (iTys ++ fTys), mx := (fun m x t => (8 ≤ m || x == 0) && mxRed false (m &&& 7) t), dab := fun _ => (.cls vDst, .cls sSrc, .unused) }⟩,
  ⟨0x188, .gscan, { tys := (iTys ++ fTys), mx := (fun m x t => (8 ≤ m || x == 0) && mxRed true (m &&& 7) t), dab := fun _ => (.cls vDst, .cls sSrc, .unused) }⟩,
  ⟨0x189, .matchL, { tys := iTys, mx := mxZero, dab := fun _ => (.cls vDst, .cls sSrc, .unused) }⟩,
  ⟨0x18A, .cmpk, { tys := eTys, mx := mxZero, dab := fun _ => (.cls vDst, .cls sSrc, .cls [7]) }⟩]

/-- The rows of opcodes 0x1C0 to 0x23F. -/
def memRows : List OpRow := [
  ⟨0x1C0, .ld, { laOk := true, tys := mTys, mx := (fun m x _ => m &&& 3 != 3 && m >>> 2 < 2 && x &&& 7 < 6), dab := fun _ => (.cls vNoPort, .cls adSet, .cls ofSet) }⟩,
  ⟨0x1C1, .st, { tys := mTys, mx := (fun m x _ => m &&& 3 != 3 && (m >>> 2 == 0 || m >>> 2 == 2) && x &&& 7 < 6), dab := fun _ => (.cls dsSet, .cls adSet, .cls ofSet) }⟩,
  ⟨0x1C2, .ldpk, { laOk := true, tys := [.b8], mx := (fun m x _ => m &&& 3 != 3 && x &&& 7 < 6), dab := fun _ => (.cls [0, 1, 2, 3], .cls adSet, .cls ofSet) }⟩,
  ⟨0x1C3, .stpk, { tys := [.b8], mx := (fun m x _ => m &&& 3 != 3 && x &&& 7 < 6), dab := fun _ => (.cls [0, 1, 2, 3], .cls adSet, .cls ofSet) }⟩,
  ⟨0x1C4, .pref, { tys := [.b8], mx := (fun m x _ => m < 3 && x &&& 7 == 0), dab := fun _ => (.unused, .cls adSet, .cls ofSet) }⟩,
  ⟨0x1C5, .atom, { laOk := true, tys := aTys, mx := mxAtom, dab := fun _ => (.cls vNoPort, .cls adSet, .cls sNoPort) }⟩,
  ⟨0x1C6, .red, { laOk := true, tys := aTys, mx := mxAtom, dab := fun _ => (.unused, .cls adSet, .cls sNoPort) }⟩,
  ⟨0x1C7, .cas, { laOk := true, tys := b32b64, mx := (fun m x _ => m &&& 3 == 0 && x < 6), dab := fun _ => (.cls [0, 1, 2, 3, 4, 5, 11], .cls adSet, .cls sNoPort) }⟩,
  ⟨0x1C8, .xchg, { laOk := true, tys := b32b64, mx := (fun m x _ => m &&& 3 == 0 && x < 6), dab := fun _ => (.cls vNoPort, .cls adSet, .cls sNoPort) }⟩,
  ⟨0x1C9, .mwait, { tys := b32b64, mx := (fun m x _ => m &&& 3 != 3 && m >>> 2 < 2 && x < 6), dab := fun _ => (.cls [6], .cls [6, 9], .cls [6, 10]) }⟩,
  ⟨0x1CA, .vspill, { tys := [.b32], mx := (fun m x _ => m < 3 && x &&& 7 == 0), dab := fun _ => (.cls [0, 1], .cls uSet, .unused), wide := true }⟩,
  ⟨0x1CB, .vfill, { laOk := true, tys := [.b32], mx := (fun m x _ => m < 3 && x &&& 7 == 0), dab := fun _ => (.cls [0, 1], .cls uSet, .unused), wide := true }⟩]

/-- The rows of opcodes 0x240 to 0x27F. -/
def copyRows : List OpRow := [
  ⟨0x240, .ctpl, { tys := [.b8], mx := mxZero, dab := fun _ => (.unused, .cls uSet, .cls [11]) }⟩,
  ⟨0x241, .bseal, { tys := [.b8], mx := mxZero, dab := fun _ => (.cls vNoPort, .unused, .unused) }⟩,
  ⟨0x242, .bwait, { tys := [.b8], mx := mx1, dab := (fun m => (.unused, if m == 0 then .cls sNoPort else .unused, .unused)) }⟩,
  ⟨0x243, .btest, { tys := [.b8], mx := mx1, dab := fun _ => (.cls [7], .cls sNoPort, .unused) }⟩,
  ⟨0x244, .spbind, { tys := [.b8], mx := mxZero, dab := fun _ => (.cls [8], .cls uSet, .unused), wide := true }⟩,
  ⟨0x245, .spseek, { tys := [.b8], mx := mxZero, dab := fun _ => (.cls [8], .cls sNoPort, .unused) }⟩,
  ⟨0x246, .spdrn, { tys := [.b8], mx := mxZero, dab := fun _ => (.cls [8], .unused, .unused) }⟩,
  ⟨0x247, .sprel, { tys := [.b8], mx := mxZero, dab := fun _ => (.cls [8], .unused, .unused) }⟩]

/-- The rows of opcodes 0x280 to 0x2BF. -/
def syncRows : List OpRow := [
  ⟨0x280, .bari, { tys := [.b8], mx := mxZero, dab := fun _ => (.unused, .cls uSet, .cls uSet) }⟩,
  ⟨0x281, .barr, { tys := [.b8], mx := mx1, dab := fun _ => (.opt [6], .cls uSet, .unused) }⟩,
  ⟨0x282, .barw, { tys := [.b8], mx := mxZero, dab := fun _ => (.cls [7], .cls uSet, .cls uSet) }⟩,
  ⟨0x283, .barrw, { tys := [.b8], mx := mx1, dab := fun _ => (.cls [7], .cls uSet, .unused) }⟩,
  ⟨0x284, .bart, { tys := [.b8], mx := (fun m x _ => m < 3 && x == 0), dab := (fun m => (if m == 2 then .cls [6] else .cls [7], .cls uSet, if m == 0 then .cls uSet else .unused)) }⟩,
  ⟨0x285, .fence, { tys := [.b8], mx := (fun m x _ => m &&& 3 == 0 && x < 6), dab := fun _ => (.unused, .unused, .unused) }⟩,
  ⟨0x286, .pbar, { tys := [.b8], mx := (fun m x _ => m == 0 && (x == 6 || x == 7)), dab := fun _ => (.unused, .unused, .unused) }⟩,
  ⟨0x287, .psync, { tys := [.b8], mx := mxZero, dab := fun _ => (.opt [7], .unused, .unused) }⟩,
  ⟨0x288, .stepadv, { tys := [.b8], mx := mxZero, dab := fun _ => (.cls [6], .unused, .unused) }⟩,
  ⟨0x289, .depdec, { tys := [.b8], mx := mxZero, dab := fun _ => (.unused, .cls uSet, .cls uSet) }⟩,
  ⟨0x28A, .qpush, { tys := [.b8], mx := mxZero, dab := fun _ => (.cls [6], .cls uSet, .cls [11]) }⟩,
  ⟨0x28B, .lhinge, { tys := [.b8], mx := mxZero, dab := fun _ => (.cls [6], .cls uSet, .unused) }⟩,
  ⟨0x28C, .dhop, { tys := [.b32], mx := mxZero, dab := fun _ => (.cls vDst, .cls sNoPort, .cls sNoPort) }⟩]

/-- The rows of opcodes 0x2C0 to 0x2FF. -/
def matRows : List OpRow := [
  ⟨0x2C0, .mloop, { tys := [.a80f, .a80i], mx := (fun _ _ _ => true), dab := fun _ => (.cls [3, 11], .cls [2, 11, 8], .cls [2, 11, 8]) }⟩,
  ⟨0x2C1, .mstep, { tys := [.a80f, .a80i], mx := (fun m _ _ => m &&& 7 == 0), dab := fun _ => (.cls [3, 11], .cls [2, 11, 8], .cls [2, 11, 8]) }⟩,
  ⟨0x2C2, .mzero, { tys := [.b8], mx := mxZero, dab := fun _ => (.cls [3, 11], .unused, .unused) }⟩,
  ⟨0x2C3, .mcvt, { laOk := true, tys := tys0x11, rnd := true, mx := (fun _ x _ => x &&& 3 == 0), dab := fun _ => (.cls [0, 1, 11], .cls [3, 11], .unused) }⟩,
  ⟨0x2C4, .macc, { tys := [.a80f, .a80i], mx := mxZero, dab := fun _ => (.cls [3, 11], .cls [3, 11], .cls [3, 11]) }⟩,
  ⟨0x2C5, .msync, { tys := [.b8], mx := mx1, dab := fun _ => (.unused, .unused, .unused) }⟩,
  ⟨0x2C6, .obres, { tys := [.b8], mx := mxX, dab := fun _ => (.unused, .cls [6], .unused) }⟩,
  ⟨0x2C7, .obrel, { tys := [.b8], mx := mxX, dab := fun _ => (.unused, .unused, .unused) }⟩,
  ⟨0x2C8, .obld, { tys := [.b8], mx := (fun m _ _ => m < 8), dab := fun _ => (.unused, .cls [6, 9, 10], .cls [11]) }⟩]

/-- The whole opcode map (R91). -/
def opRows : List OpRow :=
  ctlRows ++ intRows ++ fpRows ++ cvtRows ++ xlaneRows ++ memRows ++ copyRows ++ syncRows ++ matRows

/-- The row of an opcode; `none` for an unassigned value (R92). -/
def opRow (op : Nat) : Option OpRow := opRows.find? (fun r => r.op == op)

/-- The class of an operand, as CLS encodes it (R81); `none` for a field that is no operand. -/
def Opnd.cls : Opnd → Option Nat
  | .nil => none
  | .view k _ => some k.toNat
  | .opf _ => some 4
  | .last _ => some 5
  | .scal _ => some 6
  | .pred _ => some 7
  | .port _ => some 8
  | .sys _ => some 9
  | .imm _ => some 10
  | .rs _ => some 11
  | .wide _ => some 15
  | .raw _ => none

/-- The system registers that read as vectors (R69). -/
def SysReg.perLane : SysReg → Bool
  | .lane | .item | .age | .cdepth => true
  | _ => false

/-- An operand of the scalar, immediate or uniform system-register classes (R68). -/
def Opnd.uniform : Opnd → Bool
  | .nil | .scal _ | .imm _ | .wide _ | .raw _ => true
  | .sys r => !r.perLane
  | _ => false

/-- The destination D holds a scalar while a source is a vector, where R68, R143 and R169 do not allow it. -/
def scalarDestIll (op : Nat) (e : Enc) : Bool :=
  match e.d with
  | .scal _ =>
    if op = 0x1C1 ∨ op = 0x28A then false            -- ST reads D; QPUSH's rs[x] names a record
    else if op = 0x187 then decide (8 ≤ e.mod.toNat)  -- GRED with .seg
    else if op = 0x186 then false                      -- VOTE .ballot
    else if 0x180 ≤ op ∧ op ≤ 0x18A then true
    else if op = 0x062 then e.mod == 0 && !(e.a.uniform) -- PMOV without .mask
    else if (op = 0x048 ∨ op = 0x049 ∨ op = 0x05B ∨ op = 0x0C3 ∨ op = 0x0D2) ∧ 8 ≤ e.x.toNat then true
    else !(e.a.uniform && e.b.uniform)
  | _ => false

/-- Class conditions that single instructions add to their table row: the third source of R102, the forms of
PMOV (R119), the 12-byte operands of MOV and RESID (R107, R140), the scalar scale of QBLK (R68). -/
def classExtra (op : Nat) (e : Enc) : Bool :=
  let accOk (o : Opnd) : Bool := match o.cls with | some c => accDst.contains c | none => false
  if op = 0x048 ∨ op = 0x049 ∨ op = 0x05B ∨ op = 0x0C3 ∨ op = 0x0D2 then
    !(e.x == 0 && e.d.cls == some 8)
  else if op = 0x062 then
    if e.d.cls == some 7 then
      -- only the mask form takes a wide pair (R106); its source is uniform (R119)
      if e.mod == 0 then e.a.cls != some 15 else [some 6, some 9, some 10, some 15].contains e.a.cls && e.a.uniform
    else e.a.cls == some 7
  else if op = 0x040 then
    !(e.ty == .a80f || e.ty == .a80i) || accOk e.d && accOk e.a
  else if op = 0x145 then e.ty != .a80i || accOk e.a
  else if op = 0x143 then e.b.cls != some 6 || (e.d.cls == some 6 && e.a.uniform)
  else true

/-- The operand stands in a field of this kind. A per-lane register is no member of a uniform set (R68, R152); a field that only takes
system registers takes every one. -/
def opndFits (fs : FieldSpec) (o : Opnd) : Bool :=
  match fs with
  | .unused => o == .nil
  | .cls ok => (match o.cls with | some c => c != 15 && ok.contains c | none => false)
      && (o.uniform || ok == [9] || !ok.all (fun c => uSet.contains c))
  | .opt ok => o == .nil || (match o.cls with | some c => c != 15 && ok.contains c | none => false)
  | .brOff => match o with | .raw _ => true | _ => false
  | .brPrio => match o with | .raw f => f >>> 12 == 0 | _ => false
  | .imm12 => match o with | .imm k => k >>> 12 == 0 | _ => false

/-- The source field A, where a wide pair may stand when the row is wide-capable (R82). -/
def srcAFits (r : OpRow) (fs : FieldSpec) (e : Enc) : Bool :=
  match e.a with
  | .wide _ => r.spec.wide && e.b == .nil
  | a => opndFits fs a

/-- Check 3 of R89: the hints are legal on the opcode (R87). -/
def hintFits (r : OpRow) (e : Enc) : Bool :=
  (e.la == 0 || r.spec.laOk) && (!e.uni || r.spec.uniOk)

/-- Check 4 of R89: the type is accepted (R85). -/
def typeFits (r : OpRow) (e : Enc) : Bool :=
  r.spec.tys.contains e.ty && r.spec.tyOk e.ty e.mod e.x

/-- Check 5 of R89: no rounding code 5 to 7 (R45). -/
def roundFits (r : OpRow) (e : Enc) : Bool := !r.spec.rnd || (e.mod &&& 7) < 5

/-- Check 6 of R89: MOD and X are defined for the opcode (R86). -/
def modFits (r : OpRow) (e : Enc) : Bool := r.spec.mx e.mod e.x e.ty

/-- Check 7 of R89: operand classes (R81, R82, R83, R68). -/
def classFits (r : OpRow) (e : Enc) : Bool :=
  let (fd, fa, fb) := r.spec.dab e.mod
  opndFits fd e.d && srcAFits r fa e && opndFits fb e.b
    && !scalarDestIll r.op e && classExtra r.op e

/-- Every check of R89 that decode makes. -/
def encFits (r : OpRow) (e : Enc) : Bool :=
  hintFits r e && typeFits r e && roundFits r e && modFits r e && classFits r e

end Sys2Proof
end

