-- ==== Sys2Proof/WellFormed.lean ====
section
/-! DEFINITION. When an instruction is well formed: every field within what its encoding row accepts
(R81 to R87 and the encoding tables). Steps of the hardware and the host are well formed by their types. -/

namespace Sys2Proof

/-- A well-formed instruction. -/
def Instr.wf (i : Instr) : Bool :=
  match i.parts with
  | none => true
  | some (op, e) =>
    match opRow op with
    | none => false
    | some r => encFits r e

end Sys2Proof
end

