-- ==== Sys2Proof/Decode.lean ====
section
/-! DEFINITION. Decode of a 96-bit instruction word (R78 to R92), total on any bytes, and the encoder. -/

namespace Sys2Proof

/-- The element type of a type code (R32); codes 0x15 to 0x1F have none. -/
def tyOfCode (c : BitVec 5) : Option Ty :=
  [Ty.b8, .b16, .b32, .b64, .i8, .i16, .i32, .i64, .sm4, .sm6, .sm8, .ts8,
   .e4m3, .e5m2, .bf16, .f16, .f32, .f64, .a80f, .a80i, .sx8][c.toNat]?

/-- The code of an element type (R32). -/
def Ty.code : Ty → BitVec 5
  | .b8 => 0x00 | .b16 => 0x01 | .b32 => 0x02 | .b64 => 0x03
  | .i8 => 0x04 | .i16 => 0x05 | .i32 => 0x06 | .i64 => 0x07
  | .sm4 => 0x08 | .sm6 => 0x09 | .sm8 => 0x0A | .ts8 => 0x0B
  | .e4m3 => 0x0C | .e5m2 => 0x0D | .bf16 => 0x0E | .f16 => 0x0F
  | .f32 => 0x10 | .f64 => 0x11 | .a80f => 0x12 | .a80i => 0x13 | .sx8 => 0x14

/-- The index of a system register (R69, R165, R293). -/
def SysReg.idx : SysReg → BitVec 16
  | .lane => 0x0000 | .item => 0x0001 | .age => 0x0002 | .eos => 0x0003 | .helper => 0x0004
  | .live => 0x0005 | .cdepth => 0x0006
  | .vw k => 0x0010 + k.setWidth 16
  | .fstat => 0x0020 | .seed => 0x0021 | .zskip => 0x0022 | .place => 0x0030 | .step => 0x0031
  | .scrbase => 0x0040 | .clubase => 0x0041 | .prvbase => 0x0042 | .capbase => 0x0043
  | .wp k => 0x0050 + k.setWidth 16
  | .team => 0x0060 | .group => 0x0061 | .clu => 0x0062 | .cluteam => 0x0063 | .trange => 0x0064
  | .tvec => 0x0100 | .split => 0x0101 | .tcause => 0x0102 | .tpc => 0x0103 | .tprio => 0x0104
  | .tmask => 0x0105 | .tinfo => 0x0106

/-- Every assigned system register. -/
def allSysRegs : List SysReg :=
  [.lane, .item, .age, .eos, .helper, .live, .cdepth, .vw 0, .vw 1, .vw 2, .vw 3, .fstat, .seed, .zskip,
   .place, .step, .scrbase, .clubase, .prvbase, .capbase, .wp 0, .wp 1, .wp 2, .wp 3, .wp 4, .wp 5, .wp 6, .wp 7,
   .team, .group, .clu, .cluteam, .trange, .tvec, .split, .tcause, .tpc, .tprio, .tmask, .tinfo]

/-- The system register of an index; `none` for one that no table assigns (R69). -/
def sysRegOfIdx (i : BitVec 16) : Option SysReg := allSysRegs.find? (fun r => r.idx == i)

/-- What one 20-bit operand field names (R81): an operand, an unknown system register, or nothing that decode accepts. -/
inductive FieldRead where
  | ok (o : Opnd)
  | badSys
  | bad
  deriving DecidableEq, Repr

/-- Reads CLS and IDX of an operand field (R81). Class 0xF is read by `readAB`. -/
def readOpnd (f : BitVec 20) : FieldRead :=
  let cls := (f >>> 16).toNat
  let idx : BitVec 16 := f.setWidth 16
  if cls < 4 then .ok (.view (BitVec.ofNat 2 cls) idx)
  else if cls = 4 then if idx < 8 then .ok (.opf (idx.setWidth 3)) else .bad
  else if cls = 5 then if idx < 4 then .ok (.last (idx.setWidth 2)) else .bad
  else if cls = 6 then if idx < 64 then .ok (.scal (idx.setWidth 6)) else .bad
  else if cls = 7 then if idx < 16 then .ok (.pred (idx.setWidth 4)) else .bad
  else if cls = 8 then if idx < 16 then .ok (.port (idx.setWidth 4)) else .bad
  else if cls = 9 then match sysRegOfIdx idx with | some r => .ok (.sys r) | none => .badSys
  else if cls = 10 then .ok (.imm idx)
  else if cls = 11 then .ok (.rs idx)
  else .bad

/-- Reads an operand field by what its place may hold (R81, R83). -/
def readField (fs : FieldSpec) (f : BitVec 20) : FieldRead :=
  match fs with
  | .unused => if f = 0 then .ok .nil else .bad
  | .brOff | .brPrio => .ok (.raw f)
  | .opt _ => if f = 0 then .ok .nil else readOpnd f
  | .cls _ | .imm12 => readOpnd f

/-- An operand that stands for a field whose system register is unknown while the class checks run. -/
def FieldRead.stand : FieldRead → Option Opnd
  | .ok o => some o
  | .badSys => some (.sys .step)
  | .bad => none

/-- The fields A and B, with the wide pair of R82. -/
def readAB (fa fb : FieldSpec) (a b : BitVec 20) : FieldRead × FieldRead :=
  let branch := fa == .brPrio
  if !branch && (a >>> 16 == 0xF || b >>> 16 == 0xF) then
    if a >>> 16 == 0xF && b >>> 16 == 0xF then
      (.ok (.wide ((a.setWidth 16 : BitVec 16) ++ (b.setWidth 16 : BitVec 16))), .ok .nil)
    else (.bad, .bad)
  else (readField fa a, readField fb b)

/-- Decode of one word by the checks 1 to 8 of R89, in their order. -/
def decodeWord (w : BitVec 96) : Except DecodeCause Instr :=
  let op := (w.extractLsb' 86 10).toNat
  if op = 0x3FF then .error .fillOpcode
  else match opRow op with
  | none => .error .illegalOpcode
  | some r =>
    let la := w.extractLsb' 72 4
    let uni := w.getLsbD 71
    if w.extractLsb' 68 2 ≠ 0 ∨ (la ≠ 0 ∧ r.spec.laOk = false) ∨ (uni = true ∧ r.spec.uniOk = false) then
      .error .illegalHint
    else match tyOfCode (w.extractLsb' 76 5) with
    | none => .error .illegalType
    | some ty =>
      let m := w.extractLsb' 64 4
      let x := w.extractLsb' 0 4
      let (fd, fa, fb) := r.spec.dab m
      let rd := readField fd (w.extractLsb' 44 20)
      let rab := readAB fa fb (w.extractLsb' 24 20) (w.extractLsb' 4 20)
      let mkE (d a b : Opnd) : Enc :=
        { neg := w.getLsbD 85, grd := w.extractLsb' 81 4, ty := ty, la := la, uni := uni,
          yld := w.getLsbD 70, mod := m, d := d, a := a, b := b, x := x }
      let e0 := mkE .nil .nil .nil
      if !typeFits r e0 then .error .illegalType
      else if !roundFits r e0 then .error .illegalRounding
      else if !modFits r e0 then .error .illegalMod
      else match rd.stand, rab.1.stand, rab.2.stand with
      | some d, some a, some b =>
        if !classFits r (mkE d a b) then .error .illegalClass
        else if rd == .badSys || rab.1 == .badSys || rab.2 == .badSys then .error .illegalSysreg
        else .ok (r.ins (mkE d a b))
      | _, _, _ => .error .illegalClass

/-- A word from its bytes, byte 0 lowest (R79). -/
def wordOfBytes (bs : List Byte) : BitVec 96 :=
  BitVec.ofNat 96 (bs.foldr (fun b n => b.toNat + 256 * n) 0)

/-- The 12 bytes of a word, byte 0 first (R79). -/
def bytesOfWord (w : BitVec 96) : List Byte :=
  (List.range 12).map (fun i => w.extractLsb' (8 * i) 8)

/-- The outcome of decoding a byte list: an instruction and the bytes after it, a word that decode rejects by name,
or too few bytes for a word. -/
inductive DecodeResult where
  | ok (i : Instr) (rest : List Byte)
  | rejected (why : DecodeCause)
  | tooShort
  deriving DecidableEq, Repr

/-- Decode of the first instruction of a byte list. -/
def decodeBytes (bs : List Byte) : DecodeResult :=
  if bs.length < 12 then .tooShort
  else match decodeWord (wordOfBytes (bs.take 12)) with
  | .ok i => .ok i (bs.drop 12)
  | .error c => .rejected c

/-- The 20 bits of an operand field (R81). -/
def encodeOpnd : Opnd → BitVec 20
  | .nil => 0
  | .view k n => (k.setWidth 4 : BitVec 4) ++ n
  | .opf k => 0x4#4 ++ (k.setWidth 16 : BitVec 16)
  | .last k => 0x5#4 ++ (k.setWidth 16 : BitVec 16)
  | .scal k => 0x6#4 ++ (k.setWidth 16 : BitVec 16)
  | .pred k => 0x7#4 ++ (k.setWidth 16 : BitVec 16)
  | .port k => 0x8#4 ++ (k.setWidth 16 : BitVec 16)
  | .sys r => 0x9#4 ++ r.idx
  | .imm k => 0xA#4 ++ k
  | .rs a => 0xB#4 ++ a
  | .wide q => 0xF#4 ++ (q.extractLsb' 16 16)
  | .raw f => f

/-- The B field: the low half of a wide pair in A, or its own operand (R82). -/
def encodeB (a b : Opnd) : BitVec 20 :=
  match a with
  | .wide q => 0xF#4 ++ (q.extractLsb' 0 16)
  | _ => encodeOpnd b

/-- The word of an opcode and its fields, laid out as R78 gives. -/
def encodeParts (op : Nat) (e : Enc) : BitVec 96 :=
  BitVec.ofNat 10 op ++ BitVec.ofBool e.neg ++ e.grd ++ e.ty.code ++ e.la ++ BitVec.ofBool e.uni ++ BitVec.ofBool e.yld
    ++ 0#2 ++ e.mod ++ encodeOpnd e.d ++ encodeOpnd e.a ++ encodeB e.a e.b ++ e.x

/-- The word of an instruction; `none` for a step that has no encoding. -/
def encode (i : Instr) : Option (BitVec 96) := i.parts.map (fun p => encodeParts p.1 p.2)

/-- The instruction that decode reads from a word given as a number, laid out as the hardware stores it. -/
def decodeTableWord (nbits w : Nat) : Option Instr :=
  if nbits ≤ 96 then
    match decodeBytes (bytesOfWord (BitVec.ofNat 96 w)) with
    | .ok i _ => some i
    | _ => none
  else none

end Sys2Proof
end

