-- ==== Sys2Proof/Machine/State.lean ====
section
/-! DEFINITION. The state of the module as plain data, the reasons a step stops, and the machine right after reset. -/

namespace Sys2Proof.Machine

/-- Why a step stops with a fault. -/
inductive Fault where
  /-- Raised by an encoded instruction when `State.cur` names no group that can issue: the model was asked to run an
  instruction for nobody. The hardware has no such situation. Safe: the model stops. -/
  | noGroup
  deriving DecidableEq, Repr

/-- Why a step is refused. -/
inductive Refusal where
  /-- Raised by an arm of `exec` that has no meaning yet. Safe: the model stops. -/
  | notModelled (mnemonic : String)
  deriving DecidableEq, Repr

/-- A 64-bit register value with one poison flag per 32-bit half (R66): bit 0 the low half. -/
structure PW where
  v : Word64 := 0
  p : BitVec 2 := 0
  deriving DecidableEq, Repr

/-- A 32-bit word of register space or scratchpad with its poison flag; the zero flag is "the word is 0" (R61, R73). -/
structure WP where
  v : Word32 := 0
  p : Bool := false
  deriving DecidableEq, Repr

/-- A last-result file (R67): entries by lane. -/
structure LFile where
  l0 : Cells PW := []
  l1 : Cells PW := []
  l2 : Cells PW := []
  l3 : Cells PW := []
  deriving DecidableEq, Repr

/-- A frontier entry (R153), and an entry of a return stack when the mask is unused. -/
structure Ent where
  pc : BitVec 24
  prio : BitVec 12
  mask : Mask
  deriving DecidableEq, Repr

/-- One entry of a return stack (R157). -/
structure Ret where
  pc : BitVec 24
  prio : BitVec 12
  deriving DecidableEq, Repr

/-- The states of a lane (R310). -/
inductive LaneSt where
  | empty | live | helper
  deriving DecidableEq, Repr

/-- A lane record (R321). Return stacks are lists, the top entry first. `bout` has the numbers whose most recent batch is outstanding, `bser`
the serial of the most recent batch of each number, and `bold` the serials of outstanding batches whose number has been used again
(R205, R206). `pdie` and `pmod` count the PBARs of each scope that
the lane has issued (R257): a copy carries the counts of its issue. -/
structure Lane where
  st : LaneSt := .empty
  item : Word32 := 0
  age : Word32 := 0
  rstate : Word32 := 0
  rstk : List Ret := []
  hstk : List Ret := []
  bctr : BitVec 4 := 0
  bout : BitVec 16 := 0
  bfail : BitVec 16 := 0
  bser : Cells Nat := []
  bold : List Nat := []
  psf : Bool := false
  openN : Nat := 0
  openFail : Bool := false
  pdie : Nat := 0
  pmod : Nat := 0
  deriving DecidableEq, Repr

/-- The trap registers (R165). -/
structure TrapRegs where
  cause : BitVec 9 := 0
  pc : BitVec 24 := 0
  prio : BitVec 12 := 0
  mask : Mask := 0
  info : Word64 := 0
  deriving DecidableEq, Repr

/-- The states of a group (R305). -/
inductive GState where
  | active | pending | parked | saved | draining | frozen | stopped | ended
  deriving DecidableEq, Repr

/-- The power states of a granule of the register file (R74). -/
inductive GranSt where
  | awake | drowsy | gated
  deriving DecidableEq, Repr

/-- One write of a result into register space or a side file (R61, R66). -/
inductive RWrite where
  | rs (a n v : Nat) (p : Bool)
  | opf (k lane : Nat) (x : PW)
  | scal (k : Nat) (x : PW)
  deriving DecidableEq, Repr

/-- A long-latency instruction whose result is still pending (R88): the rest of its window, the writes it will make,
the last-result entry it will fill, whether its access missed the L1, and whether it is a load that missed the L2 (R307, R312). -/
structure Pend where
  window : Nat
  writes : List RWrite
  lvals : Cells PW
  lpos : Option Nat
  missL1 : Bool
  missL2 : Bool
  deriving DecidableEq, Repr

/-- A bound stream port (R209 to R216): descriptor, its poison, step counters per lane, and the elements that the
engine has read ahead: (lane, step, value, poison). -/
structure Port where
  desc : List Byte
  dpois : Bool
  steps : Cells Nat
  ahead : List (Nat × Nat × Nat × Bool)
  deriving DecidableEq, Repr

/-- What a group waits for when it has issued an instruction that waits in the machine: a barrier's phase, with the
predicate to write, its lanes, and the result once the wait has ended while the group could not resume (R254, R325, R327);
a write to the line (or the 128-byte block of a team's scratchpad) of an address, with the scalar and the access of the
final read (its lanes, MOD and scope), the deadline, and the one die whose writes count, if only one does (R190, R330); acknowledgement of an
invalidation (R171); a template's visibility (R199). -/
inductive WaitKind where
  | barrier (bar : Nat) (pd : BitVec 4) (act : Mask) (result : Option Bool)
  | mwait (sd : BitVec 6) (va : Nat) (width : Nat) (act : Mask) (mod : BitVec 4) (scope : Nat) (deadline : Nat) (scr : Option Nat)
      (line : Nat) (die : Option Nat) (woken : Bool)
  | tlbi
  | template
  deriving DecidableEq, Repr

/-- A wait, and the lanes that move on from its PC when it ends (R153). -/
structure Wait where
  kind : WaitKind
  m : Mask
  pc : BitVec 24
  prio : BitVec 12
  deriving DecidableEq, Repr

/-- The watchdog of a group (R429 to R431). -/
structure Watch where
  armed : Bool := false
  w : Nat := 0
  interval : Nat := 0
  second : Option Nat := none
  expired : Bool := false
  dead : Nat := 0
  deriving DecidableEq, Repr

/-- A cause that waits for delivery (R316), with what its record names: an address, a port with the step counter, and an item
(R242). -/
structure Async where
  cause : BitVec 9
  info : Word64 := 0
  addr : Nat := 0
  stream : Option (Nat × Nat) := none
  item : Nat := 0
  deriving DecidableEq, Repr

/-- The key of a wait-table registration (R366, R367): a page of an address space, a fault-record token, or the overflow entry. -/
inductive ParkKey where
  | page (asid : BitVec 16) (vpage : Nat)
  | token (t : Nat)
  | overflow
  deriving DecidableEq, Repr

/-- A sketch context of a group (R312, R313): its own window, files and frontier, and the parent's `%item` and `%age` at spawn. -/
structure Sketch where
  ids : Cells (Word32 × Word32) := []
  win : Cells WP := []
  ofile : Cells PW := []
  lf : LFile := {}
  scal : Cells PW := []
  preds : Cells Mask := []
  rstates : Cells Word32 := []
  rstks : Cells (List Ret) := []
  frontier : List Ent := []
  fstat : Word64 := 0
  count : Nat := 0
  deriving DecidableEq, Repr

/-- The register window and the side files of a group (R59 to R67). `gran` has the power states of its granules and `touch` the cycle of
each one's last access since the group left the active set (R74). -/
structure RegFile where
  wbytes : Nat := 4096
  win : Cells WP := []
  gran : Cells GranSt := []
  touch : Cells Nat := []
  vw : Cells Word64 := []
  ofile : Cells PW := []
  lf : LFile := {}
  lsave : LFile := {}
  scal : Cells PW := []
  preds : Cells Mask := []
  deriving DecidableEq, Repr

/-- The system registers of a group (R69, R165). -/
structure SysRegs where
  fstat : Word64 := 0
  seed : Word32 := 0
  zskip : Word64 := 0
  eos : Mask := 0
  tvec : Word64 := 0
  trap : TrapRegs := {}
  deriving DecidableEq, Repr

/-- A matrix operation (R218, R320): its kind (1 MLOOP, 2 MSTEP, 3 MZERO, 4 MACC, 5 MCVT), type, mode and reservation; the
steps that remain; its first scale block and the elements along K done since it; its ports; MCVT's fields; the addresses of
the 32 lanes and their increments; the lanes of an MCVT; its instruction index (R432); whether a cause has suspended it and whether the unit runs it. -/
structure MatOp where
  id : Nat
  g : Nat
  kind : Nat
  ty : Ty := .a80f
  b16 : Bool := false
  res : Nat := 0
  steps : Nat := 1
  block : Nat := 0
  kdone : Nat := 0
  portA : Option Nat := none
  portB : Option Nat := none
  cMod : BitVec 4 := 0
  cX : BitVec 4 := 0
  cTy : Ty := .b8
  adrD : List Nat := []
  adrA : List Nat := []
  adrB : List Nat := []
  incA : Int := 0
  incB : Int := 0
  acts : Mask := 0
  real : Mask := 0
  pc : Nat := 0
  suspended : Bool := false
  running : Bool := false
  deriving DecidableEq, Repr

/-- The pending destination of an MCVT (R88, R234): its operation, the rest of its window, and the bytes it will write. -/
structure CvtDest where
  op : Nat
  window : Nat
  dests : List (Nat × Nat)
  deriving DecidableEq, Repr

/-- The bits of `%fstat` and `%eos` that the matrix unit has set in a cycle: a write of 1 to them in that cycle leaves them set (R4, R170). -/
structure HwBits where
  cycle : Nat
  fstat : Word64 := 0
  eos : Word32 := 0
  deriving DecidableEq, Repr

/-- A group (R304 to R322). `mats` holds its matrix operations while it is parked or saved (R244), `frameAt` is the address of
its frame while one is written, `badFrame` is a frame that the host has rewritten so that it fails the checks of R322,
`engineWait` says that its ports wait for stencil engines after a restoration (R216), `restFrom` is the cycle in which it last was not in
the active set (R74), and `issueFrom` the cycle from which it may issue after a promotion (R307). `held` says that the instruction in hand
waits, and `brief` that what it waits for is no long-latency wait (R307). `hwSet` keeps the bits that the matrix unit has set last (R4). -/
structure Group where
  ctx : Nat
  launch : Nat
  team : Nat
  num : Nat
  core : Nat
  slot : Option Nat := none
  seniority : Nat := 0
  st : GState := .pending
  savedFrom : GState := .pending
  handler : Bool := false
  rf : RegFile := {}
  sr : SysRegs := {}
  lanes : Cells Lane := []
  frontier : List Ent := []
  hfrontier : List Ent := []
  ports : Cells (Option Port) := []
  pend : List Pend := []
  cvts : List CvtDest := []
  mats : List MatOp := []
  wait : Option Wait := none
  waitHeld : Option Wait := none
  held : Bool := false
  brief : Bool := false
  hwSet : Option HwBits := none
  sleepEnd : Option Nat := none
  yieldEnd : Option Nat := none
  wd : Watch := {}
  asyncMat : Option Async := none
  asyncWd : Option Async := none
  parkKeys : List ParkKey := []
  sketch : Option Sketch := none
  capSeq : Nat := 0
  frameAt : Option Nat := none
  badFrame : Option (List Byte) := none
  engineWait : Bool := false
  restFrom : Nat := 0
  issueFrom : Nat := 0
  deriving DecidableEq, Repr

/-- A kernel header after the checks of R99. -/
structure Hdr where
  codeBase : Word64 := 0
  codeLen : Nat := 1
  entry : BitVec 24 := 0
  entryPrio : BitVec 12 := 0
  refill : BitVec 24 := 0
  refPrio : BitVec 12 := 0
  skp : Bool := false
  skEntry : BitVec 24 := 0
  sks : List (BitVec 6) := []
  skv : List (BitVec 2 × BitVec 12) := []
  wbytes : Nat := 4096
  scratch : Nat := 0
  bars : Nat := 0
  obuf : Nat := 0
  views : Cells Word64 := []
  deriving DecidableEq, Repr

/-- The state word of a named barrier (R251): AUX, PH, EXP, CNT. The masks of waiting groups (R326) follow from the groups'
waits. -/
structure Bar where
  aux : Word32 := 0
  ph : Bool := false
  exp : Nat := 0
  cnt : Nat := 0
  deriving DecidableEq, Repr

/-- The states of a team. -/
inductive TeamSt where
  | waiting | running | saved | done
  deriving DecidableEq, Repr

/-- A team (R290, R292): its items, its scratchpad, its named barriers with the first physical one (R323), its operand-buffer
share, and the number of the group of it that was promoted last, 15 before any was (R307). -/
structure Team where
  launch : Nat
  cluster : Nat
  num : Nat
  core : Nat := 0
  st : TeamSt := .waiting
  first : Nat := 0
  count : Nat := 0
  next : Nat := 0
  groupsN : Nat := 1
  broken : Bool := false
  startCycle : Nat := 0
  scr : Cells WP := []
  bars : Cells Bar := []
  barBase : Nat := 0
  ob : Cells WP := []
  obres : Cells Word64 := []
  promoted : Nat := 15
  deriving DecidableEq, Repr

/-- A context descriptor after the checks of R267 (R266). -/
structure CtxDesc where
  asid : BitVec 16 := 0
  dbg : Bool := false
  ptroot : Nat := 0
  vdtb : Nat := 0
  vdtlen : Nat := 0
  scrb : Nat := 0
  club : Nat := 0
  prvb : Nat := 0
  capb : Nat := 0
  tvec : Word64 := 0
  split : Word64 := 0
  tplb : Nat := 0
  errqb : Nat := 0
  errqn : Nat := 64
  saveb : Nat := 0
  savesz : Nat := 1
  step0 : Word64 := 0
  deriving DecidableEq, Repr

/-- The states of a context (R270). -/
inductive CtxSt where
  | free | idle | active | saving | saved | faulted | draining
  deriving DecidableEq, Repr

/-- An error queue: a ring in device memory (R422). -/
structure ErrQ where
  head : Nat := 0
  count : Nat := 0
  ovf : Bool := false
  deriving DecidableEq, Repr

/-- What the teams of a context that is being taken down still keep of a core until the last step (R275): slots, window bytes, scratchpad and
operand-buffer KiB, stencil engines, and the barriers of each team from a first one on. -/
structure HeldRoom where
  core : Nat
  slots : Nat := 0
  window : Nat := 0
  scratch : Nat := 0
  obuf : Nat := 0
  engines : Nat := 0
  bars : List (Nat × Nat) := []
  deriving DecidableEq, Repr

/-- A context (R265 to R278). `stepLaunch` is the launch whose STEPADV has passed a boundary of the step group (R414), `restoring` says
that saved clusters come back before any dispatch (R270), `saveShort` that the record of a save area too small is written (R271), `held`
what its teardown has still to free (R275). -/
structure Ctx where
  st : CtxSt := .free
  desc : CtxDesc := {}
  descPa : Nat := 0
  step : Word64 := 0
  split : BitVec 2 := 0
  fcause : BitVec 9 := 0
  pcause : BitVec 9 := 0
  errq : ErrQ := {}
  freePages : List Nat := []
  faultAfterSave : Bool := false
  tplWritten : List Nat := []
  stepGroup : Option Nat := none
  stepLaunch : Option Nat := none
  restoring : Bool := false
  saveShort : Bool := false
  held : List HeldRoom := []
  deriving DecidableEq, Repr

/-- A cached translation (R360): the unit and its place, the address space, the level and tag, and the entry. -/
structure TlbEnt where
  unit : Nat
  place : Nat
  asid : BitVec 16
  level : Nat
  tag : Nat
  pte : Word64
  deriving DecidableEq, Repr

/-- An agent registered under a wait-table entry (R363, R366). -/
inductive Waiter where
  | group (g : Nat)
  | chan (core : Nat) (c : Nat)
  deriving DecidableEq, Repr

/-- An entry of a die's wait table and its number there: 0 to 1,022, the overflow entry 1,023 (R366). -/
structure WaitEnt where
  die : Nat
  idx : Nat := 1023
  key : ParkKey
  who : List Waiter
  deriving DecidableEq, Repr

/-- A fault record (R365): whether it is open for deduplication (R364), whether the page service has still to take it, its slot
in the fault queue (none while it waits in its die's buffer), its die, and whether the firmware serves it: the mode when it was
written (R435). -/
structure FaultRec where
  token : Nat
  key : ParkKey
  isOpen : Bool
  queued : Bool
  slot : Option Nat
  die : Nat
  bytes : List Byte
  va : Nat
  level : Nat
  ctx : Nat
  asid : BitVec 16
  dieMask : Nat
  waiters : Nat
  hw : Bool
  deriving DecidableEq, Repr

/-- A write request that waits for the end of its coherence point's merge window (R341): the requester's number (0 the host, 1 the
command processor, 2 the etcher, 3 + g core g), the agent whose accesses it belongs to, its bytes with their poison at a physical
address or at an offset of a team's scratchpad, whether it gathers the line's tokens (R344), whether the core's L1 keeps the line
(R86) or the L2 evicts it first, whether its agent has issued a fence or a release since (R336, R337), the cycle before which no window
grants it: that of a request that was refused and is sent again; and for one that crosses the fabric its sequence number and how often it
came back as path-lost (R398, R400). -/
structure MergeReq where
  who : Nat
  agent : Nat
  scr : Option Nat := none
  pa : Nat
  bytes : List Byte
  pois : Bool
  tokens : Bool := true
  l1 : Bool := false
  first : Bool := false
  fenced : Bool := false
  due : Nat := 0
  seq : Option Nat := none
  returns : Nat := 0
  deriving DecidableEq, Repr

/-- A copy of a line that holds data of its own: the 128 bytes as a number, the COH of the page it was fetched by, the mask of its dirty bytes, and the mask of its poisoned
sectors (R17, R348). -/
structure CLine where
  v : Nat
  coh : Nat := 1
  dirty : Nat := 0
  pois : Nat := 0
  deriving DecidableEq, Repr

/-- What the caches hold of a line (R344 to R348): tokens per die, who holds the owner token, dirtiness, the cores whose L1 holds it, the
dies that the directory marks, the dies whose L2 evicts it first (R86); for a page that is not hardware coherent the copies of the dies'
L2s and of the cores' L1s. -/
structure LineSt where
  toks : Cells Nat := []
  owner : Option Nat := none
  dirty : Bool := false
  l1 : List Nat := []
  dir : List Nat := []
  first : List Nat := []
  l2c : List (Nat × CLine) := []
  l1c : List (Nat × CLine) := []
  deriving DecidableEq, Repr

/-- A request for tokens that has failed (R347): how often, whether it is persistent, the cycle of its last failure, and the agents whose
reads or atomics wait for it; writes wait as requests of the merge windows. -/
structure TokReq where
  line : Nat
  die : Nat
  fails : Nat
  persistent : Bool
  since : Nat := 0
  readers : List Nat := []
  deriving DecidableEq, Repr

/-- The physical-fault inputs that no instruction sets: the bits that a fault inverts in the next result of a lane's FMA pipe and in its
shadow unit's result (`ShadowRes.struck`), and the critical entry whose next re-reads disagree. They stand for events of the physical
world (R57, R360). -/
structure Phys where
  pipe : Cells (Nat × Nat) := []
  critBad : Option Nat := none
  deriving DecidableEq, Repr

/-- Where an error of the physical world strikes a structure that R419 protects: a word of a window, a scratchpad or an operand buffer;
a half of a register that parity guards; a sector that an L1, an L2 or a write-back queue holds; a 512-byte block of the tier; a sector of
HBM that a read finds wrong, or a stripe's parity that a write does (R376, R377); a
group's frontier, return stacks and lane records; a team's barrier state; a cached translation; the hub's own state, by the unit
that R423 numbers (R426); or a unit: a lane's FMA pipe and its shadow unit with the bits inverted in their next results (R57), and the
next re-reads of the critical entry at an address (R360). -/
inductive Site where
  | window (g word : Nat)
  | scratchpad (team word : Nat)
  | operandBuffer (team word : Nat)
  | operandFile (g entry half : Nat)
  | lastResult (g entry lane half : Nat)
  | scalar (g entry half : Nat)
  | l1 (core sector : Nat)
  | l2 (die sector : Nat)
  | writeBack (die place : Nat)
  | tier (block : Nat)
  | hbm (sector : Nat)
  | hbmParity (stack unit stripe : Nat)
  | control (g : Nat)
  | barriers (team : Nat)
  | tlb (place : Nat)
  | walkCache (place : Nat)
  | icache (core place : Nat)
  | hub (unit : Nat)
  | pipe (lane main shadow : Nat)
  | critRead (entry : Nat)
  deriving DecidableEq, Repr

/-- What happens next (log 1): a group issues its chosen instruction, a step of the table happens, cycles pass, the
command processor reads its ring, an error of a storage structure is found, which the structure can correct or not (R419), a die's snoop filter
evicts an entry (R345), or a flit to another module comes back as path-lost (R400). -/
inductive Agenda where
  | issue (g : Nat)
  | sketch (g : Nat)
  | event (i : Instr)
  | tick (n : Nat)
  | command
  | upset (site : Site) (corrected : Bool)
  | snoop (die line : Nat)
  | returned (dst seq : Nat)
  deriving DecidableEq, Repr

/-- A copy in a channel (R193 to R205): who issued it, the template as it stood at issue, the parameter's shifts, the PBAR
counts of its lane, and the serial of the batch it belongs to (none while it is open). `pos` is the next position, `rows` the selected rows
done and `cur` the row whose bit has been read (gather mode), `snap` the scratchpad as it stood at the start (R197), `fail`
the cause and address that failed it, and `pending` the pieces of a position that waits for acceptance (R383): address, bytes, poison. -/
structure Copy where
  id : Nat
  g : Nat
  lane : Nat
  ctx : Nat
  team : Nat
  num : Nat
  tplIdx : Nat
  tpl : List Byte
  sshift : Int
  dshift : Int
  pdie : Nat := 0
  pmod : Nat := 0
  batch : Option Nat := none
  started : Bool := false
  pos : Nat := 0
  cur : Option Nat := none
  rows : Nat := 0
  fail : Option (BitVec 9 × Nat) := none
  waiting : Bool := false
  snap : Option (Cells WP) := none
  pending : List (Nat × List Byte × Bool) := []
  deriving DecidableEq, Repr

/-- A copy channel (R193, R203): its queue with the copy in service first, and its write-pointer fields. -/
structure Chan where
  q : List Copy := []
  serial : BitVec 8 := 0
  len : BitVec 48 := 0
  idle : Bool := true
  deriving DecidableEq, Repr

/-- A core position (R13, R16): whether its fuse enables it, whether the self-test of this bring-up has failed it (R440), its channels, matrix queue, poison-origin register (address or offset, slot,
and the group that received the delivery, R421), counters, instruction cache (address space, virtual address of a
block of 32 words, and the words it holds by their addresses, R80), the group number that each issue port served last (R308), and the
times of check failures, of uncorrectable words and of corrected ones (R426). -/
structure Core where
  enabled : Bool := true
  selfFail : Bool := false
  retired : Bool := false
  chans : Cells Chan := []
  mq : List MatOp := []
  porg : Option (Nat × Nat × Nat) := none
  pmc : Cells Word64 := []
  checkFails : List Nat := []
  sramFails : List Nat := []
  sramFixed : List Nat := []
  sketchSlots : Nat := 2
  icache : List (BitVec 16 × Nat × List (Nat × List Byte)) := []
  lastIssued : Cells Nat := []
  deriving DecidableEq, Repr

/-- The registers of the control window (R438, R439), and the cycle in which THSTAT.TRIP was set last (R4). -/
structure HostRegs where
  mstat : Word64 := 0
  fwaddr : Word64 := 0
  fwlen : Word64 := 0
  icbase : Word64 := 0
  ictail : BitVec 16 := 0
  ichead : BitVec 16 := 0
  ccbase : Word64 := 0
  cchead : BitVec 16 := 0
  cctail : BitVec 16 := 0
  qtbase : Word64 := 0
  fqbase : Word64 := 0
  eqbase : Word64 := 0
  mwbase : Word64 := 0
  fabmode : Bool := false
  scrubper : Word64 := 24
  thstat : Word64 := 0x0514000000000000
  tripAt : Option Nat := none
  pwrlim : Word64 := 2800
  hashm0 : Word64 := 0x0000000200000001
  hashm1 : Word64 := 0x0000000000000004
  egrp0 : Word64 := 0
  egrp1 : Word64 := 0
  etcfg : Word64 := 0
  protcfg : Word64 := 0xFFF
  msplit : Word64 := 0
  deriving DecidableEq, Repr

/-- An entry of the completion ring before it is written (R441): tag, status, result. -/
structure Compl where
  tag : BitVec 16
  status : BitVec 16
  result : Word64
  deriving DecidableEq, Repr

/-- The states of a launch (R282, R289). -/
inductive LaunchSt where
  | waiting | placing | running | complete
  deriving DecidableEq, Repr

/-- A launch (R282, R289): its record, the clusters still to place with their virtual dies in the order of R295, and the
boundary of its STEPADV, if one executed (R414); its counter, if it was a task (R285). `absent` lists the clusters whose first wait on a rejected virtual die has been
recorded (R30). -/
structure Launch where
  ctx : Nat
  queue : Option Nat
  hdr : Hdr
  st : LaunchSt := .waiting
  seed : Word32 := 0
  prvb : Nat := 0
  lrec : List Byte := []
  prio : Nat := 0
  toPlace : List (Nat × Nat) := []
  boundary : Option Nat := none
  absent : List Nat := []
  ctr : Option Nat := none
  deriving DecidableEq, Repr

/-- A task (R285): its queue, its counter, and its record. One that a recovery starts again has no counter where its record stood in the ring
(R414). -/
structure Task where
  queue : Nat
  ctr : Option Nat
  lrec : List Byte
  deriving DecidableEq, Repr

/-- A dependence counter (R284). -/
structure Ctr where
  owner : Option Nat := none
  value : Nat := 0
  task : Option Task := none
  deriving DecidableEq, Repr

/-- The states of a queue (R281). -/
inductive QState where
  | disabled | enabled | error
  deriving DecidableEq, Repr

/-- A queue as the dispatcher holds it (R279 to R286): the fields of its entry, its fired list, the record at its head
once it has passed checks 1 and 2, and its previous launch. -/
structure Queue where
  st : QState := .disabled
  ctx : Nat := 0
  prio : Nat := 0
  logn : Nat := 4
  dev : Bool := false
  ring : Nat := 0
  head : BitVec 16 := 0
  tail : BitVec 16 := 0
  ecause : BitVec 9 := 0
  esrc : Bool := false
  eidx : BitVec 16 := 0
  fired : List Task := []
  headRec : Option (List Byte) := none
  prev : Option Nat := none
  deriving DecidableEq, Repr

/-- A context record of the manifest (R413, R414): the boundary, `%step` after it, and the context's queues and counters with
their tasks, the launches that were running, which are recorded as not started, with the descriptor and the step group that a recovery needs. The manual does not give its layout within the 64 KiB; it
is held as data (log 40). -/
structure CtxRecord where
  ctx : Nat
  boundary : Nat
  step : Word64
  queues : List (Nat × Queue)
  ctrs : List (Nat × Ctr)
  undone : List Task := []
  desc : CtxDesc
  descPa : Nat
  group : Nat
  members : List (Nat × Nat)
  deriving DecidableEq, Repr

/-- The states of a link (R386), in code order. -/
inductive LinkSt where
  | down | train | full | half | turning | fwdonly | reset
  deriving DecidableEq, Repr

/-- The turn under way on a link (R391): its bundle, its direction, whether it is in its dead time, and the time (in parts of
a tick, R1) at which the dead time ends. -/
structure Turn where
  bundle : Nat
  toSpoke : Bool
  dead : Bool
  due : Nat
  deriving DecidableEq, Repr

/-- A link (R385 to R395). The lanes of a fabric port are those of two sets: 0 outward, 1 inward (log 99). `home` is the state that turning returns to, `out` the bundles out of service, `bad` the failed
lanes (bundle, lane), `spoke` the bundles toward the spoke, `dwell` the time at which each bundle's dwell ends, and `crc` the
CRC failures of the last millisecond (timebase, bundle, lane). `reported` is the result of an attempt that the host is asked about
(whether enough lanes trained for HALF), `failing` says that a lane failed during the turn under way (R395). -/
structure Link where
  st : LinkSt := .reset
  home : LinkSt := .full
  attempt : Nat := 0
  errs : Nat := 0
  owner : Option Nat := none
  out : List Nat := []
  bad : List (Nat × Nat) := []
  spoke : Nat := 0
  target : Nat := 0
  turn : Option Turn := none
  dwell : Cells Nat := []
  crc : List (Nat × Nat × Nat) := []
  reported : Option Bool := none
  failing : Bool := false
  deriving DecidableEq, Repr

/-- A request to another module that its sender holds (R398, R400): its sequence number, the module it goes to, and the agent that
sent it. -/
structure FabReq where
  seq : Nat
  dst : Nat
  who : Nat
  deriving DecidableEq, Repr

/-- A response that a home agent keeps (R400): source and home module, sequence number, and the timebase when it was kept. -/
structure Kept where
  src : Nat
  dst : Nat
  seq : Nat
  time : Nat
  deriving DecidableEq, Repr

/-- The forward-only state of a module that must reset (R399): the time at which it began, who has confirmed, and whether the reset
that follows is a thermal trip. -/
structure Fwd where
  since : Nat
  confirmed : List Nat := []
  trip : Bool := false
  deriving DecidableEq, Repr

/-- The self-refresh states of a pseudo-channel (R380). -/
inductive SrefSt where
  | active | entering | sref | exiting
  deriving DecidableEq, Repr

/-- A pseudo-channel: its state, the cycle of its last request, the cycle in which an exit ends or an entry began, and whether a request waits
for the end of an entry (R380). -/
structure Sref where
  st : SrefSt := .active
  last : Nat := 0
  due : Nat := 0
  want : Bool := false
  deriving DecidableEq, Repr

/-- An entry of a write-back queue (R383): a physical address, bytes, poison; or a parity delta (R402): the place in the parity partition and
the bytes that are added to it. -/
structure WbEnt where
  pa : Nat
  bytes : List Byte
  pois : Bool
  par : Bool := false
  deriving DecidableEq, Repr

/-- The supply and the hold-up store (R404): whether power has failed, whether the store is full, the entries each memory die drained
on hold-up energy, and whether they are still to be reported. -/
structure Power where
  failed : Bool := false
  full : Bool := true
  drained : Cells Nat := []
  report : Bool := false
  deriving DecidableEq, Repr

/-- What the endpoint returned for the last read through MW (R343, R420, R437): nothing for an Unsupported Request. -/
structure MwReply where
  bytes : Option (List Byte)
  pois : Bool
  deriving DecidableEq, Repr

/-- A step group (R407, R408): its members (module, context), the first boundary, the boundary that each member has committed last, and
the complete step. -/
structure StepGroup where
  members : List (Nat × Nat) := []
  base : Nat := 0
  commits : Cells (Option Nat) := []
  complete : Option Nat := none
  deriving DecidableEq, Repr

/-- A leaf in a capture set (R409): the address of its entry, the virtual address it maps, its level and its first physical page. -/
structure Marked where
  entry : Nat
  va : Nat
  level : Nat
  page : Nat
  deriving DecidableEq, Repr

/-- What the etcher does for a context (R409 to R414): the boundary whose capture set is marked, the marked leaves, the physical pages
still to copy in ascending order, whether the boundary is still to be committed, the boundary whose capture has been accepted,
whether a STEPADV waits, and whether the context record is taken. -/
structure Etch where
  boundary : Nat := 0
  leaves : List Marked := []
  pages : List Nat := []
  busy : Bool := false
  accepted : Option Nat := none
  wanted : Bool := false
  recTaken : Bool := false
  deriving DecidableEq, Repr

/-- Module recovery (R415 to R417): the stage in progress (0 idle) and whether its work is done, the logical modules lost, the physical
spare admitted for each, the timebase of detection, the modules that this one suspects, the last beacon of each member, the
membership recorded, whether the host has released the next stage, whether the whole domain is being restored, and the
stripes rebuilt, each with its lost module. -/
structure Recov where
  stage : Nat := 0
  done : Bool := false
  lost : List Nat := []
  spares : List (Nat × Nat) := []
  since : Nat := 0
  suspect : List Nat := []
  beacons : Cells Nat := []
  members : List Nat := []
  released : Bool := false
  domain : Bool := false
  rebuilt : List (Nat × Nat) := []
  deriving DecidableEq, Repr

/-- The states of a cluster. -/
inductive ClusterSt where
  | waiting | resident | saved | done
  deriving DecidableEq, Repr

/-- A cluster (R31, R289): its logical number, virtual and physical die, and its teams; where it is saved; and whether its first
wait on a rejected virtual die has been recorded (R30). -/
structure Cluster where
  launch : Nat
  num : Nat
  vdie : Nat
  die : Nat := 0
  teams : List Nat := []
  st : ClusterSt := .waiting
  saveAt : Option Nat := none
  saveLen : Nat := 0
  absent : Bool := false
  deriving DecidableEq, Repr

/-- What an Idneit CAPSET names (R432): a launch record by queue and ring index, or by counter; the teams; the log buffer
and how much of it is written; the launch once it has started; and whether the log is full. -/
structure Cap where
  queue : Option Nat := none
  index : Nat := 0
  first : Nat := 0
  count : Nat := 1
  base : Nat := 0
  size : Nat := 0
  pos : Nat := 0
  launch : Option Nat := none
  full : Bool := false
  deriving DecidableEq, Repr

/-- A replay under way (R433): the team that runs it, the log, the command's tag, and the difference that ended it. -/
structure Replay where
  team : Nat
  base : Nat
  size : Nat
  tag : BitVec 16
  differs : Option Nat := none
  deriving DecidableEq, Repr

/-- The whole module (INVENTORY.md, '## State'). `issued` lists what has issued in the cycle under way: core, issue port, group (R308). -/
structure State where
  agenda : List Agenda
  issued : List (Nat × Nat × Nat)
  cur : Nat
  freeCtr : Nat
  nextId : Nat
  cycle : Nat
  timebase : Word64
  subTick : Nat
  modnum : BitVec 9
  phys : Phys
  mem : List Host.Cell
  sectorPoison : List Nat
  parPoison : List (Nat × Nat × Nat)
  advTime : Option Nat
  mergeQ : List MergeReq
  served : List (Nat × Nat × Nat)
  lines : Cells LineSt
  tokReqs : List TokReq
  tlbs : List TlbEnt
  wcache : List TlbEnt
  waits : List WaitEnt
  faults : List FaultRec
  token : Nat
  faultTail : Nat
  groups : List (Nat × Group)
  teams : List (Nat × Team)
  clusters : List (Nat × Cluster)
  launches : List (Nat × Launch)
  ctxs : Cells Ctx
  cores : Cells Core
  host : HostRegs
  hostMem : Cells Byte
  mwReply : Option MwReply
  evbuf : List Compl
  evLost : Bool
  msix : List Nat
  modErrq : ErrQ
  errCounts : Cells Nat
  corrTimes : List (Nat × Nat × Nat)
  caps : List Cap
  replays : List Replay
  queues : Cells Queue
  ctrs : Cells Ctr
  lastServed : Cells (Option Nat)
  links : Cells Link
  routes : Cells Word32
  withdrawn : List Nat
  fwd : Option Fwd
  fabric : List FabReq
  fabSeq : Cells Nat
  kept : List Kept
  lmap : List (Nat × Nat)
  srefs : Cells Sref
  retries : Cells (Option Nat)
  chanFails : Cells Nat
  chanLost : List Nat
  scrubPos : Nat
  scrubBack : List (Nat × Bool)
  splitDue : Nat
  stepDue : Nat
  bootErrs : List (Nat × BitVec 9)
  wbqs : Cells (List WbEnt)
  parity : Cells Byte
  manifest : Cells Byte
  records : List CtxRecord
  power : Power
  stepGroups : Cells StepGroup
  etches : Cells Etch
  recov : Recov
  resyncSeq : BitVec 16
  deriving DecidableEq, Repr

/-- The cores at reset: on each compute die, positions 60 to 63 are disabled (R13; the fuse mask is log 7). -/
def State.resetCores : Cells Core :=
  (List.range 8).flatMap (fun d => (List.range 4).map (fun i => (64 * d + 60 + i, { enabled := false })))

/-- The machine right after reset: bring-up state RESET, no context, no group, memory with nothing listed (INVENTORY.md,
'## State'; the values that the manual does not give are log 4). -/
def State.reset : State where
  agenda := []
  issued := []
  cur := 0
  freeCtr := 0
  nextId := 1
  cycle := 0
  timebase := 0
  subTick := 0
  modnum := 0
  phys := {}
  mem := []
  sectorPoison := []
  parPoison := []
  advTime := none
  mergeQ := []
  served := []
  lines := []
  tokReqs := []
  tlbs := []
  wcache := []
  waits := []
  faults := []
  token := 1
  faultTail := 0
  groups := []
  teams := []
  clusters := []
  launches := []
  ctxs := []
  cores := State.resetCores
  host := {}
  hostMem := []
  mwReply := none
  evbuf := []
  evLost := false
  msix := []
  modErrq := {}
  errCounts := []
  corrTimes := []
  caps := []
  replays := []
  queues := []
  ctrs := []
  lastServed := []
  links := []
  routes := []
  withdrawn := []
  fwd := none
  fabric := []
  fabSeq := []
  kept := []
  lmap := []
  srefs := []
  retries := []
  chanFails := []
  chanLost := []
  scrubPos := 0
  scrubBack := []
  splitDue := 0
  stepDue := 0
  bootErrs := []
  wbqs := []
  parity := []
  manifest := []
  records := []
  power := {}
  stepGroups := []
  etches := []
  recov := {}
  resyncSeq := 0

end Sys2Proof.Machine
end

