-- ==== Sys2Proof/Machine/Caches.lean ====
section
/-! DEFINITION. The parts of the state, the frontier, bytes of memory and of word tables, the caches with their tokens (R344 to R349), and
the merge windows of the coherence points (R341). -/

namespace Sys2Proof.Machine

/-! ### Parts of the state -/

/-- The group of an identifier. -/
def State.group? (s : State) (g : Nat) : Option Group := tget? s.groups g
/-- Writes a group. -/
def State.setGroup (s : State) (g : Nat) (x : Group) : State := { s with groups := tput s.groups g x }
/-- Changes a group that exists. -/
def State.modGroup (s : State) (g : Nat) (f : Group → Group) : State :=
  match s.group? g with
  | some x => s.setGroup g (f x)
  | none => s
/-- The team of an identifier. -/
def State.team? (s : State) (t : Nat) : Option Team := tget? s.teams t
/-- Writes a team. -/
def State.setTeam (s : State) (t : Nat) (x : Team) : State := { s with teams := tput s.teams t x }
/-- Changes a team that exists. -/
def State.modTeam (s : State) (t : Nat) (f : Team → Team) : State :=
  match s.team? t with
  | some x => s.setTeam t (f x)
  | none => s
/-- A context by its number (R265). -/
def State.ctx (s : State) (c : Nat) : Ctx := cget {} s.ctxs c
/-- Writes a context. -/
def State.setCtx (s : State) (c : Nat) (x : Ctx) : State := { s with ctxs := cput {} s.ctxs c x }
/-- Changes a context. -/
def State.modCtx (s : State) (c : Nat) (f : Ctx → Ctx) : State := s.setCtx c (f (s.ctx c))
/-- A core position (R13). -/
def State.core (s : State) (c : Nat) : Core := cget {} s.cores c
/-- Writes a core. -/
def State.setCore (s : State) (c : Nat) (x : Core) : State := { s with cores := cput {} s.cores c x }
/-- Changes a core. -/
def State.modCore (s : State) (c : Nat) (f : Core → Core) : State := s.setCore c (f (s.core c))
/-- The launch of an identifier. -/
def State.launch? (s : State) (l : Nat) : Option Launch := tget? s.launches l
/-- Changes a launch that exists. -/
def State.modLaunch (s : State) (l : Nat) (f : Launch → Launch) : State :=
  match s.launch? l with
  | some x => { s with launches := tput s.launches l (f x) }
  | none => s
/-- The cluster of an identifier. -/
def State.cluster? (s : State) (c : Nat) : Option Cluster := tget? s.clusters c
/-- Changes a cluster that exists. -/
def State.modCluster (s : State) (c : Nat) (f : Cluster → Cluster) : State :=
  match s.cluster? c with
  | some x => { s with clusters := tput s.clusters c (f x) }
  | none => s

/-- The next free value (log 3). -/
def State.fresh (s : State) (w : Nat) : BitVec w × State :=
  (Config.freeValue w s.freeCtr, { s with freeCtr := s.freeCtr + 1 })

/-- The time in parts of a tick: what a bound given in units of time is measured in (R1). -/
def State.now (s : State) : Nat := s.timebase.toNat * Config.parts + s.subTick

/-- The compute die of a core position (R14). -/
def dieOf (core : Nat) : Nat := core / 64
/-- The global core number (R14). -/
def State.gcore (s : State) (core : Nat) : Nat := s.modnum.toNat * 512 + core

/-- Counts n in a core counter (R176). -/
def State.count (s : State) (core k n : Nat) : State :=
  s.modCore core (fun c => { c with pmc := cput 0 c.pmc k (cget 0 c.pmc k + BitVec.ofNat 64 n) })

/-- A lane record of a group. -/
def Group.lane (g : Group) (l : Nat) : Lane := cget {} g.lanes l
/-- Changes a lane record. -/
def Group.modLane (g : Group) (l : Nat) (f : Lane → Lane) : Group :=
  { g with lanes := cput {} g.lanes l (f (g.lane l)) }
/-- The lanes in a state. -/
def Group.lanesIn (g : Group) (p : LaneSt → Bool) : Mask :=
  maskOf ((List.range 32).filter (fun l => p (g.lane l).st))
/-- The live lanes: `%live` (R69). -/
def Group.live (g : Group) : Mask := g.lanesIn (fun x => x == .live)
/-- The helper lanes: `%helper` (R69). -/
def Group.helpers (g : Group) : Mask := g.lanesIn (fun x => x == .helper)
/-- The empty lanes. -/
def Group.empties (g : Group) : Mask := g.lanesIn (fun x => x == .empty)

/-- The lowest lane of a mask (0 for an empty one). -/
def lowLane (m : Mask) : Nat := ((lanesOf m).head?).getD 0

/-! ### The frontier (R153, R309) -/

/-- Whether an entry is chosen before another: a higher priority, and among equals a lower PC (R309). -/
def entBefore (a b : Ent) : Bool := decide (b.prio < a.prio) || (a.prio == b.prio && decide (a.pc < b.pc))

/-- The entry that comes before every other (R309). -/
def chooseEnt : List Ent → Option Ent
  | [] => none
  | e :: r => match chooseEnt r with
    | none => some e
    | some b => if entBefore b e then some b else some e

/-- The frontier in force: the handler's entries in handler mode (R309, R315). -/
def Group.front (g : Group) : List Ent := if g.handler then g.hfrontier else g.frontier
/-- Writes the frontier in force. -/
def Group.setFront (g : Group) (f : List Ent) : Group :=
  if g.handler then { g with hfrontier := f } else { g with frontier := f }
/-- The chosen entry (R309). -/
def Group.chosen (g : Group) : Option Ent := chooseEnt g.front

/-- Takes lanes out of every entry; an entry whose mask becomes zero is removed (R153). -/
def removeLanes (f : List Ent) (m : Mask) : List Ent :=
  (f.map (fun e => { e with mask := e.mask &&& ~~~m })).filter (fun e => e.mask != 0)

/-- Inserts lanes at a PC: they join an entry that holds it, which takes the larger priority (R153). -/
def insertLanes (f : List Ent) (pc : BitVec 24) (prio : BitVec 12) (m : Mask) : List Ent :=
  if m = 0 then f
  else if f.any (fun e => e.pc == pc) then
    f.map (fun e => if e.pc == pc then { e with prio := if e.prio < prio then prio else e.prio, mask := e.mask ||| m } else e)
  else f ++ [{ pc := pc, prio := prio, mask := m }]

/-- Moves lanes of the frontier in force to a PC. -/
def Group.moveLanes (g : Group) (m : Mask) (pc : BitVec 24) (prio : BitVec 12) : Group :=
  g.setFront (insertLanes (removeLanes g.front m) pc prio m)

/-! ### Device memory: bytes, sector poison, merge windows (R17, R185, R341) -/

/-- Sectors that bytes pa .. pa+n−1 touch (R17). -/
def sectorsOf (pa n : Nat) : List Nat :=
  if n = 0 then [] else (List.range ((pa + n - 1) / 32 - pa / 32 + 1)).map (fun i => pa / 32 + i)

/-- Bytes of device memory. An unlisted byte reads as 0 (R440, log 6). -/
def State.memBytes (s : State) (pa n : Nat) : List Byte := cgets 0 s.mem pa n

/-- Marks or clears the poison of the sectors that a write touches: poisoned data marks them, clean data clears a sector
it covers whole (R185). -/
def sectorWrite (sp : List Nat) (pa n : Nat) (pois : Bool) : List Nat :=
  (sectorsOf pa n).foldl (fun sp x =>
    if pois then (if sp.contains x then sp else sp ++ [x])
    else if pa ≤ 32 * x ∧ 32 * x + 32 ≤ pa + n then sp.filter (fun y => y != x) else sp) sp

/-- The parity of the bits of a number that a mask selects (R375). -/
def maskParity (m v : Nat) : Nat := ((List.range 29).filter (fun i => m.testBit i && v.testBit i)).length % 2

/-- Where a sector of HBM lies (R374): stack, unit, stripe, data slot. -/
structure SecPlace where
  stack : Nat
  unit : Nat
  stripe : Nat
  slot : Nat
  deriving DecidableEq, Repr

/-- The place of the sector at an HBM offset u (R374, R375). -/
def State.secPlace (s : State) (u : Nat) : SecPlace :=
  let ln := u / 128
  let ell := ln / 12
  let h0 := maskParity (bitsOf s.host.hashm0.toNat 28 0) ell
  let h1 := maskParity (bitsOf s.host.hashm0.toNat 60 32) ell
  let h2 := maskParity (bitsOf s.host.hashm1.toNat 28 0) ell
  let sigma := 4 * (ell / 8) + u / 32 % 4
  { stack := ln % 12, unit := 2 * (h0 + 2 * h1) + h2, stripe := sigma / 7, slot := sigma % 7 }

/-- The channel position of a slot of a stripe: slots 0 to 6 pass over the parity's position (R374). -/
def slotPos (stripe slot : Nat) : Nat := if slot < stripe % 8 then slot else slot + 1

/-- The pseudo-channel of a channel position of a unit: 64 per stack (R372, R374). -/
def SecPlace.pc (q : SecPlace) (pos : Nat) : Nat := 64 * q.stack + 2 * (8 * (q.unit / 2) + pos) + q.unit % 2

/-- The channel of a sector, 32 per stack: its parity group and its position there (R374). -/
def SecPlace.chan (q : SecPlace) (pos : Nat) : Nat := 32 * q.stack + 8 * (q.unit / 2) + pos

/-- A sector of this module's HBM lies on a lost channel whose parity group has lost a second one (R378). -/
def State.lostSector (s : State) (x : Nat) : Bool :=
  if s.chanLost.isEmpty ∨ x >>> 38 ≠ s.modnum.toNat ∨ 2 ^ 37 ≤ x % 2 ^ 38 then false
  else
    let q := s.secPlace (32 * x % 2 ^ 43)
    let c := q.chan (slotPos q.stripe q.slot)
    s.chanLost.contains c && decide (2 ≤ (s.chanLost.filter (fun d => d / 8 == c / 8)).length)

/-- Whether a touched sector reads as poisoned (R17, R376, R378). -/
def State.memPoison (s : State) (pa n : Nat) : Bool := (sectorsOf pa n).any (fun x => s.sectorPoison.contains x || s.lostSector x)

/-- A request reaches a pseudo-channel (R380): it abandons an entry that began in its own cycle, and waits for the end of an earlier one. -/
def Sref.request (x : Sref) (now : Nat) : Sref :=
  match x.st with
  | .active => { st := .active, last := now }
  | .entering => if x.due = now then { st := .active, last := now } else { x with want := true }
  | .sref => { x with st := .exiting, due := now + 390 }
  | .exiting => x

/-- The channel positions that an access of a sector reaches: its own, and for a write the parity's. On a lost channel a read rebuilds it from
the other seven, and a write updates the parity alone (R377, R378). -/
def State.posTouched (s : State) (q : SecPlace) (writes : Bool) : List Nat :=
  let pos := slotPos q.stripe q.slot
  if s.chanLost.contains (q.chan pos) then (if writes then [q.stripe % 8] else (List.range 8).filter (fun p => p != pos))
  else pos :: (if writes then [q.stripe % 8] else [])

/-- Requests for the sectors of n bytes of this module's HBM reach their pseudo-channels; a write also reaches the parity's
(R374, R377, R380). -/
def State.hbmTouch (s : State) (pa n : Nat) (writes : Bool) : State :=
  if pa >>> 43 ≠ s.modnum.toNat ∨ 2 ^ 42 ≤ pa % 2 ^ 43 then s
  else
    { s with srefs := (sectorsOf pa n).foldl (fun t sec =>
        let q := s.secPlace (32 * sec % 2 ^ 43)
        (s.posTouched q writes).foldl (fun (t : Cells Sref) pos =>
          cput {} t (q.pc pos) ((cget {} t (q.pc pos)).request s.cycle)) t) s.srefs }

/-- The stripe of a sector of this module's HBM: stack, unit, number. -/
def State.stripeAt (s : State) (x : Nat) : Nat × Nat × Nat :=
  let q := s.secPlace (32 * x % 2 ^ 43)
  (q.stack, q.unit, q.stripe)

/-- Bytes of device memory change at their coherence point. The parities of their stripes follow, computed anew where they were bad, so that a
sector can be rebuilt as it was stored (R377); a write-back of the scrubber to a sector is dropped (R381). -/
def State.memPut (s : State) (pa : Nat) (bs : List Byte) (pois : Bool) : State :=
  { s with
    mem := cputs 0 s.mem pa bs, sectorPoison := sectorWrite s.sectorPoison pa bs.length pois,
    parPoison := if s.parPoison.isEmpty then [] else s.parPoison.filter (fun k => !((sectorsOf pa bs.length).map s.stripeAt).contains k),
    scrubBack := s.scrubBack.filter (fun b => !(sectorsOf pa bs.length).contains b.1) }

/-- Writes bytes of device memory: the change, and the requests that reach the pseudo-channels (R380). -/
def State.memWrite (s : State) (pa : Nat) (bs : List Byte) (pois : Bool) : State := (s.hbmTouch pa bs.length true).memPut pa bs pois

/-! ### Tables of words (R61) -/

/-- The 32-bit words that bytes a .. a+n−1 touch (R61). -/
def wordsOf (a n : Nat) : List Nat :=
  if n = 0 then [] else (List.range ((a + n - 1) / 4 - a / 4 + 1)).map (fun i => a / 4 + i)

/-- The bytes a .. a+n−1 of a table of words, as a number, the OR of the touched words' poison, and how many touched words
are zero (R61). -/
def readWords (t : Cells WP) (a n : Nat) : Nat × Bool × Nat :=
  let ws := wordsOf a n
  let v := ws.foldr (fun w (acc : Nat) => (cget ({} : WP) t w).v.toNat + 2 ^ 32 * acc) 0
  ((v >>> (8 * (a % 4))) % 2 ^ (8 * n), ws.any (fun w => (cget ({} : WP) t w).p),
   (ws.filter (fun w => (cget ({} : WP) t w).v == 0)).length)

/-- One word of a byte write: the bytes of v in a .. a+n−1 merged in; a word covered whole takes the value's poison
(R61). -/
def mergeWord (a n v : Nat) (p : Bool) (w : Nat) (old : WP) : WP :=
  let put (i : Nat) : Nat :=
    let b := 4 * w + i
    if a ≤ b ∧ b < a + n then (v >>> (8 * (b - a))) % 256 else (old.v.toNat >>> (8 * i)) % 256
  let whole := decide (a ≤ 4 * w) && decide (4 * w + 4 ≤ a + n)
  { v := BitVec.ofNat 32 (put 0 + 256 * put 1 + 65536 * put 2 + 16777216 * put 3),
    p := if whole then p else old.p || p }

/-- Writes bytes into a table of words; gives also how many touched words become zero (R61). -/
def writeWords (t : Cells WP) (a n v : Nat) (p : Bool) : Cells WP × Nat :=
  (wordsOf a n).foldl (fun (acc : Cells WP × Nat) w =>
    let nw := mergeWord a n v p w (cget {} acc.1 w)
    (cput {} acc.1 w nw, if nw.v = 0 then acc.2 + 1 else acc.2)) (t, 0)

/-! ### Who writes, and who is woken -/

/-- Whether two byte ranges meet. -/
def rangesMeet (a n b m : Nat) : Bool := decide (a < b + m) && decide (b < a + n)

/-- The number of a core in the order of R341. -/
def whoCore (core : Nat) : Nat := 3 + core
/-- The number of the command processor and the etcher. -/
def whoHub : Nat := 1
/-- The agent number of the host's accesses; groups and channels have theirs in Route. -/
def hostAgent : Nat := 8193

/-- The die of a requester of R341, if it is a core. -/
def dieOfWho (who : Nat) : Option Nat := if 3 ≤ who then some (dieOf (who - 3)) else none

/-- Whether a write to a line, or to a block of a scratchpad, wakes a wait: `die` names the die that made it, if one did
(R190, R330). -/
def Wait.wokenBy (w : Wait) (scr : Option Nat) (line : Nat) (die : Option Nat) : Bool :=
  match w.kind with
  | .mwait _ _ _ _ _ _ _ sc ln only _ => sc == scr && ln == line && (only.isNone || only == die)
  | _ => false

/-- A wait of MWAIT that has something to read. -/
def Wait.wake (w : Wait) : Wait :=
  { w with kind := match w.kind with
    | .mwait sd va wd act md sp dl sc ln only _ => .mwait sd va wd act md sp dl sc ln only true
    | k => k }

/-- A write wakes the waits of MWAIT on what it touches (R190, R330). -/
def State.noteWrite (s : State) (scr : Option Nat) (a n : Nat) (die : Option Nat) : State :=
  { s with groups := s.groups.map (fun p => (p.1, { p.2 with wait := p.2.wait.map (fun w =>
      if (List.range ((a + n - 1) / 128 + 1 - a / 128)).any (fun i => w.wokenBy scr (a / 128 + i) die) then w.wake else w) })) }

/-! ### Caches: tokens, L1 holders, directory, copies with data (R344 to R348) -/

/-- The line of a physical address (R17). -/
def lineOf (pa : Nat) : Nat := pa / 128

/-- The lines that bytes touch. -/
def linesOf (pa n : Nat) : List Nat :=
  if n = 0 then [] else (List.range ((pa + n - 1) / 128 - pa / 128 + 1)).map (fun i => pa / 128 + i)

/-- The state of a line. -/
def State.line (s : State) (ln : Nat) : LineSt := cget {} s.lines ln

/-- Changes the state of a line. -/
def State.modLine (s : State) (ln : Nat) (f : LineSt → LineSt) : State :=
  { s with lines := cput {} s.lines ln (f (cget {} s.lines ln)) }

/-- Memory of another module is software coherent whatever its leaf says (R349). -/
def State.cohOf (s : State) (pa coh : Nat) : Nat := if pa >>> 43 = s.modnum.toNat then coh else 1

/-- The tokens that some L2 holds. -/
def LineSt.held (x : LineSt) : Nat := x.toks.foldl (fun a p => a + p.2) 0
/-- The tokens at the home agent (R344). -/
def LineSt.home (x : LineSt) : Nat := 16 - x.held

/-- A list with an element once. -/
def withElem (l : List Nat) (a : Nat) : List Nat := if l.contains a then l else l ++ [a]

/-- The policy of an access marks its line as the first to be evicted, or no longer (R86): 0 .ca, 1 .cg, 2 .cf. -/
def LineSt.byPolicy (x : LineSt) (die pol : Nat) : LineSt :=
  { x with first := if pol = 2 then withElem x.first die else x.first.filter (fun d => d != die) }

/-- A die gets a token to read: from the home agent while it has a spare one, else from the die with the most (R344). -/
def LineSt.readBy (x : LineSt) (die core : Nat) (l1 : Bool) : LineSt :=
  let l1s := if l1 then withElem x.l1 core else x.l1
  let dir := withElem x.dir die
  if cget 0 x.toks die ≥ 1 then { x with l1 := l1s, dir := dir }
  else if x.home ≥ 2 ∨ (x.home = 1 ∧ x.owner.isSome) then { x with toks := cput 0 x.toks die 1, l1 := l1s, dir := dir }
  else
    let donor := x.toks.foldl (fun (b : Nat × Nat) p => if b.2 < p.2 then p else b) (0, 0)
    -- the donor keeps the owner token; sending a token invalidates its cores' L1 copies (R345)
    { x with toks := cput 0 (cput 0 x.toks donor.1 (donor.2 - 1)) die 1,
             l1 := l1s.filter (fun c => dieOf c != donor.1), dir := dir }

/-- A die gathers all 16 tokens; the copies of other dies and cores are invalidated, and the core's L1 keeps the line only with policy .ca
(R86, R344, R345). -/
def LineSt.gatherBy (x : LineSt) (die core : Nat) (l1 : Bool) : LineSt :=
  { x with toks := [(die, 16)], owner := some die, l1 := if l1 then [core] else [], dir := [die] }

/-- A die that has all 16 tokens writes (R344). -/
def LineSt.writeBy (x : LineSt) (die core : Nat) (l1 : Bool) : LineSt := { x.gatherBy die core l1 with dirty := true }

/-- All tokens return to the home agent; a dirty line is written to memory, whose bytes `mem` already holds (R344, log 10). -/
def LineSt.recall (x : LineSt) : LineSt :=
  { x with toks := [], owner := none, dirty := false, l1 := [], dir := x.l2c.map (fun p => p.1), first := [] }

/-- A die's snoop filter evicts a line's entry: its cores' L1 copies are invalidated, the L2 keeps the line (R345). -/
def LineSt.unsnoop (x : LineSt) (die : Nat) : LineSt :=
  { x with l1 := x.l1.filter (fun c => dieOf c != die), l1c := x.l1c.filter (fun p => dieOf p.1 != die) }

/-- A die's L2 gives up a line: its tokens, with dirty data, go home, its L1 copies are invalidated (R345). -/
def LineSt.evict (x : LineSt) (die : Nat) : LineSt :=
  { toks := cput 0 x.toks die 0, owner := if x.owner = some die then none else x.owner,
    dirty := x.dirty && x.owner != some die, l1 := x.l1.filter (fun c => dieOf c != die), dir := x.dir.filter (fun d => d != die),
    first := x.first.filter (fun d => d != die), l2c := x.l2c.filter (fun p => p.1 != die),
    l1c := x.l1c.filter (fun p => dieOf p.1 != die) }

/-- The dirty data of a line goes to its stack (R380). -/
def State.dirtyOut (s : State) (ln : Nat) : State := if (s.line ln).dirty then s.hbmTouch (128 * ln) 128 true else s

/-- All tokens of a line return to the home agent (R344). -/
def State.recallLine (s : State) (ln : Nat) : State := (s.dirtyOut ln).modLine ln LineSt.recall

/-- A core's L1 holds a line of a page with this COH. -/
def LineSt.inL1 (x : LineSt) (core coh : Nat) : Bool := if coh = 0 then x.l1.contains core else (tget? x.l1c core).isSome
/-- A die's L2 holds a line of a page with this COH. -/
def LineSt.inL2 (x : LineSt) (die coh : Nat) : Bool := if coh = 0 then decide (1 ≤ cget 0 x.toks die) else (tget? x.l2c die).isSome

/-- The bytes of a line's copy. -/
def CLine.bytes (c : CLine) : List Byte := leBytes 128 c.v

/-- Writes bytes at an offset of a copy: they become dirty; poison follows R185. -/
def CLine.write (c : CLine) (off : Nat) (bs : List Byte) (pois : Bool) : CLine :=
  let n := bs.length
  let ones (k : Nat) : Nat := 2 ^ k - 1
  let keep := c.v % 2 ^ (8 * off) + (c.v >>> (8 * (off + n))) * 2 ^ (8 * (off + n))
  let secs := (List.range 4).filter (fun i => rangesMeet off n (32 * i) 32)
  { c with
    v := keep + leNat bs * 2 ^ (8 * off),
    dirty := c.dirty ||| (ones n * 2 ^ off),
    pois := secs.foldl (fun p i =>
      if pois then p ||| 2 ^ i
      else if off ≤ 32 * i ∧ 32 * i + 32 ≤ off + n then (if p.testBit i then p - 2 ^ i else p) else p) c.pois }

/-- The runs of dirty bytes of a copy, each within one sector: offset, bytes, poison. -/
def CLine.runs (c : CLine) : List (Nat × List Byte × Bool) :=
  (List.range 4).flatMap (fun i => (List.range 32).foldl (fun (acc : List (Nat × List Byte × Bool)) k =>
    let o := 32 * i + k
    let b := BitVec.ofNat 8 (c.v >>> (8 * o))
    if !c.dirty.testBit o then acc
    else match acc.getLast? with
      | some r => if r.1 + r.2.1.length = o then acc.dropLast ++ [(r.1, r.2.1 ++ [b], r.2.2)] else acc ++ [(o, [b], c.pois.testBit i)]
      | none => [(o, [b], c.pois.testBit i)]) [])

/-! ### Merge windows (R341) -/

/-- Two requests cross the fabric to one line: they are performed in their sequence order (R398). -/
def MergeReq.sameRoute (r x : MergeReq) : Bool := r.seq.isSome && x.seq.isSome && r.pa / 128 == x.pa / 128

/-- Inserts a write request after those of lower or equal numbers (R341), and after those that it follows on the fabric (R398). -/
def insReq (r : MergeReq) : List MergeReq → List MergeReq
  | [] => [r]
  | x :: t => if r.who < x.who && !(x :: t).any r.sameRoute then r :: x :: t else x :: insReq r t

/-- The pending requests in the order of their grant: ascending number, equal numbers in order of arrival (R341). -/
def grantOrder (q : List MergeReq) : List MergeReq := q.foldl (fun acc r => insReq r acc) []

/-- The place of bytes among all coherence points: a physical address, or an offset of a team's scratchpad. -/
def pointOf (scr : Option Nat) (a : Nat) : Nat :=
  match scr with
  | some t => 2 ^ 60 * (t + 1) + a
  | none => a

/-- The bytes of a request reach their place. A store of a core stays in its die's L2 until the line leaves it (R344, R380). -/
def State.applyReq (s : State) (r : MergeReq) : State :=
  match r.scr with
  | some t => s.modTeam t (fun x => { x with scr := (writeWords x.scr r.pa r.bytes.length (leNat r.bytes) r.pois).1 })
  | none => if r.tokens && decide (3 ≤ r.who) then s.memPut r.pa r.bytes r.pois else s.memWrite r.pa r.bytes r.pois

/-- The first cycle after the merge window under way (R341). -/
def State.windowEnd (s : State) : Nat := (s.cycle / 64 + 1) * 64

/-- A request crosses the fabric: it takes the next sequence number of its destination, and the home agent keeps its response under
the source module and that number (R398, R400). -/
def State.fabSend (s : State) (m : Nat) : State :=
  if m = s.modnum.toNat then s
  else
    let n := cget 0 s.fabSeq m
    { s with fabSeq := cput 0 s.fabSeq m (n + 1), kept := s.kept ++ [{ src := s.modnum.toNat, dst := m, seq := n, time := s.timebase.toNat }] }

/-- A write request arrives at its coherence point. One with a lower number than a request that has been granted in this window on the
same bytes is refused: it is sent again and arrives in a later window (R341), and so does what its agent sends after it (R334). -/
def State.postReq (s : State) (r : MergeReq) : State :=
  let late := s.served.any (fun z => rangesMeet z.1 z.2.1 (pointOf r.scr r.pa) r.bytes.length && decide (r.who < z.2.2))
  let behind := (s.mergeQ.filter (fun z => z.agent == r.agent)).foldl (fun n z => max n z.due) r.due
  let m := r.pa >>> 43
  let far := r.scr.isNone && m != s.modnum.toNat
  { (if far then s.fabSend m else s) with
    mergeQ := s.mergeQ ++ [{ r with due := if late then max behind (s.windowEnd + 1) else behind, seq := if far then some (cget 0 s.fabSeq m) else none }],
    -- a store queued since the scrubber's read stands (R381)
    scrubBack := if r.scr.isSome then s.scrubBack else s.scrubBack.filter (fun b => !(sectorsOf r.pa r.bytes.length).contains b.1) }

/-- The number of a die's write-backs in the order of R341: that of its last core, since a line holds the bytes of several (log 12). -/
def whoBack (die : Nat) : Nat := whoCore (64 * die + 63)
/-- The agent of a write-back that no release asks for. -/
def evictAgent : Nat := 8195

/-- A die's L2 writes back the dirty bytes of its copy of a line, for an agent; the copy is clean then (R348). -/
def State.writeOut (s : State) (agent die ln : Nat) : State :=
  match tget? (s.line ln).l2c die with
  | none => s
  | some c =>
    (c.runs.foldl (fun (s : State) r =>
      s.postReq { who := whoBack die, agent := agent, pa := 128 * ln + r.1, bytes := r.2.1, pois := r.2.2, tokens := false }) s).modLine ln
      (fun x => { x with l2c := x.l2c.map (fun p => if p.1 = die then (p.1, { p.2 with dirty := 0 }) else p) })

/-- A die's L2 evicts a line; a copy's dirty bytes are written back (R345, R348). -/
def State.evictL2 (s : State) (die ln : Nat) : State :=
  let s := s.writeOut evictAgent die ln
  (if (s.line ln).owner = some die then s.dirtyOut ln else s).modLine ln (fun x => x.evict die)

/-- The lines that a die's L2 holds, and those that a core's L1 holds. -/
def State.l2Lines (s : State) (die : Nat) : List (Nat × LineSt) := s.lines.filter (fun p => p.2.inL2 die 0 || p.2.inL2 die 1)
/-- The lines of a core's L1. -/
def State.l1Lines (s : State) (core : Nat) : List (Nat × LineSt) := s.lines.filter (fun p => p.2.inL1 core 0 || p.2.inL1 core 1)

/-- A line leaves a core's L1. -/
def LineSt.dropL1 (x : LineSt) (core : Nat) : LineSt :=
  { x with l1 := x.l1.filter (fun c => c != core), l1c := x.l1c.filter (fun p => p.1 != core) }

/-- A victim among lines: one that is first to be evicted, if there is one, else a free value's (log 3). -/
def State.victim (s : State) (ls : List (Nat × LineSt)) (die : Nat) : Nat × State :=
  match ls.find? (fun p => p.2.first.contains die) with
  | some p => (p.1, s)
  | none =>
    let (v, s) := s.fresh 32
    (((ls[v.toNat % ls.length]?).map (fun p => p.1)).getD 0, s)

/-- The caches keep their capacities: 1,024 lines in an L1 of 128 KiB, 524,288 in an L2 of 64 MiB (R12, R16, R18). The line just
touched is no victim. -/
def State.makeRoom (s : State) (core ln : Nat) : State :=
  let l1 := s.l1Lines core
  let s := if l1.length ≤ 1024 then s else
    let (v, s) := s.victim (l1.filter (fun p => p.1 != ln)) 8
    s.modLine v (fun x => x.dropL1 core)
  let l2 := s.l2Lines (dieOf core)
  if l2.length ≤ 524288 then s else
    let (v, s) := s.victim (l2.filter (fun p => p.1 != ln)) (dieOf core)
    s.evictL2 (dieOf core) v

/-- A core's die gathers the tokens of a line that a granted request writes, and its caches take the line (R86, R344, R345). -/
def State.gatherLine (s : State) (r : MergeReq) (ln : Nat) : State :=
  if 3 ≤ r.who then
    let core := r.who - 3
    (s.modLine ln (fun x => (x.writeBy (dieOf core) core r.l1).byPolicy (dieOf core) (if r.first then 2 else 1))).makeRoom core ln
  else s.recallLine ln

/-- A request is granted: the writer's die gathers the tokens of its lines and the write becomes visible to all at once (R339, R344); it
wakes the waits on its line (R330), but for a write-back, whose bytes were written before. -/
def State.grantReq (s : State) (r : MergeReq) : State :=
  let s := if r.scr.isSome || r.tokens then s.noteWrite r.scr r.pa r.bytes.length (dieOfWho r.who) else s
  let s := if r.scr.isSome || !r.tokens then s
    else (linesOf r.pa r.bytes.length).foldl (fun (s : State) ln => s.gatherLine r ln) s
  s.applyReq r

/-- The active persistent request of a line: the oldest (R347). -/
def State.activeReq (s : State) (line : Nat) : Option TokReq := s.tokReqs.find? (fun r => r.line == line && r.persistent)

/-- The tokens of a line are promised to another die: the active persistent request is not this die's (R347). -/
def State.promised (s : State) (die ln : Nat) : Bool := (s.activeReq ln).any (fun r => r.die != die)

/-- Every token of a line is sent to a die, the owner's data with it (R347). -/
def LineSt.sendAll (x : LineSt) (die : Nat) : LineSt :=
  { x with toks := [(die, 16)], owner := some die, l1 := x.l1.filter (fun c => dieOf c == die), dir := [die] }

/-- The tokens of a line with an active request go to its requester. -/
def State.serveReq (s : State) (line : Nat) : State :=
  match s.activeReq line with
  | some r => s.modLine line (fun x => x.sendAll r.die)
  | none => s

/-- The home agent of a line: one per HBM stack (R12). -/
def homeAgent (line : Nat) : Nat := line % 12

/-- A die has room for a persistent request at a home agent: at most 32 of its own there, and 256 in the agent's arbiter (R347). -/
def State.mayPersist (s : State) (die line : Nat) : Bool :=
  let here := s.tokReqs.filter (fun r => r.persistent && homeAgent r.line == homeAgent line)
  decide ((here.filter (fun r => r.die == die)).length < 32) && decide (here.length < 256)

/-- A persistent request enters its line's queue behind those of earlier cycles, and of its cycle behind those of lower dies, whose cores
have the lower numbers (R347). -/
def insTok (r : TokReq) : List TokReq → List TokReq
  | [] => [r]
  | q :: t => if q.persistent && q.since == r.since && decide (r.die < q.die) then r :: q :: t else q :: insTok r t

/-- The request for tokens of an agent's read or atomic fails, because the line is promised to another die: it is sent again, and is
persistent after its second failure (R347). -/
def State.tokenFail (s : State) (die agent line : Nat) : State :=
  match s.tokReqs.find? (fun r => r.line == line && r.die == die) with
  | none => { s with tokReqs := s.tokReqs ++ [{ line := line, die := die, fails := 1, persistent := false, since := s.cycle, readers := [agent] }] }
  | some r =>
    let q := { r with readers := withElem r.readers agent }
    if r.persistent then { s with tokReqs := s.tokReqs.map (fun z => if z = r then q else z) }
    else if r.since = s.cycle then s
    else
      let rest := { s with tokReqs := s.tokReqs.filter (fun z => z != r) }
      let q := { q with fails := q.fails + 1, since := s.cycle }
      if rest.mayPersist die line then State.serveReq { rest with tokReqs := insTok { q with persistent := true } rest.tokReqs } line
      else { rest with tokReqs := rest.tokReqs ++ [q] }

/-- An agent's read or atomic has executed: no request for tokens waits for it (R347). -/
def State.tokensUsed (s : State) (agent : Nat) : State :=
  if s.tokReqs.isEmpty then s else { s with tokReqs := s.tokReqs.map (fun r => { r with readers := r.readers.filter (fun a => a != agent) }) }

/-- A byte of this module's HBM lies in a page that the etcher has still to copy for a boundary that its context's `%step` has passed (R259,
R409). -/
def State.uncaptured (s : State) (pa : Nat) : Bool :=
  s.etches.any (fun p => p.2.busy && decide (p.2.boundary < (s.ctx p.1).step.toNat) && pa >>> 43 == s.modnum.toNat
    && p.2.pages.contains (pa % 2 ^ 43 / 65536))

/-- A request cannot be granted yet: it has been sent again and is not due, a line of it is promised to another die, or it writes back what may be
a later step's data into a page that the etcher has still to copy (R259). -/
def State.refused (s : State) (r : MergeReq) : Bool :=
  decide (s.cycle < r.due) || (r.scr.isNone && !r.tokens && s.uncaptured r.pa)
    || (r.scr.isNone && r.tokens && decide (3 ≤ r.who) && (linesOf r.pa r.bytes.length).any (s.promised (dieOf (r.who - 3))))

/-- Grants the requests of a queue that a test accepts, in their order; a request that stays keeps its agent's later ones behind it
(R334). Gives the requests that stay. -/
def State.grantIn (s : State) (p : MergeReq → Bool) : List MergeReq → State × List MergeReq
  | q => q.foldl (fun (acc : State × List MergeReq) r =>
      if p r && !acc.1.refused r && !acc.2.any (fun z => z.agent == r.agent) then
        ({ acc.1 with served := acc.1.served ++ [(pointOf r.scr r.pa, r.bytes.length, r.who)] }.grantReq r, acc.2)
      else (acc.1, acc.2 ++ [r])) (s, [])

/-- Grants the pending requests that a test accepts. -/
def State.grantWhere (s : State) (p : MergeReq → Bool) : State :=
  match s.mergeQ with
  | [] => s
  | q =>
    let r := { s with mergeQ := [] }.grantIn p (grantOrder q)
    -- what the grants evict is written back behind the requests that stay
    { r.1 with mergeQ := r.2 ++ r.1.mergeQ }

/-- Grants the requests up to a requester's number: what an atomic of that requester sees (R341), and what it publishes by a release
(R335), its die's write-backs with it. A request of a lower number that comes to the same bytes later in the window is refused
(`postReq`). -/
def State.grantUpTo (s : State) (who : Nat) : State :=
  s.grantWhere (fun r => decide (r.who ≤ who) || (!r.tokens && dieOfWho r.who == dieOfWho who))

/-- The end of a merge window: its requests are granted in their order (R341). -/
def State.closeWindow (s : State) : State := { s.grantWhere (fun _ => true) with served := [] }

/-- Every request that is not refused is granted now: what must be performed before an agent goes on. -/
def State.grantDue (s : State) : State := s.grantWhere (fun _ => true)

/-- Every pending request as if it were granted now, in the order in which the windows will grant them. -/
def State.grantAll (s : State) : State := (grantOrder s.mergeQ).foldl State.applyReq { s with mergeQ := [] }

/-- An agent has writes that are not performed yet. -/
def State.unperformed (s : State) (agent : Nat) : Bool := s.mergeQ.any (fun r => r.agent == agent)

/-- The agent's pending writes come before a fence or a release that it issues now (R336, R337). -/
def State.markFenced (s : State) (agent : Nat) : State :=
  { s with mergeQ := s.mergeQ.map (fun r => if r.agent == agent then { r with fenced := true } else r) }

/-- The agent has a pending write that a fence or a release of its own came after. -/
def State.fencedPending (s : State) (agent : Nat) : Bool := s.mergeQ.any (fun r => r.agent == agent && r.fenced)

/-- A write-back of a die's L2 is not performed yet: its bytes may be an agent's own earlier store (R338). -/
def State.backPending (s : State) (die : Nat) : Bool := s.mergeQ.any (fun r => !r.tokens && dieOfWho r.who == some die)

/-- The state as an agent's own reads see it: its own pending writes are performed (R334, R339). -/
def State.ownView (s : State) (agent : Nat) : State :=
  match s.mergeQ.filter (fun r => r.agent == agent) with
  | [] => s
  | q => q.foldl State.applyReq s

/-- A write at the home agent by the command processor or the etcher, which gather no tokens: it recalls them, and comes before the
cores' pending requests (R341, R344). -/
def State.homeWrite (s : State) (pa : Nat) (bs : List Byte) (pois : Bool) : State :=
  let s := s.noteWrite none pa bs.length none
  let s := (linesOf pa bs.length).foldl (fun (s : State) ln => s.recallLine ln) s
  { s with served := s.served ++ [(pa, bs.length, whoHub)] }.memWrite pa bs pois

/-! ### Reads and writes through the caches (R344 to R349) -/

/-- The dirty bytes of a copy go to memory. -/
def State.writeRuns (s : State) (ln : Nat) (c : CLine) : State :=
  c.runs.foldl (fun (s : State) r => s.memWrite (128 * ln + r.1) r.2.1 r.2.2) s

/-- Every copy of a line leaves every cache, dirty data to memory behind the write-backs that are on their way, and all tokens go home
(R346, R350). -/
def State.flushLine (s : State) (ln : Nat) : State :=
  let out (r : MergeReq) : Bool := r.scr.isNone && !r.tokens && lineOf r.pa == ln
  let s := (grantOrder (s.mergeQ.filter out)).foldl State.applyReq { s with mergeQ := s.mergeQ.filter (fun r => !out r) }
  State.modLine ((s.line ln).l2c.foldl (fun (s : State) p => s.writeRuns ln p.2) s) ln (fun _ => {})

/-- A core's access to a line is counted as a miss of its L1, where it uses it, and of its die's L2 (R176). -/
def State.countMiss (s : State) (core ln coh pol : Nat) : State :=
  let x := s.line ln
  let s := if pol ≠ 0 ∨ x.inL1 core coh then s else s.count core 5 1
  if x.inL2 (dieOf core) coh then s else (s.count core 6 1).hbmTouch (128 * ln) 128 false

/-- The line as its home holds it for a die: with the die's own requests that are still on their way (R334). -/
def State.homeLine (s : State) (die ln : Nat) : CLine :=
  let t := (s.mergeQ.filter (fun r => r.scr.isNone && dieOfWho r.who == some die && r.pa / 128 == ln)).foldl State.applyReq s
  { v := leNat (t.memBytes (128 * ln) 128),
    pois := ((List.range 4).filter (fun i => t.memPoison (128 * ln + 32 * i) 32)).foldl (fun n i => n + 2 ^ i) 0 }

/-- A line of a page that is not hardware coherent is in the die's L2, and in the core's L1 with policy .ca (R348). -/
def State.fetchLine (s : State) (core ln pol coh : Nat) : State :=
  let die := dieOf core
  let x := s.line ln
  let c := match (if pol = 0 then tget? x.l1c core else none), tget? x.l2c die with
    | some c, _ => { c with dirty := 0 }
    | none, some c => c
    | none, none => { s.homeLine die ln with coh := coh }
  s.modLine ln (fun x => ({ x with
    l2c := if (tget? x.l2c die).isSome then x.l2c else tput x.l2c die c,
    l1c := if pol = 0 then tput x.l1c core { c with dirty := 0 } else x.l1c,
    dir := withElem x.dir die } : LineSt).byPolicy die pol)

/-- A core reads lines: misses are counted, the die gets a token or a copy (R176, R344, R348). -/
def State.touchRead (s : State) (core pa n pol coh : Nat) : State :=
  (linesOf pa n).foldl (fun s ln =>
    let s := s.countMiss core ln coh pol
    let s := if coh = 0 then s.modLine ln (fun x => (x.readBy (dieOf core) core (pol == 0)).byPolicy (dieOf core) pol)
      else s.fetchLine core ln pol coh
    s.makeRoom core ln) s

/-- The bytes that a core reads on a page with this COH, and their poison: of its L1's copy, of its die's L2's, or of memory. -/
def State.cacheRead (s : State) (core pa n pol coh : Nat) : List Byte × Bool :=
  if coh = 0 then (s.memBytes pa n, s.memPoison pa n)
  else
    let copyOf (ln : Nat) : CLine :=
      let x := s.line ln
      match (if pol = 0 then tget? x.l1c core else none), tget? x.l2c (dieOf core) with
      | some c, _ => c
      | none, some c => c
      | none, none => s.homeLine (dieOf core) ln
    let bs := (linesOf pa n).flatMap (fun ln => (copyOf ln).bytes)
    ((bs.drop (pa % 128)).take n,
     (sectorsOf pa n).any (fun x => (copyOf (x / 4)).pois.testBit (x % 4)))

/-- The pieces of bytes that lie in one line each: address and bytes. -/
def linePieces (pa : Nat) (bs : List Byte) : List (Nat × List Byte) :=
  (linesOf pa bs.length).map (fun ln =>
    let lo := max pa (128 * ln)
    (lo, (bs.drop (lo - pa)).take (128 * (ln + 1) - lo)))

/-- A core writes bytes on a page that is not hardware coherent: the copies of its die's L2 and its own L1 take them; on a page of COH 01
the L1 copies of the die's other cores are invalidated (R345, R348). -/
def State.cacheWrite (s : State) (core pa : Nat) (bs : List Byte) (pois : Bool) (pol coh : Nat) : State :=
  (linePieces pa bs).foldl (fun (s : State) q =>
    let ln := lineOf q.1
    let die := dieOf core
    let s := (s.countMiss core ln coh pol).fetchLine core ln pol coh
    let s := s.modLine ln (fun x => { x with
      l2c := x.l2c.map (fun p => if p.1 = die then (p.1, p.2.write (q.1 % 128) q.2 pois) else p),
      l1c := (x.l1c.filter (fun p => coh != 1 || p.1 == core || dieOf p.1 != die)).map (fun p =>
        if p.1 = core then (p.1, { p.2.write (q.1 % 128) q.2 pois with dirty := 0 }) else p) })
    (s.noteWrite none q.1 q.2.length (some die)).makeRoom core ln) s

/-- Whether a release or an acquire at a scope (3 .die, 4 .mod, 5 .dom) reaches a software-coherent line: memory of another module orders
only at .dom (R333, R348). -/
def State.scopeReaches (s : State) (scope ln : Nat) : Bool := scope == 5 || (scope == 4 && ln >>> 36 == s.modnum.toNat)

/-- A release writes back the dirty lines that are software coherent, at .mod and .dom, and an acquire drops them; at .die an acquire
drops those of the core's L1 alone (R348). -/
def State.writeBack (s : State) (agent core scope : Nat) : State :=
  if scope < 4 then s
  else ((s.lines.filter (fun p => s.scopeReaches scope p.1 && p.2.l2c.any (fun q => q.1 == dieOf core && q.2.coh == 1 && q.2.dirty != 0))).map
    (fun p => p.1)).foldl (fun (s : State) ln => s.writeOut agent (dieOf core) ln) s

/-- The copies that an acquire drops from a line (R348). -/
def LineSt.dropSoft (x : LineSt) (core : Nat) (deep : Bool) : LineSt :=
  { x with l1c := x.l1c.filter (fun q => q.2.coh != 1 || (if deep then dieOf q.1 != dieOf core else q.1 != core)),
           l2c := if deep then x.l2c.filter (fun q => q.2.coh != 1 || q.1 != dieOf core) else x.l2c }

/-- What an acquire at a scope invalidates; dirty data is written back first (R348). -/
def State.dropSoft (s : State) (agent core scope : Nat) : State :=
  if scope < 3 then s
  else if scope = 3 then { s with lines := cmap {} s.lines (fun _ x => x.dropSoft core false) }
  else
    let s := s.writeBack agent core scope
    { s with lines := cmap {} s.lines (fun ln x => if s.scopeReaches scope ln then x.dropSoft core true else x) }

end Sys2Proof.Machine
end

