-- ==== Sys2Proof/Machine/Frame.lean ====
section
/-! DEFINITION. Parts of a group, spill formats (R76), group frames (R320, R321), their checks (R322), the save area (R266, R271), and
what a group leaves behind when it stops on its core (R244, R273, R318). -/

namespace Sys2Proof.Machine

/-! ### Parts of a group -/

/-- A word of a window. -/
def RegFile.word (f : RegFile) (w : Nat) : WP := cget {} f.win w

/-- Entry k of a last-result file. -/
def LFile.entry (f : LFile) (k : Nat) : Cells PW :=
  if k = 0 then f.l0 else if k = 1 then f.l1 else if k = 2 then f.l2 else f.l3
/-- Writes entry k. -/
def LFile.setEntry (f : LFile) (k : Nat) (e : Cells PW) : LFile :=
  if k = 0 then { f with l0 := e } else if k = 1 then { f with l1 := e }
  else if k = 2 then { f with l2 := e } else { f with l3 := e }
/-- The value of a view register. -/
def Group.view (x : Group) (k : Nat) : Nat := (cget 0 x.rf.vw k).toNat
/-- A predicate's lanes; `p15` reads as all ones (R66). -/
def Group.predMask (x : Group) (k : Nat) : Mask := if k = 15 then ~~~0 else cget 0 x.rf.preds k

/-- The bound port of a group, if any. -/
def Group.port? (x : Group) (k : Nat) : Option Port := cget none x.ports k

/-- The matrix operations of a group in their order: those in its core's queue, and those that have still to enter it again (R244). -/
def State.opsOf (s : State) (g core : Nat) : List MatOp :=
  (s.core core).mq.filter (fun o => o.g == g) ++ ((s.group? g).map (fun (x : Group) => x.mats)).getD []

/-- Drowsy granules that an access touches wake, each counted once (R74, R176); an access while the group is not in the active set puts its
granules' idle time back to its start. -/
def State.wakeGranules (s : State) (g : Nat) (gs : List Nat) : State :=
  gs.foldl (fun s k =>
    match s.group? g with
    | none => s
    | some x =>
      let s := if x.st = .active then s else s.setGroup g { x with rf := { x.rf with touch := cput 0 x.rf.touch k s.cycle } }
      if cget GranSt.awake x.rf.gran k = .drowsy then
        (s.modGroup g (fun x => { x with rf := { x.rf with gran := cput .awake x.rf.gran k .awake } })).count x.core 7 1
      else s) s

/-- The granules of a group's window. -/
def Group.granules (x : Group) : List Nat := List.range ((x.rf.wbytes + 4095) / 4096)

/-! ### Spill formats (R75, R76) -/

/-- d[l] of R76. -/
def spillDiff (x0 v : Nat) : Int := signedOf 32 (wrapBits 32 ((v : Int) - x0))

/-- Every difference lies in −b .. b−1. -/
def diffsFit (xs : List Nat) (b : Int) : Bool :=
  xs.all (fun v => decide (-b ≤ spillDiff (xs.headD 0) v) && decide (spillDiff (xs.headD 0) v < b))

/-- Differences packed in w bits each, from lane 1 on (R76). -/
def packDiffs (xs : List Nat) (w : Nat) : Nat :=
  (xs.tail.zip (List.range 31)).foldl (fun n p => n + wrapBits w (spillDiff (xs.headD 0) p.1) * 2 ^ (w * p.2)) 0

/-- The format and slot bytes that VSPILL chooses (R76). -/
def spillFormat (xs : List Nat) (pois : Bool) : Nat × List Byte :=
  let x0 := xs.headD 0
  if pois then (0x00, xs.flatMap (leBytes 4))
  else if xs.all (fun v => v == 0) then (0x21, [])
  else if xs.all (fun v => v == x0) then (0x20, leBytes 4 x0)
  else if diffsFit xs 8 then (0x10, leBytes 4 x0 ++ leBytes 16 (packDiffs xs 4))
  else if diffsFit xs 128 then (0x11, leBytes 4 x0 ++ leBytes 31 (packDiffs xs 8))
  else if diffsFit xs 32768 then (0x12, leBytes 4 x0 ++ leBytes 62 (packDiffs xs 16))
  else (0x00, xs.flatMap (leBytes 4))

/-- The slot bytes that a format names; none for a reserved code (R76). -/
def spillLen (fmt : Nat) : Option Nat :=
  if fmt = 0x21 then some 0 else if fmt = 0x20 then some 4 else if fmt = 0x10 then some 20 else if fmt = 0x11 then some 35
  else if fmt = 0x12 then some 66 else if fmt = 0x00 then some 128 else none

/-- The difference width of a format, 0 for one without differences. -/
def spillWidth (fmt : Nat) : Nat := if fmt = 0x10 then 4 else if fmt = 0x11 then 8 else if fmt = 0x12 then 16 else 0

/-- The word of lane l that slot bytes, given as a number, hold in a format (R76). -/
def fillWord (fmt v l : Nat) : Nat :=
  let w := spillWidth fmt
  if fmt = 0x00 then bitsOf v (32 * l + 31) (32 * l)
  else if fmt = 0x21 then 0
  else if l = 0 ∨ w = 0 then v % 2 ^ 32
  else wrapBits 32 ((v % 2 ^ 32 : Nat) + signedOf w (v >>> (32 + w * (l - 1))))


/-! ### Encoding (R320, R321) -/

/-- The state code of a frame: the state that the group was saved from (R320). -/
def savedCode : GState → Nat
  | .parked => 1
  | .draining => 2
  | _ => 0

/-- The length of a full frame: 0x5200 + W rounded up to 4 KiB; a parking frame is 0x4000 bytes (R320). -/
def frameLen (wbytes : Nat) (full : Bool) : Nat := if full then (0x5200 + wbytes + 4095) / 4096 * 4096 else 0x4000

/-- A frame is in force for a parked group that is not saved: a parking frame (R318). -/
def Group.fullFrame (x : Group) : Bool := x.st != .parked

/-- The header (R320). -/
def frameHeader (x : Group) (now : Nat) : List Byte :=
  let now := if x.st = .saved then 0 else now   -- a saved group holds what remains of its sleep
  let frozen := x.st == .frozen || (x.st == .saved && x.savedFrom == .frozen)
  let wdLeft := if x.wd.armed then x.wd.interval - x.wd.w else 0
  let pk := x.st == .parked || !x.parkKeys.isEmpty
  leBytes 64 (packFields [(1, 0), (x.handler.toNat, 16), (frozen.toNat, 17), (pk.toNat, 18),
    (x.sleepEnd.isSome.toNat, 19), (x.asyncWd.isSome.toNat, 20), ((x.asyncMat.map (fun a => a.cause.toNat)).getD 0, 21),
    (savedCode (if x.st = .saved then x.savedFrom else x.st), 30), (frameLen x.rf.wbytes x.fullFrame, 32),
    ((x.sleepEnd.map (fun t => t - now)).getD 0, 64), (wdLeft % 2 ^ 32, 96), (x.seniority % 2 ^ 32, 128), (x.num % 16, 160),
    (x.rf.wbytes / 4, 164)])

/-- The system-register section (R320). -/
def frameSys (x : Group) : List Byte :=
  let t := x.sr.trap
  leBytes 448 (packFields ((List.range 4).map (fun k => (x.view k, 64 * k))
    ++ [(x.sr.fstat.toNat, 256), (x.sr.seed.toNat, 320), (x.sr.zskip.toNat, 384), (x.sr.tvec.toNat, 448), (x.sr.eos.toNat, 512),
        (t.cause.toNat, 576), (t.pc.toNat, 640), (t.prio.toNat, 704), (t.mask.toNat, 768), (t.info.toNat, 832),
        (if x.wd.armed then x.wd.interval else 0, 896)]))

/-- The frontier section: 32 entries, the handler's marked (R320). -/
def frameFrontier (x : Group) : List Byte :=
  let one (h : Nat) (e : Ent) : List Byte :=
    leBytes 16 (packFields [(e.pc.toNat, 0), (e.prio.toNat, 24), (e.mask.toNat, 36), (1, 68), (h, 69)])
  let bs := x.frontier.flatMap (one 0) ++ x.hfrontier.flatMap (one 1)
  (bs ++ List.replicate (512 - bs.length) 0).take 512

/-- The predicate section, with the scalars' poison (R320). -/
def framePreds (x : Group) : List Byte :=
  let pois := packFields ((List.range 64).map (fun k => ((cget ({} : PW) x.rf.scal k).p.toNat, 2 * k)))
  (List.range 16).flatMap (fun k => leBytes 4 (x.predMask k).toNat) ++ leBytes 64 pois

/-- The values of a side file, 8 bytes each. -/
def pwBytes (t : Cells PW) (n : Nat) : List Byte := (List.range n).flatMap (fun k => leBytes 8 (cget ({} : PW) t k).v.toNat)

/-- The poison bits of a side file, two per entry. -/
def pwPoison (t : Cells PW) (n : Nat) : Nat := packFields ((List.range n).map (fun k => ((cget ({} : PW) t k).p.toNat, 2 * k)))

/-- The entries of a last-result file, 32 lanes each. -/
def lfBytes (f : LFile) : List Byte := (List.range 4).flatMap (fun k => pwBytes (f.entry k) 32)
/-- Their poison. -/
def lfPoison (f : LFile) : Nat := packFields ((List.range 4).map (fun k => (pwPoison (f.entry k) 32, 64 * k)))

/-- The side files and their poison (R320): 0x0680 to 0x16FF. -/
def frameSide (x : Group) : List Byte :=
  let aside : LFile := if x.handler then x.rf.lsave else {}
  pwBytes x.rf.ofile 256 ++ lfBytes x.rf.lf ++ lfBytes aside
    ++ leBytes 128 (packFields [(pwPoison x.rf.ofile 256, 0), (lfPoison x.rf.lf, 512), (lfPoison aside, 768)])

/-- The code of a lane's state (R321). -/
def LaneSt.code : LaneSt → Nat
  | .empty => 0
  | .live => 1
  | .helper => 2

/-- The entries of a return stack, the oldest first, 36 bits each (R321). -/
def stackBits (k : List Ret) : Nat :=
  (k.reverse.zip (List.range k.length)).foldl (fun n p => n + (p.1.pc.toNat + 2 ^ 24 * p.1.prio.toNat) * 2 ^ (36 * p.2)) 0

/-- A lane record (R321). -/
def laneRecord (l : Lane) : List Byte :=
  leBytes 128 (packFields [(l.item.toNat, 0), (l.age.toNat, 32), (l.rstate.toNat, 64), (l.st.code, 96), (l.bctr.toNat, 98),
    (l.rstk.length, 102), (l.hstk.length, 107), (l.bout.toNat, 112), (l.bfail.toNat, 128), (l.psf.toNat, 144), (l.openN, 160),
    (stackBits l.rstk, 192), (stackBits l.hstk, 768)])

/-- A port record (R320). -/
def portRecord : Option Port → List Byte
  | none => List.replicate 256 0
  | some p => (p.desc ++ List.replicate (64 - p.desc.length) 0).take 64
      ++ (List.range 32).flatMap (fun l => leBytes 4 (cget 0 p.steps l))
      ++ leBytes 64 (1 + 2 * p.dpois.toNat)

/-- An address array of a matrix record: 32 × 2 bytes. -/
def adrBytes (a : List Nat) : List Byte := (List.range 32).flatMap (fun l => leBytes 2 (((a[l]?).getD 0) % 2 ^ 16))

/-- A matrix record (R320). -/
def matRecord (o : MatOp) : List Byte :=
  [BitVec.ofNat 8 o.kind, ((if o.kind = 5 then o.cTy else o.ty).code).setWidth 8,
    BitVec.ofNat 8 (o.b16.toNat + 2 * o.suspended.toNat), BitVec.ofNat 8 o.res]
    ++ leBytes 4 o.steps ++ leBytes 4 o.block
    ++ [BitVec.ofNat 8 (o.portA.getD 0xFF), BitVec.ofNat 8 (o.portB.getD 0xFF), o.cMod.setWidth 8, o.cX.setWidth 8]
    ++ adrBytes o.adrD ++ adrBytes o.adrA ++ adrBytes o.adrB
    ++ leBytes 8 (wrapBits 64 o.incA) ++ leBytes 8 (wrapBits 64 o.incB) ++ List.replicate 32 0

/-- The matrix section: up to four records in queue order (R320). -/
def frameMats (ops : List MatOp) : List Byte :=
  let bs := (ops.take 4).flatMap matRecord
  (bs ++ List.replicate (1024 - bs.length) 0).take 1024

/-- A flag of every word of the window, 2,048 bytes. -/
def wordFlags (x : Group) (p : WP → Bool) : List Byte :=
  leBytes 2048 ((List.range (x.rf.wbytes / 4)).foldl (fun n w => n + (if p (x.rf.word w) then 2 ^ w else 0)) 0)

/-- A window row in a spill format: format byte and 128 bytes (R76, R320). -/
def rowFormat (x : Group) (i : Nat) : Nat × List Byte :=
  let ws := (List.range 32).map (fun k => x.rf.word (32 * i + k))
  let (f, b) := spillFormat (ws.map (fun w => w.v.toNat)) (ws.any (fun w => w.p))
  (f, b ++ List.replicate (128 - b.length) 0)

/-- The window sections (R320): flags, row formats, rows. -/
def frameWindow (x : Group) : List Byte :=
  let rows := (List.range (x.rf.wbytes / 128)).map (rowFormat x)
  let fm := rows.map (fun r => BitVec.ofNat 8 r.1)
  wordFlags x (fun w => w.v == 0) ++ wordFlags x (fun w => w.p) ++ fm ++ List.replicate (512 - fm.length) 0
    ++ rows.flatMap (fun r => r.2)

/-- A group's frame (R320). `ops` are its matrix operations. -/
def groupFrame (x : Group) (ops : List MatOp) (now : Nat) : List Byte :=
  let b := frameHeader x now ++ frameSys x ++ frameFrontier x ++ framePreds x ++ pwBytes x.rf.scal 64 ++ frameSide x
    ++ (List.range 32).flatMap (fun l => laneRecord (x.lane l))
    ++ (List.range 16).flatMap (fun k => portRecord (x.port? k))
    ++ frameMats ops ++ List.replicate 1280 0
  if x.fullFrame then
    let f := b ++ frameWindow x
    f ++ List.replicate (frameLen x.rf.wbytes true - f.length) 0
  else b

/-- The frame of a group as the host sees it (R320): the bytes it has rewritten, if they fail the checks. -/
def State.frameOf (s : State) (g : Nat) (x : Group) : List Byte :=
  x.badFrame.getD (groupFrame x (s.opsOf g x.core) s.cycle)

/-! ### Decoding and the checks of R322 -/

/-- A field of a frame given as bytes. -/
def fld (b : List Byte) (off n : Nat) : Nat := leNat ((b.drop off).take n)

/-- Whether bytes are zero. -/
def zeros (b : List Byte) (off n : Nat) : Bool := ((b.drop off).take n).all (fun x => x == 0)

/-- A lane record is out of range (R321, R322). -/
def laneRefused (v : Nat) : Bool :=
  bitsOf v 97 96 == 3 || decide (16 < bitsOf v 106 102) || decide (4 < bitsOf v 109 107) || bitsOf v 111 110 != 0
    || bitsOf v 159 145 != 0 || bitsOf v 191 169 != 0 || bitsOf v 1023 912 != 0

/-- A matrix record is out of range (R320, R322). -/
def matRefused (b : List Byte) : Bool :=
  let k := fld b 0 1
  decide (5 < k) || (tyOfCode (BitVec.ofNat 5 (fld b 1 1))).isNone || decide (20 < fld b 1 1) || decide (3 < fld b 2 1)
    || decide (15 < fld b 3 1) || (decide (15 < fld b 12 1) && fld b 12 1 != 0xFF) || (decide (15 < fld b 13 1) && fld b 13 1 != 0xFF)
    || decide (15 < fld b 14 1) || decide (15 < fld b 15 1) || !zeros b 224 32

/-- The reserved bits of the system registers in a frame: those of the views (R62), of `%fstat` (R52) and of `%tvec` (R268), and what lies
above each register's width (R69, R320). -/
def frameSysRefused (b : List Byte) : Bool :=
  let sys (off : Nat) : Nat := fld b off 8
  (List.range 4).any (fun k => bitsOf (sys (0x40 + 8 * k)) 15 12 != 0)
    || bitsOf (sys 0x60) 63 5 != 0 || bitsOf (sys 0x68) 63 32 != 0
    || bitsOf (sys 0x78) 11 0 != 0 || bitsOf (sys 0x78) 63 55 != 0 || bitsOf (sys 0x80) 63 32 != 0
    || bitsOf (sys 0x88) 63 9 != 0 || bitsOf (sys 0x90) 63 24 != 0 || bitsOf (sys 0x98) 63 12 != 0 || bitsOf (sys 0xA0) 63 32 != 0

/-- A frame fails the checks of R322. -/
def frameRefused (b : List Byte) (full : Bool) (wbytes : Nat) : Bool :=
  fld b 0 2 != 1 || bitsOf (fld b 0 64) 511 180 != 0 || bitsOf (fld b 0 4) 31 30 == 3
    || frameSysRefused b || !zeros b 0xB8 0x148
    || (List.range 32).any (fun i => bitsOf (fld b (0x200 + 16 * i) 16) 127 70 != 0)
    || !zeros b 0x450 0x30
    || (List.range 32).any (fun l => laneRefused (fld b (0x1700 + 128 * l) 128))
    || (List.range 16).any (fun k => decide (3 < fld b (0x2700 + 256 * k + 192) 1) || !zeros b (0x2700 + 256 * k + 193) 63)
    || (List.range 4).any (fun i => matRefused ((b.drop (0x3700 + 256 * i)).take 256))
    || !zeros b 0x3B00 1280
    || (full && (List.range (wbytes / 128)).any (fun i => (spillLen (fld b (0x5000 + i) 1)).isNone))

/-- A return stack from its entries (R321). -/
def readStack (v n : Nat) : List Ret :=
  ((List.range n).map (fun i =>
    ({ pc := BitVec.ofNat 24 (v >>> (36 * i)), prio := BitVec.ofNat 12 (v >>> (36 * i + 24)) } : Ret))).reverse

/-- A lane from its record; `old` supplies what the record does not hold. -/
def readLane (old : Lane) (v : Nat) : Lane :=
  { old with
    st := if bitsOf v 97 96 = 1 then .live else if bitsOf v 97 96 = 2 then .helper else .empty,
    item := BitVec.ofNat 32 v, age := BitVec.ofNat 32 (v >>> 32), rstate := BitVec.ofNat 32 (v >>> 64),
    rstk := readStack (v >>> 192) (bitsOf v 106 102), hstk := readStack (v >>> 768) (bitsOf v 109 107),
    bctr := BitVec.ofNat 4 (v >>> 98), bout := BitVec.ofNat 16 (v >>> 112), bfail := BitVec.ofNat 16 (v >>> 128),
    psf := v.testBit 144, openN := bitsOf v 168 160 }

/-- A side file from its values and poison. -/
def readPws (b : List Byte) (off n pois : Nat) : Cells PW :=
  (List.range n).foldl (fun (t : Cells PW) k =>
    cput {} t k { v := BitVec.ofNat 64 (fld b (off + 8 * k) 8), p := BitVec.ofNat 2 (pois >>> (2 * k)) }) []

/-- A last-result file from its values and poison. -/
def readLf (b : List Byte) (off pois : Nat) : LFile :=
  { l0 := readPws b off 32 pois, l1 := readPws b (off + 256) 32 (pois >>> 64), l2 := readPws b (off + 512) 32 (pois >>> 128),
    l3 := readPws b (off + 768) 32 (pois >>> 192) }

/-- The frontier entries of a frame, those of the handler or the others. -/
def readFrontier (b : List Byte) (h : Bool) : List Ent :=
  (List.range 32).filterMap (fun i =>
    let v := fld b (0x200 + 16 * i) 16
    if v.testBit 68 && v.testBit 69 == h then
      some { pc := BitVec.ofNat 24 v, prio := BitVec.ofNat 12 (v >>> 24), mask := BitVec.ofNat 32 (v >>> 36) }
    else none)

/-- A port from its record; none for one that is not bound. -/
def readPort (b : List Byte) (k : Nat) : Option Port :=
  let r := (b.drop (0x2700 + 256 * k)).take 256
  let f := fld r 192 1
  if f.testBit 0 then
    some { desc := r.take 64, dpois := f.testBit 1, ahead := [],
           steps := (List.range 32).foldl (fun (t : Cells Nat) l => cput 0 t l (fld r (64 + 4 * l) 4)) [] }
  else none

/-- A matrix operation from its record; the old operation at its place supplies what the record does not hold. -/
def readMat (g : Nat) (old : Option MatOp) (r : List Byte) : Option MatOp :=
  if fld r 0 1 = 0 then none
  else
    let o : MatOp := old.getD { id := 0, g := g, kind := 0 }
    let ty := (tyOfCode (BitVec.ofNat 5 (fld r 1 1))).getD .b8
    let adr (off : Nat) : List Nat := (List.range 32).map (fun l => fld r (off + 2 * l) 2)
    let port (v : Nat) : Option Nat := if v = 0xFF then none else some v
    let k := fld r 0 1
    some { o with
      kind := k, ty := if k = 5 then o.ty else ty, cTy := if k = 5 then ty else o.cTy,
      b16 := (fld r 2 1).testBit 0, suspended := (fld r 2 1).testBit 1, res := fld r 3 1, steps := fld r 4 4, block := fld r 8 4,
      portA := port (fld r 12 1), portB := port (fld r 13 1), cMod := BitVec.ofNat 4 (fld r 14 1), cX := BitVec.ofNat 4 (fld r 15 1),
      adrD := adr 16, adrA := if (port (fld r 12 1)).isSome then [] else adr 80,
      adrB := if (port (fld r 13 1)).isSome then [] else adr 144,
      incA := signedOf 64 (fld r 208 8), incB := signedOf 64 (fld r 216 8) }

/-- The window of a full frame: words with their poison (R76, R320). -/
def readWindow (b : List Byte) (wbytes : Nat) : Cells WP :=
  (List.range (wbytes / 128)).foldl (fun (t : Cells WP) i =>
    let fmt := fld b (0x5000 + i) 1
    let v := fld b (0x5200 + 128 * i) 128
    (List.range 32).foldl (fun (t : Cells WP) k =>
      let w := 32 * i + k
      let z := (fld b (0x4000 + w / 8) 1).testBit (w % 8)
      let p := (fld b (0x4800 + w / 8) 1).testBit (w % 8)
      cput {} t w { v := if z then 0 else BitVec.ofNat 32 (fillWord fmt v k), p := p }) t) []

/-- The state of a header's code (R320). -/
def savedState (n : Nat) : GState := if n = 1 then .parked else if n = 2 then .draining else .pending

/-- A group from a frame; what the frame does not hold stays as it was (R322). -/
def readFrame (x : Group) (g : Nat) (ops : List MatOp) (b : List Byte) (now : Nat) : Group :=
  let h := fld b 0 64
  let sys (off : Nat) : Nat := fld b off 8
  let sp := fld b 0x440 16
  let side := fld b 0x1680 128
  let interval := sys 0xB0
  let handler := h.testBit 16
  { x with
    handler := handler,
    savedFrom := if x.st = .saved ∧ x.savedFrom ≠ .frozen then savedState (bitsOf h 31 30) else x.savedFrom,
    sleepEnd := if h.testBit 19 then some (now + bitsOf h 95 64) else none,
    asyncWd := if h.testBit 20 then some (x.asyncWd.getD { cause := cWATCHDOG }) else none,
    asyncMat :=
      let c := BitVec.ofNat 9 (bitsOf h 29 21)
      if c = 0 then none
      else if (x.asyncMat.map (fun a => a.cause)) = some c then x.asyncMat else some { cause := c, info := 2 ^ 14 },
    wd := { x.wd with armed := interval != 0, interval := interval, w := interval - bitsOf h 127 96 },
    seniority := x.seniority / 2 ^ 32 * 2 ^ 32 + bitsOf h 159 128,
    frontier := readFrontier b false,
    hfrontier := readFrontier b true,
    sr := { x.sr with
      fstat := BitVec.ofNat 64 (sys 0x60), seed := BitVec.ofNat 32 (sys 0x68), zskip := BitVec.ofNat 64 (sys 0x70),
      tvec := BitVec.ofNat 64 (sys 0x78), eos := BitVec.ofNat 32 (sys 0x80),
      trap := { cause := BitVec.ofNat 9 (sys 0x88), pc := BitVec.ofNat 24 (sys 0x90), prio := BitVec.ofNat 12 (sys 0x98),
                mask := BitVec.ofNat 32 (sys 0xA0), info := BitVec.ofNat 64 (sys 0xA8) } },
    rf := { x.rf with
      vw := (List.range 4).foldl (fun (t : Cells Word64) k => cput 0 t k (BitVec.ofNat 64 (sys (0x40 + 8 * k)))) [],
      preds := (List.range 15).foldl (fun (t : Cells Mask) k => cput 0 t k (BitVec.ofNat 32 (fld b (0x400 + 4 * k) 4))) [],
      scal := readPws b 0x480 64 sp,
      ofile := readPws b 0x680 256 side,
      lf := readLf b 0xE80 (side >>> 512),
      lsave := if handler then readLf b 0x1280 (side >>> 768) else {},
      win := if x.fullFrame then readWindow b x.rf.wbytes else x.rf.win },
    lanes := (List.range 32).foldl (fun (t : Cells Lane) l => cput {} t l (readLane (x.lane l) (fld b (0x1700 + 128 * l) 128))) [],
    ports := (List.range 16).foldl (fun (t : Cells (Option Port)) k => cput none t k (readPort b k)) [],
    mats := (List.range 4).filterMap (fun i => readMat g (ops[i]?) ((b.drop (0x3700 + 256 * i)).take 256)) }

/-! ### The save area (R266, R271, R320) -/

/-- The parts of a context's save area in use: saved clusters, and frames of groups that no saved cluster holds. -/
def State.saveUsed (s : State) (c : Nat) : List (Nat × Nat) :=
  let ofCtx (l : Nat) : Bool := ((s.launch? l).map (fun (q : Launch) => q.ctx)) == some c
  (s.clusters.filterMap (fun p => if ofCtx p.2.launch then p.2.saveAt.map (fun a => (a, p.2.saveLen)) else none))
    ++ s.groups.filterMap (fun p => if p.2.ctx = c ∧ p.2.st ≠ .saved then
        p.2.frameAt.map (fun a => (a, frameLen p.2.rf.wbytes p.2.fullFrame)) else none)

/-- The first place of n bytes in a context's save area: at its base, or after a part in use. -/
def State.saveSpace (s : State) (c n : Nat) : Option Nat :=
  let d := (s.ctx c).desc
  let used := s.saveUsed c
  let fits (a : Nat) : Bool := decide (d.saveb ≤ a) && decide (a + n ≤ d.saveb + 65536 * d.savesz)
    && used.all (fun u => !rangesMeet a n u.1 u.2)
  (d.saveb :: used.map (fun u => (u.1 + u.2 + 4095) / 4096 * 4096)).find? fits

/-- Writes a group's frame at its place in the save area; saving the window wakes its granules (R74, R320). -/
def State.writeFrame (s : State) (g : Nat) : State :=
  match s.group? g with
  | none => s
  | some x => match x.frameAt with
    | some a => (if x.fullFrame then s.wakeGranules g x.granules else s).homeWrite a (s.frameOf g x) false
    | none => s

/-- A frame of a group that is parked or frozen is written, if the area has room (R318, R273; log 16). -/
def State.placeFrame (s : State) (g : Nat) : State :=
  match s.group? g with
  | none => s
  | some x =>
    match x.frameAt with
    | some _ => s.writeFrame g
    | none => match s.saveSpace x.ctx (frameLen x.rf.wbytes x.fullFrame) with
      | some a => (s.setGroup g { x with frameAt := some a }).writeFrame g
      | none => s

/-! ### Leaving the core (R244, R273, R318) -/

/-- A group's matrix operations leave the core's queue with the group, at a K-step boundary (R244). -/
def State.stashMatrix (s : State) (g core : Nat) : State :=
  let ops := (s.core core).mq.filter (fun o => o.g == g)
  if ops.isEmpty then s
  else (s.modCore core (fun c => { c with mq := c.mq.filter (fun o => o.g != g) })).modGroup g (fun x =>
    { x with mats := x.mats ++ ops.map (fun o => { o with running := false }) })

/-- A frame that fails its checks, as a full frame: a parking frame with the window's sections after it (R318, R320). -/
def Group.wholeBad (x : Group) : Option (List Byte) :=
  x.badFrame.map (fun b =>
    if b.length = 0x4000 then
      let f := b ++ frameWindow x
      f ++ List.replicate (frameLen x.rf.wbytes true - f.length) 0
    else b)

end Sys2Proof.Machine
end

