-- ==== Sys2Proof/Machine/Ops.lean ====
section
/-! DEFINITION. The named operations over the state: error records and events, register space and side files, taking a trap and returning
from one. -/

namespace Sys2Proof.Machine

/-! ### Events and completions (R441) -/

/-- The entries of the command and completion rings (R438: ICBASE). -/
def State.ringSize (s : State) : Nat := 2 ^ (6 + min 6 (s.host.icbase.extractLsb' 0 4).toNat)

/-- The entries of the completion ring that the host has not freed. -/
def State.ringUsed (s : State) : Nat := (s.host.cctail - s.host.cchead).toNat

/-- The 16 bytes of a completion entry (R441). -/
def Compl.bytes (c : Compl) (lost : Bool) : List Byte :=
  leBytes 2 c.tag.toNat ++ leBytes 2 c.status.toNat ++ leBytes 1 (if lost then 1 else 0) ++ leBytes 3 0
    ++ leBytes 8 c.result.toNat

/-- Writes one entry of the completion ring at CCTAIL, advances it and signals the vector: 0 for a command's completion,
1 for an event (R441). -/
def State.putCompl (s : State) (c : Compl) : State :=
  let at_ := (s.host.ccbase.toNat / 4096 * 4096) + 16 * (s.host.cctail.toNat % s.ringSize)
  let ev := c.tag == 0xFFFF
  { s with
    hostMem := cputs 0 s.hostMem at_ (c.bytes (ev && s.evLost)),
    evLost := if ev then false else s.evLost,
    host := { s.host with cctail := s.host.cctail + 1 },
    msix := s.msix ++ [if ev then 1 else 0] }

/-- Buffered events enter the ring while it has free slots (R441). -/
def State.flushEvents : Nat → State → State
  | 0, s => s
  | n + 1, s =>
    match s.evbuf with
    | [] => s
    | c :: r => if s.ringUsed < s.ringSize then State.flushEvents n ({ s with evbuf := r }.putCompl c) else s

/-- An event entry: into the ring, else into the hub buffer of 256, else dropped and counted (R441). -/
def State.putEvent (s : State) (status : BitVec 16) (result : Word64) : State :=
  let c : Compl := { tag := 0xFFFF, status := status, result := result }
  if s.evbuf.isEmpty && decide (s.ringUsed < s.ringSize) then s.putCompl c
  else if s.evbuf.length < 256 then { s with evbuf := s.evbuf ++ [c] }
  else { s with evLost := true, errCounts := cput 0 s.errCounts 0 (cget 0 s.errCounts 0 + 1) }

/-- An event whose status and result the manual does not give: free values (log 3). -/
def State.notify (s : State) : State :=
  let (a, s) := s.fresh 16
  let (b, s) := s.fresh 64
  s.putEvent a b

/-! ### Error records (R422 to R425) -/

/-- The fields of an error record that its writer gives; the rest follow from the state (R423). -/
structure ErrRec where
  cause : Cause
  sev : Nat
  scope : Nat := 0
  scause : Cause := 0
  unit : Nat := 0
  die : Nat := 15
  ctxn : Nat := 0
  group : Nat := 0
  gcore : Nat := 0
  pc : Nat := 0
  mask : Mask := 0
  item : Nat := 0
  addr : Nat := 0
  origin : Option Nat := none
  orgv : Bool := false
  stream : Option (Nat × Nat) := none   -- port, step counter
  synd : Nat := 0
  deriving DecidableEq, Repr

/-- The 60 bytes of a record before its CRC (R423). -/
def ErrRec.body (r : ErrRec) (timebase step : Word64) (ovf : Bool) : List Byte :=
  leBytes 60 (packFields [
    (r.cause.toNat, 0), (r.scause.toNat, 12), (r.sev, 21), (r.scope, 23), (r.unit, 25), (r.die, 31), (r.ctxn, 35),
    (r.group, 42), (r.gcore, 46), (if ovf then 1 else 0, 65), (if r.orgv then 1 else 0, 66),
    (if r.stream.isSome then 1 else 0, 67), ((r.stream.getD (0, 0)).1, 68), (r.pc, 72), (r.mask.toNat, 96), (r.item, 128),
    ((r.stream.getD (0, 0)).2, 160), (step.toNat, 192), (r.addr, 256), (r.origin.getD (2 ^ 64 - 1), 320), (r.synd, 384),
    (timebase.toNat, 416)])

/-- The 64 bytes of a record: its body and the CRC-32 of the body (R423). -/
def ErrRec.bytes (r : ErrRec) (timebase step : Word64) (ovf : Bool) : List Byte :=
  let b := r.body timebase step ovf
  b ++ leBytes 4 (crc32 b).toNat

/-- Counts a record of a cause (R277, R422). -/
def State.countErr (s : State) (c : Cause) : State :=
  { s with errCounts := cput 0 s.errCounts c.toNat (cget 0 s.errCounts c.toNat + 1) }

/-- Appends a record to a queue of `cap` entries at `base`; a full queue drops it and marks the next one (R422). -/
def State.appendErr (s : State) (q : ErrQ) (cap base : Nat) (r : ErrRec) (step : Word64) : State × ErrQ :=
  if q.count ≥ cap then (s, { q with ovf := true })
  else
    (s.homeWrite (base + 64 * ((q.head + q.count) % cap)) (r.bytes s.timebase step q.ovf) false,
     { q with count := q.count + 1, ovf := false })

/-- Interrupts the host as the severity says: not for CORRECTED, at most once per ms for ADVISORY (R424). -/
def State.signalErr (s : State) (sev : Nat) : State :=
  if sev = sevCORRECTED then s
  else if sev = sevADVISORY then
    match s.advTime with
    | some t => if s.timebase.toNat < t + Config.milli then s else { s.notify with advTime := some s.timebase.toNat }
    | none => { s.notify with advTime := some s.timebase.toNat }
  else s.notify

/-- Writes an error record: counted, put into its queue, and signalled. A CORRECTED record of one unit and cause is written
at most once per second (R422 to R424). -/
def State.writeErr (s : State) (r : ErrRec) : State :=
  let s := s.countErr r.cause
  let recent := r.sev == sevCORRECTED && s.corrTimes.any (fun x =>
    x.1 == r.unit && x.2.1 == r.cause.toNat && decide (s.timebase.toNat < x.2.2 + Config.second))
  if recent then s
  else
    let s := if r.sev = sevCORRECTED then
      { s with corrTimes := (s.corrTimes.filter (fun x => !(x.1 == r.unit && x.2.1 == r.cause.toNat)))
                  ++ [(r.unit, r.cause.toNat, s.timebase.toNat)] } else s
    let s :=
      if r.scope ≤ 1 then
        let c := s.ctx r.ctxn
        let (s', q) := s.appendErr c.errq c.desc.errqn c.desc.errqb r c.step
        s'.modCtx r.ctxn (fun c => { c with errq := q })
      else
        let (s', q) := s.appendErr s.modErrq 4096 s.host.eqbase.toNat r 0
        { s' with modErrq := q }
    s.signalErr r.sev

/-- The record of an event of a group (R423). -/
def State.groupRec (s : State) (x : Group) (cause : Cause) (mask : Mask) (pc : BitVec 24) : ErrRec :=
  { cause := cause, sev := severity cause, scope := 0, unit := 0, die := dieOf x.core, ctxn := x.ctx, group := x.num,
    gcore := s.gcore x.core, pc := pc.toNat, mask := mask, item := (x.lane (lowLane mask)).item.toNat }

/-! ### Register space and side files (R61, R66) -/

/-- Skipped array accesses are counted in `%zskip` (R61, R69). -/
def Group.skip (x : Group) (n : Nat) : Group := { x with sr := { x.sr with zskip := x.sr.zskip + BitVec.ofNat 64 n } }

/-- `rswrite` (R61): bytes of an accumulator element that are written as bytes, RES among them, stay as given (log 88). -/
def Group.rswrite (x : Group) (a n v : Nat) (p : Bool) : Group :=
  let (t, k) := writeWords x.rf.win a n v p
  { x with rf := { x.rf with win := t } }.skip k

/-- One result write (R61, R66). -/
def Group.applyWrite (x : Group) : RWrite → Group
  | .rs a n v p => x.rswrite a n v p
  | .opf k l y => { x with rf := { x.rf with ofile := cput {} x.rf.ofile (32 * k + l) y } }
  | .scal k y => { x with rf := { x.rf with scal := cput {} x.rf.scal k y } }

/-- The shift of R67, with the new result in l0. -/
def LFile.shift (f : LFile) (e : Cells PW) : LFile := { l0 := e, l1 := f.l0, l2 := f.l1, l3 := f.l2 }

/-- One pending instruction completes: its writes and its last-result entry (R67, R88). -/
def Group.complete (x : Group) (p : Pend) : Group :=
  let x := p.writes.foldl Group.applyWrite x
  match p.lpos with
  | some k => { x with rf := { x.rf with lf := x.rf.lf.setEntry k p.lvals } }
  | none => x

/-- The granules of the window that a pending instruction writes (R74). -/
def Pend.granules (p : Pend) : List Nat :=
  (p.writes.flatMap (fun w => match w with
    | .rs a n _ _ => if n = 0 then [] else (List.range ((a % 4096 + n + 4095) / 4096)).map (fun i => a / 4096 + i)
    | _ => [])).eraseDups

/-- The drowsy granules that the outstanding instructions of a group have still to write (R74). -/
def Group.lateWakes (x : Group) : List Nat :=
  ((x.pend.flatMap Pend.granules).eraseDups).filter (fun k => cget GranSt.awake x.rf.gran k == .drowsy)

/-- Every outstanding long-latency instruction completes and the windows close; a queued MCVT stays (R88, R165, R218). The drowsy granules
that they write wake (R74). -/
def Group.completeAll (x : Group) : Group :=
  let gran := x.lateWakes.foldl (fun (t : Cells GranSt) k => cput .awake t k .awake) x.rf.gran
  let y := x.pend.foldl Group.complete x
  { y with pend := [], cvts := x.cvts.map (fun q => { q with window := 0 }), rf := { y.rf with gran := gran } }

/-- The wakes of a group whose outstanding instructions complete are counted (R74, R176). -/
def State.countLate (s : State) (x : Group) : State :=
  if x.lateWakes.isEmpty then s else s.count x.core 7 x.lateWakes.length

/-- Groups of a core that were held look at their instruction again (R306). -/
def State.unhold (s : State) (core : Nat) : State :=
  { s with groups := s.groups.map (fun p => (p.1, if p.2.core = core then { p.2 with held := false } else p.2)) }

/-- Every held group looks again. -/
def State.unholdAll (s : State) : State :=
  { s with groups := s.groups.map (fun p => (p.1, { p.2 with held := false })) }

/-! ### Taking a trap, and returning from it (R165, R166, R273, R315) -/

/-- Dispatch of a context stops and it is FAULTED; the causes belong to its first double fault (R273, R277). A context that
is SAVING finishes its save first (R272). -/
def State.faultCtx (s : State) (c : Nat) (cause entering : Cause) : State :=
  s.modCtx c (fun x =>
    match x.st with
    | .idle | .active => { x with st := .faulted, fcause := cause, pcause := entering }
    | .saving => if x.faultAfterSave then x else { x with faultAfterSave := true, fcause := cause, pcause := entering }
    | _ => x)

/-- A group is frozen: outstanding instructions complete, its matrix operations stop, and its frame is saved (R273). -/
def State.freeze (s : State) (g : Nat) (x : Group) : State :=
  let s := s.countLate x
  let x := x.completeAll
  ((s.setGroup g { x with st := .frozen, sketch := none, wait := none, waitHeld := none }).stashMatrix g x.core).placeFrame g

/-- The record of a cause met by a group, with its poison origin: ORGV says that the group that now consumes is the one that received the delivery
(R421, R423). -/
def State.causeRec (s : State) (g : Nat) (x : Group) (cause : Cause) (mask : Mask) (pc : BitVec 24) (info : Word64)
    (more : ErrRec → ErrRec) : ErrRec :=
  let r := more (s.groupRec x cause mask pc)
  let r := if cause = cPOISON_CONSUMED then
    match (s.core x.core).porg with
    | some (a, slot, who) => { r with origin := some a, orgv := x.slot == some slot && who == g }
    | none => r
    else r
  if info ≠ 0 ∧ (cause = cSHADOW_DIVERGE ∨ cause = cRESIDUE_FAIL) then { r with synd := info.toNat % 2 ^ 15, unit := 5 } else r

/-- A double fault: the group is frozen with handler mode kept, a FATAL record is written with what the second cause says, and the context is
FAULTED (R273, R423). -/
def State.doubleFault (s : State) (g : Nat) (x : Group) (cause : Cause) (mask : Mask) (pc : BitVec 24) (info : Word64)
    (more : ErrRec → ErrRec) : State :=
  let r := { s.causeRec g x cause mask pc info more with sev := sevFATAL, scope := 1, scause := x.sr.trap.cause }
  ((s.freeze g x).writeErr r).faultCtx x.ctx cause x.sr.trap.cause

/-- The record that a trap writes (R425). -/
def State.trapRec (s : State) (g : Nat) (x : Group) (cause : Cause) (mask : Mask) (pc : BitVec 24) (info : Word64)
    (more : ErrRec → ErrRec) : State :=
  if trapRecords cause then s.writeErr (s.causeRec g x cause mask pc info more) else s

/-- Counters of the causes that R176 counts. -/
def State.trapCount (s : State) (core : Nat) (cause : Cause) : State :=
  if cause = cLA_HAZARD then s.count core 8 1
  else if cause = cUNIFORMITY then s.count core 9 1
  else s

/-- A shadow or residue check fails on a core: triage counts it (R426). -/
def State.checkFailed (s : State) (core : Nat) : State :=
  s.modCore core (fun c => { c with checkFails := c.checkFails ++ [s.timebase.toNat] })

/-- A walk that PTE_CRIT has ended is over: its re-reads have been made (R360). -/
def State.critOver (s : State) (cause : Cause) : State :=
  if cause = cPTE_CRIT then { s with phys := { s.phys with critBad := none } } else s

/-- The handler's return stacks are empty at trap entry and discarded at the return (R157). -/
def clearHandlerStacks (ls : Cells Lane) : Cells Lane :=
  (List.range 32).foldl (fun (ls : Cells Lane) l => cput ({} : Lane) ls l { cget ({} : Lane) ls l with hstk := [] }) ls

/-- Trap entry (R165, R315): outstanding instructions complete and windows close, the trap registers are written, the
last-result file is copied aside, and the faulting lanes leave their entry to form the handler's sole entry at the slot of
the cause. In handler mode it is a double fault (R168, R273). `more` completes the record of a cause that writes one. -/
def State.enterTrap (s : State) (g : Nat) (cause : Cause) (mask : Mask) (info : Word64) (more : ErrRec → ErrRec) : State :=
  match s.group? g with
  | none => s
  | some x =>
    let e := (x.chosen).getD { pc := 0, prio := 0, mask := 0 }
    let s := ((s.critOver cause).trapCount x.core cause)
    if x.handler then s.doubleFault g x cause mask e.pc info more
    else
      let s := s.countLate x
      let x := x.completeAll
      let s := s.trapRec g x cause mask e.pc info more
      s.setGroup g { x with
        handler := true,
        held := false,
        sketch := none,
        frontier := removeLanes x.frontier mask,
        hfrontier := insertLanes [] (BitVec.ofNat 24 (64 * cause.toNat)) 0xFFF mask,
        sr := { x.sr with trap := { cause := cause, pc := e.pc, prio := e.prio, mask := mask, info := info } },
        rf := { x.rf with lsave := x.rf.lf },
        lanes := clearHandlerStacks x.lanes }

/-- A precise trap, whose record names an address (R165, R425). -/
def State.takeTrap (s : State) (g : Nat) (cause : Cause) (mask : Mask) (info : Word64) (addr : Nat) : State :=
  s.enterTrap g cause mask info (fun r => { r with addr := addr })

/-- RFT (R166): handler mode ends, every handler entry is discarded, `l0`–`l3` are restored, and the lanes of `%tmask` are
inserted at `%tpc`, or one past it, modulo 2^24 (log 87). Lanes that are empty by then enter no entry (R153). A barrier wait that the trap
interrupted goes on when its instruction is the one that RFT goes back to (log 15). -/
def Group.returnFromTrap (x : Group) (skip : Bool) : Group :=
  let t := x.sr.trap
  { x with
    handler := false,
    hfrontier := [],
    wait := if skip then none else x.waitHeld.filter (fun w => w.pc == t.pc),
    waitHeld := none,
    frontier := insertLanes x.frontier (if skip then t.pc + 1 else t.pc) t.prio (t.mask &&& ~~~x.empties),
    sr := { x.sr with trap := {} },
    rf := { x.rf with lf := x.rf.lsave },
    lanes := clearHandlerStacks x.lanes }

end Sys2Proof.Machine
end

