-- ==== Sys2Proof/Machine/Route.lean ====
section
/-! DEFINITION. Routes on the fabric: the links, coordinates and distances (R263), port weights (R396, R397, R399), sequence numbers and
kept responses (R398, R400), and the requests that have no route (R400). -/

namespace Sys2Proof.Machine

/-- The links: compute links 0 to 7, memory links 8 to 11, fabric ports 12 to 23, as LSTAT numbers them (R438). -/
def State.link (s : State) (k : Nat) : Link := cget {} s.links k
/-- Changes a link. -/
def State.modLink (s : State) (k : Nat) (f : Link → Link) : State := { s with links := cput {} s.links k (f (s.link k)) }

/-- A link carries nothing now: it has gone DOWN or is being trained. RESET stands before bring-up has trained the link, when no group runs
(R386, R387, log 108). -/
def State.linkStopped (s : State) (k : Nat) : Bool := (s.link k).st == .down || (s.link k).st == .train

/-- The memory die of a physical address: of its stack, or of its channel (R372, R382). -/
def memDie (pa : Nat) : Nat := if pa.testBit 42 then bitsOf pa 15 12 / 4 else pa % 2 ^ 43 / 128 % 12 / 3

/-- A physical address cannot be reached from a core now: its die's link, or the link of the memory die, carries nothing (R386). -/
def State.linkBlocked (s : State) (core pa : Nat) : Bool :=
  s.linkStopped (dieOf core) || (pa >>> 43 == s.modnum.toNat && s.linkStopped (8 + memDie pa))

/-- The torus coordinates of a module (R263). -/
def torusXyz (m : Nat) : List Nat := [m % 6, m / 6 % 6, m / 36]

/-- The sizes of the torus (R263). -/
def torusSize : List Nat := [6, 6, 12]

/-- The module at coordinates (R263). -/
def torusModule (v : List Nat) : Nat := (v[0]?).getD 0 + 6 * (v[1]?).getD 0 + 36 * (v[2]?).getD 0

/-- The hops of one dimension (R263). -/
def dimHops (size a b : Nat) : Nat :=
  let d := max a b - min a b
  min d (size - d)

/-- The hops between two modules of the torus (R263). -/
def torusHops (a b : Nat) : Nat :=
  ((torusXyz a).zip ((torusXyz b).zip torusSize)).foldl (fun n x => n + dimHops x.2.2 x.1 x.2.1) 0

/-- The physical module of a logical one: its spare after a recovery (R415). -/
def State.physMod (s : State) (m : Nat) : Nat := (tget? s.lmap m).getD m

/-- The physical number of this module. -/
def State.ownPhys (s : State) : Nat := s.physMod s.modnum.toNat

/-- The neighbour that a fabric port leads to in torus mode (R396). -/
def State.neighbour (s : State) (f : Nat) : Nat :=
  let dim := f / 4
  let size := (torusSize[dim]?).getD 1
  let v := torusXyz s.ownPhys
  let x := (v[dim]?).getD 0
  torusModule (v.set dim (if f / 2 % 2 = 0 then (x + 1) % size else (x + size - 1) % size))

/-- The weight of a fabric port: 2 FULL, 1 HALF, 0 in every other state and, in torus mode, toward a module whose routes are
withdrawn (R397, R399). -/
def State.portWeight (s : State) (f : Nat) : Nat :=
  if !s.host.fabmode && s.withdrawn.contains (s.neighbour f) then 0
  else match (s.link (12 + f)).st with
    | .full => 2
    | .half => 1
    | _ => 0

/-- The two ports of a direction of a dimension: + first (R396). -/
def dirPorts (dim : Nat) (plus : Bool) : List Nat := [4 * dim + (if plus then 0 else 2), 4 * dim + (if plus then 1 else 3)]

/-- A dimension has a usable direction (R396). -/
def State.dimRoute (s : State) (dim : Nat) : Bool := (dirPorts dim true ++ dirPorts dim false).any (fun f => s.portWeight f != 0)

/-- A physical module is fenced: a recovery has declared its logical module lost and withdrawn the routes to it (R415). -/
def State.fenced (s : State) (m : Nat) : Bool := s.withdrawn.contains m && s.recov.lost.any (fun l => s.physMod l == m)

/-- A packet toward a physical module can leave: by a port of its routing entry, or by a direction of the first dimension in which
the coordinates differ (R396, R397, R399, R415). In torus mode a withdrawal takes the weight of the ports toward the module, in switched
mode that of its entry. -/
def State.hasRoute (s : State) (m : Nat) : Bool :=
  if s.fenced m then false
  else if s.host.fabmode then
    !s.withdrawn.contains m && (List.range 12).any (fun f => (cget 0 s.routes m).getLsbD f && s.portWeight f != 0)
  else
    match ((torusXyz s.ownPhys).zip ((torusXyz m).zip [0, 1, 2])).find? (fun x => x.1 != x.2.1) with
    | some x => s.dimRoute x.2.2
    | none => true

/-- A module has a current route: this one, or one that packets can leave toward (R263, R397). -/
def State.reaches (s : State) (m : Nat) : Bool := m == s.ownPhys || s.hasRoute m

/-- The hop distance from one physical module to another, none where either has no current route (R263). In switched mode the routing
table gives the distances from this module only: between two others the distance is a free value, the `n`-th (log 92). -/
def State.moduleHops (s : State) (a b n : Nat) : Option Nat :=
  if !s.reaches a || !s.reaches b then none
  else if s.host.fabmode = false then some (torusHops a b)
  else if a = s.ownPhys then some (bitsOf (cget 0 s.routes b).toNat 19 12)
  else if b = s.ownPhys then some (bitsOf (cget 0 s.routes a).toNat 19 12)
  else some (Config.freeValue 8 n).toNat

/-! ### Requests to other modules (R398, R400) -/

/-- A request of this agent to a logical module is held: no fabric request is issued in forward-only state (R399), the module has no
route or is itself in forward-only state (R399), or the request that the agent holds has not been sent again (R400). -/
def State.pathHeld (s : State) (who m : Nat) : Bool :=
  m != s.modnum.toNat && (s.fwd.isSome || s.withdrawn.contains (s.physMod m) || !s.hasRoute (s.physMod m)
    || s.fabric.any (fun r => r.who == who && r.dst == m))

/-- Why a request to a logical module is held: the module answers that it is resetting, or no route leads to it (R399 to R401). -/
def State.heldCause (s : State) (m : Nat) : Cause :=
  if s.withdrawn.contains (s.physMod m) && s.hasRoute (s.physMod m) then cMODULE_RESETTING else cPATH_LOST

/-- A request that a resetting module has turned away, or that has no route: its sender holds it, and writes a record the first time (R399,
R400). -/
def State.holdPath (s : State) (who m : Nat) (r : ErrRec) : State :=
  if s.fwd.isSome || s.fabric.any (fun r => r.who == who && r.dst == m) then s
  else
    let c := s.heldCause m
    ({ s with fabric := s.fabric ++ [{ seq := cget 0 s.fabSeq m, dst := m, who := who }] } : State).writeErr { r with cause := c, sev := severity c }

/-- A flit to another module comes back as path-lost (R400): a write request that is on its way is sent again, and at its fourth return a record
is written; where the request has been performed and its response was lost, the home agent gives the response that it has kept. -/
def State.pathReturned (s : State) (dst seq : Nat) : State :=
  let mine (r : MergeReq) : Bool := r.pa >>> 43 == dst && r.scr.isNone && r.seq == some seq
  let s' : State := { s with mergeQ := s.mergeQ.map (fun r => if mine r then { r with due := max r.due (s.cycle + 1), returns := r.returns + 1 } else r) }
  if s.mergeQ.any (fun r => mine r && r.returns == 3) then
    s'.writeErr { cause := cPATH_LOST, sev := severity cPATH_LOST, scope := 2, unit := 13, die := 12 }
  else s'

/-- The agent number of the hub's own accesses. -/
def hubAgent : Nat := 8194

/-- The agent number of a group, for the requests that it holds. -/
def Group.agent (x : Group) : Nat := 2 * (16 * x.team + x.num)
/-- The agent number of a channel. -/
def chanAgent (core c : Nat) : Nat := 2 * (8 * core + c) + 1

end Sys2Proof.Machine
end

