-- ==== Sys2Proof/Machine/Page.lean ====
section
/-! DEFINITION. Translation: tables and walk (R353 to R360), outcomes (R361), parking and the wait table (R318, R362 to R367). -/

namespace Sys2Proof.Machine

/-- What an access does, for its permission and for the KIND of a fault record (R357, R365); a copy's access says whether its
template names tier SCM (R196). -/
inductive AccKind where
  | read | write | atomic | fetch | copyRead (scm : Bool) | copyWrite (scm : Bool) | pop | push | pref
  deriving DecidableEq, Repr

/-- The KIND code of R365. -/
def AccKind.code : AccKind → Nat
  | .read | .pref => 0 | .write => 1 | .atomic => 2 | .fetch => 3 | .copyRead _ => 4 | .copyWrite _ => 5 | .pop => 6 | .push => 7

/-- Whether the access writes. -/
def AccKind.writes : AccKind → Bool
  | .write | .atomic | .copyWrite _ | .push => true
  | _ => false

/-- The tier that the access may reach: only a copy that names it reaches SCM, and then SCM alone (R20, R196). -/
def AccKind.scm : AccKind → Bool
  | .copyRead b | .copyWrite b => b
  | _ => false

/-- The unit whose TLB serves an access (R360): 0 core, 1 channels, 2 streams, 3 etcher. -/
def AccKind.tlb : AccKind → Nat
  | .copyRead _ | .copyWrite _ => 1
  | .pop | .push => 2
  | _ => 0

/-- Populated HBM of a module: 672 GiB (R353). -/
def hbmBytes : Nat := 672 * 2 ^ 30
/-- The populated end of the SCM window within a module (R353). -/
def scmEnd : Nat := 2 ^ 42 + 3 * 2 ^ 40

/-- Whether PA bytes lie wholly in populated memory of one tier window (R353). -/
def populated (pa n : Nat) : Bool :=
  let o := pa % 2 ^ 43
  decide (o + n ≤ hbmBytes) || (decide (2 ^ 42 ≤ o) && decide (o + n ≤ scmEnd))

/-- The index shift of a level (R354). -/
def lvlShift (level : Nat) : Nat := if level = 3 then 42 else if level = 2 then 29 else 16

/-- The address of the table entry of a level (R354). -/
def entryAddr (base va level : Nat) : Nat := base + 8 * ((va >>> lvlShift level) % 8192)

/-- A present entry is malformed (R356); `level` is the level it was read at. -/
def malformed (e level : Nat) : Bool :=
  let leaf := e.testBit 1
  let pfn := bitsOf e 51 16
  bitsOf e 55 52 != 0 || bitsOf e 15 13 != 0
    || (if leaf then
          pfn % 2 ^ (lvlShift level - 16) != 0 || bitsOf e 6 5 == 3 || (e.testBit 3 && !e.testBit 2)
            || (e.testBit 7 != (pfn * 2 ^ 16).testBit 42) || !populated (pfn * 2 ^ 16) (2 ^ lvlShift level)
        else bitsOf e 12 2 != 0 || level == 1 || decide (hbmBytes < (pfn * 2 ^ 16) % 2 ^ 43 + 2 ^ 16))

/-- Where a walk ends (R361). -/
inductive WalkOut where
  | leaf (pte level addr : Nat)
  | bad (c : Cause)
  | absent (level addr : Nat)
  deriving DecidableEq, Repr

/-- Memory as a walk reads it: writes that a fence or a release of their agent has ordered before what followed have been performed (R359). -/
def State.walkView (s : State) : State :=
  match s.mergeQ.filter (fun r => r.fenced && r.scr.isNone) with
  | [] => s
  | q => q.foldl State.applyReq s

/-- A table entry, from the die's walk cache (pointers of levels 3 and 2) or from memory, and whether its sector is
poisoned (R359, R360). -/
def State.tableEntry (s : State) (die : Nat) (asid : BitVec 16) (va level addr : Nat) : Nat × Bool :=
  match s.wcache.find? (fun t => t.place == die && t.asid == asid && t.level == level && t.tag == va >>> lvlShift level) with
  | some t => (t.pte.toNat, false)
  | none => let t := s.walkView; (leNat (t.memBytes addr 8), t.memPoison addr 8)

/-- The walk from a level down (R354, R356, R360). A CRIT leaf is read again; CRITEN turns that off for a compute die alone, so the
module's own walkers (die 15) always read again (R428). -/
def State.walkFrom (s : State) (die : Nat) (asid : BitVec 16) (va : Nat) : Nat → Nat → WalkOut
  | 0, _ => .bad cPTE_INVALID
  | k + 1, base =>
    let level := k + 1
    let addr := entryAddr base va level
    let (e, pois) := s.tableEntry die asid va level addr
    if pois then .bad cPTE_POISON
    else if e.testBit 0 = false then .absent level addr
    else if malformed e level then .bad cPTE_INVALID
    else if e.testBit 1 then
      if e.testBit 8 && (decide (8 ≤ die) || s.host.protcfg.toNat.testBit die) && s.phys.critBad == some addr then .bad cPTE_CRIT
      else .leaf e level addr
    else s.walkFrom die asid va k (bitsOf e 51 16 * 2 ^ 16)

/-- The walk of an address in a context's space, from level 3 (R354). -/
def State.walk (s : State) (die : Nat) (d : CtxDesc) (va : Nat) : WalkOut := s.walkFrom die d.asid va 3 d.ptroot

/-- The physical address under a leaf (R354). -/
def leafPa (pte level va : Nat) : Nat := bitsOf pte 51 16 * 2 ^ 16 + va % 2 ^ lvlShift level

/-- The address in place of an entry's where a cached leaf serves an access: no entry lies there. -/
def noEntry : Nat := 2 ^ 64

/-- The outcome of one translation, in the order of R361 after the tier check of R357. -/
inductive XOut where
  | ok (pa pte level addr : Nat)
  | tier
  | bad (c : Cause)
  | perm
  | absent (level addr : Nat)
  | mig
  | cw
  deriving DecidableEq, Repr

/-- The permission that an access needs is lacking (R357). -/
def lacksPerm (k : AccKind) (pte : Nat) : Bool :=
  match k with
  | .read | .pop | .copyRead _ | .pref => !pte.testBit 2
  | .write | .push | .copyWrite _ => !pte.testBit 3
  | .atomic => !pte.testBit 2 || !pte.testBit 3
  | .fetch => !pte.testBit 4

/-- What a leaf gives an access (R357, R361, R370). -/
def leafOut (k : AccKind) (va pte level addr : Nat) : XOut :=
  if pte.testBit 7 != k.scm then .tier
  else if lacksPerm k pte then .perm
  else if pte.testBit 11 then .mig
  else if pte.testBit 10 && k.writes then .cw
  else .ok (leafPa pte level va) pte level addr

/-- A cached leaf of a unit (R360). -/
def State.tlbFind (s : State) (unit place : Nat) (asid : BitVec 16) (va : Nat) : Option TlbEnt :=
  s.tlbs.find? (fun t => t.unit == unit && t.place == place && t.asid == asid && t.tag == va >>> lvlShift t.level)

/-- A page of this module that the etcher has still to copy for a boundary that the context's `%step` has passed: the home agents refuse
the context's writes to it, through whatever leaf they come (R259, R409). -/
def State.stepRefuses (s : State) (asid : BitVec 16) (pa : Nat) : Bool :=
  s.etches.any (fun p => p.2.busy && !p.2.pages.isEmpty && (s.ctx p.1).desc.asid == asid
    && decide (p.2.boundary < (s.ctx p.1).step.toNat) && pa >>> 43 == s.modnum.toNat && p.2.pages.contains (pa % 2 ^ 43 / 65536))

/-- The outcome of a translation, with the refusal of a later step's write: the writer waits under the page key as for CW (R409). -/
def State.stepHeld (s : State) (asid : BitVec 16) (k : AccKind) (o : XOut) : XOut :=
  match o with
  | .ok pa pte level addr => if k.writes && s.stepRefuses asid pa then .cw else .ok pa pte level addr
  | o => o

/-- What a walk gives an access. -/
def State.walked (s : State) (die : Nat) (d : CtxDesc) (k : AccKind) (va : Nat) : XOut :=
  match s.walk die d va with
  | .leaf pte level addr => s.stepHeld d.asid k (leafOut k va pte level addr)
  | .bad c => .bad c
  | .absent level addr => .absent level addr

/-- Translates one address for a unit: through a cached leaf, or by a walk. A write through a cached leaf with D = 0 walks
anew (R358). -/
def State.xlate (s : State) (core : Nat) (d : CtxDesc) (k : AccKind) (va : Nat) : XOut :=
  match s.tlbFind k.tlb core d.asid va with
  | some t =>
    if k.writes && !t.pte.toNat.testBit 9 then s.walked (dieOf core) d k va
    else s.stepHeld d.asid k (leafOut k va t.pte.toNat t.level noEntry)
  | none => s.walked (dieOf core) d k va

/-- Adds a leaf to a TLB, dropping the oldest entries beyond the unit's capacity (R360). -/
def State.tlbFill (s : State) (unit place : Nat) (asid : BitVec 16) (va pte level : Nat) : State :=
  let cap := if unit = 0 then 512 else if unit = 1 then 64 else if unit = 2 then 128 else 256
  let tag := va >>> lvlShift level
  let rest := s.tlbs.filter (fun t => !(t.unit == unit && t.place == place && t.asid == asid && t.level == level && t.tag == tag))
  let own := rest.filter (fun t => t.unit == unit && t.place == place)
  let rest := if own.length ≥ cap then
    match own.getLast? with
    | some o => rest.filter (fun t => t != o)
    | none => rest
    else rest
  { s with tlbs := { unit := unit, place := place, asid := asid, level := level, tag := tag, pte := BitVec.ofNat 64 pte } :: rest }

/-- Adds the pointers of a walk to the die's walk cache, present ones alone (R359, R360). -/
def State.wcFill (s : State) (die : Nat) (d : CtxDesc) (va : Nat) (leafLevel : Nat) : State :=
  ([3, 2].filter (fun l => decide (leafLevel < l))).foldl (fun (acc : State × Nat) level =>
    let s := acc.1
    let addr := entryAddr acc.2 va level
    let (e, _) := s.tableEntry die d.asid va level addr
    let tag := va >>> lvlShift level
    let s := if e % 4 ≠ 1 ∨ s.wcache.any (fun t => t.place == die && t.asid == d.asid && t.level == level && t.tag == tag) then s
      else { s with wcache := ({ unit := 4, place := die, asid := d.asid, level := level, tag := tag, pte := BitVec.ofNat 64 e } :: s.wcache).take 2048 }
    (s, bitsOf e 51 16 * 2 ^ 16)) (s, d.ptroot) |>.1

/-- A translated access is performed: the leaf enters the TLB, and a write sets D in the entry first, by an OR at its home agent (R358). -/
def State.useLeaf (s : State) (core : Nat) (d : CtxDesc) (k : AccKind) (va pte level addr : Nat) : State :=
  let s := s.fabSend (leafPa pte level va >>> 43)
  if addr = noEntry then s
  else
    let s := s.hbmTouch addr 8 false
    let sets := k.writes && !pte.testBit 9
    let s := if sets then s.homeWrite addr (leBytes 8 (leNat (s.memBytes addr 8) ||| 2 ^ 9)) (s.memPoison addr 8) else s
    (s.tlbFill k.tlb core d.asid va (if sets then pte + 2 ^ 9 else pte) level).wcFill (dieOf core) d va level

/-! ### Invalidation (R171) -/

/-- The TLBs and walk caches that a scope reaches: a die, or the whole module. -/
def tlbInScope (die : Option Nat) (t : TlbEnt) : Bool :=
  match die with
  | none => true
  | some d => if t.unit = 4 then t.place == d else if t.unit = 3 then false else dieOf t.place == d

/-- Removes the entries that a TLBI names, in its scope (R171). The etcher's TLBs lie on memory dies, outside `.die`. -/
def State.tlbi (s : State) (die : Option Nat) (hit : TlbEnt → Bool) : State :=
  let keep (t : TlbEnt) : Bool := !(tlbInScope die t && hit t)
  { s with tlbs := s.tlbs.filter keep, wcache := s.wcache.filter keep }

/-- The three forms of TLBI (R171). The page form removes the leaf alone. -/
def tlbiHit (form : Nat) (asid : BitVec 16) (va : Nat) (t : TlbEnt) : Bool :=
  if form = 0 then true
  else if form = 1 then t.asid == asid
  else t.asid == asid && t.unit != 4 && t.tag == va >>> lvlShift t.level

/-! ### Wait tables and fault records (R363 to R367) -/

/-- The keyed entries of a die's wait table. -/
def State.keyed (s : State) (die : Nat) : List WaitEnt := s.waits.filter (fun w => w.die == die && w.key != .overflow)

/-- The group registrations of an entry. -/
def WaitEnt.groups (w : WaitEnt) : Nat := (w.who.filter (fun x => match x with | .group _ => true | _ => false)).length

/-- The lowest free keyed entry of a die's wait table. -/
def State.freeEntry (s : State) (die : Nat) : Nat :=
  ((List.range 1023).find? (fun n => !(s.waits.any (fun e => e.die == die && e.idx == n)))).getD 0

/-- Adds a waiter under a key of a die, making the entry if there is none. -/
def State.addWaiter (s : State) (die : Nat) (key : ParkKey) (w : Waiter) : State :=
  if s.waits.any (fun e => e.die == die && e.key == key) then
    { s with waits := s.waits.map (fun e => if e.die == die && e.key == key then { e with who := e.who ++ [w] } else e) }
  else { s with waits := s.waits ++ [{ die := die, idx := if key = .overflow then 1023 else s.freeEntry die, key := key, who := [w] }] }

/-- Registers a waiter: under its key, or under the overflow entry when the entry has 255 groups or no entry is free
(R366). Gives the key that it went under. -/
def State.register (s : State) (die : Nat) (key : ParkKey) (w : Waiter) : State × ParkKey :=
  match s.waits.find? (fun e => e.die == die && e.key == key) with
  | some e =>
    let full := (match w with | .group _ => decide (255 ≤ e.groups) | _ => false)
    if full then (s.addWaiter die .overflow w, .overflow) else (s.addWaiter die key w, key)
  | none =>
    if (s.keyed die).length ≥ 1023 then (s.addWaiter die .overflow w, .overflow) else (s.addWaiter die key w, key)

/-- Takes one registration of a waiter back; an entry with no waiter left is freed (R366, R367). -/
def State.withdraw (s : State) (die : Nat) (key : ParkKey) (w : Waiter) : State :=
  let ws := s.waits.map (fun e => if e.die == die && e.key == key then { e with who := e.who.erase w } else e)
  { s with waits := ws.filter (fun e => !e.who.isEmpty) }

/-- What a fault record says besides its key (R365). -/
structure FaultInfo where
  va : Nat
  level : Nat
  kind : Nat
  ctx : Nat
  gcore : Nat
  group : Nat
  mask : Mask
  port : Option (Nat × Nat × Nat × Nat) := none   -- port, lane, item, step counter
  copy : Option (Nat × Nat × Nat) := none         -- channel, template, position
  deriving DecidableEq, Repr

/-- The 64 bytes of a fault record (R365), but for DIEMASK and WAITERS, which `FaultRec.bytes` puts in. -/
def faultFields (i : FaultInfo) (asid : BitVec 16) (token : Nat) (byToken : Bool) (time : Word64) : List (Nat × Nat) :=
  [((if i.level = 1 then cPAGE_ABSENT else cTABLE_ABSENT).toNat, 0), (i.level, 9), (if byToken then 1 else 0, 11),
   (i.kind, 12), (asid.toNat, 16), (token, 32), (i.va % 2 ^ 55, 64), (time.toNat, 192), (i.gcore, 256), (i.group, 274)]
  ++ (match i.port with
      | some (p, l, it, st) => [(p, 278), (l, 282), (1, 287), (it, 320), (st, 352)]
      | none => [])
  ++ [(i.mask.toNat, 288)]
  ++ (match i.copy with
      | some (c, t, pos) => [(c, 384), (1, 387), (t, 400), (pos, 416)]
      | none => [])
  ++ [(i.ctx, 448)]

/-- The bytes of a record with its present DIEMASK and WAITERS (R364, R365). -/
def FaultRec.full (r : FaultRec) : List Byte :=
  let v := leNat r.bytes
  leBytes 64 (v + r.dieMask * 2 ^ 136 + (min r.waiters (2 ^ 24 - 1)) * 2 ^ 144)

/-- The token after a token: ascending modulo 2^32, skipping 0 (R365). -/
def nextToken (t : Nat) : Nat := if (t + 1) % 2 ^ 32 = 0 then 1 else (t + 1) % 2 ^ 32

/-- The open record of the same key: the page, or the same absent table entry (R363, R364). -/
def State.openFault (s : State) (asid : BitVec 16) (va level : Nat) : Option FaultRec :=
  s.faults.find? (fun r => r.isOpen && r.asid == asid && r.level == level && r.va >>> lvlShift level == va >>> lvlShift level)

/-- Writes a fault record to its slot of the fault queue, unless a later record has taken the slot (R365). -/
def State.putFault (s : State) (r : FaultRec) : State :=
  match r.slot with
  | some i => if i + 4096 < s.faultTail then s else s.homeWrite (s.host.fqbase.toNat + 64 * (i % 4096)) r.full false
  | none => s

/-- A new fault record: in the fault queue while it holds fewer than 4,096, else in the buffer of its die (R365). -/
def State.newFault (s : State) (die : Nat) (key : ParkKey) (asid : BitVec 16) (i : FaultInfo) : State :=
  let inRing := decide ((s.faults.filter (fun r => r.queued && r.slot.isSome)).length < 4096)
  let r : FaultRec :=
    { token := s.token, key := key, isOpen := true, queued := true, slot := if inRing then some s.faultTail else none, die := die,
      bytes := leBytes 64 (packFields (faultFields i asid s.token (i.level != 1) s.timebase)),
      va := i.va, level := i.level, ctx := i.ctx, asid := asid, dieMask := 2 ^ die, waiters := 1,
      hw := !(s.ctx i.ctx).split.getLsbD 0 }
  { s with faults := s.faults ++ [r], token := nextToken s.token,
           faultTail := if inRing then s.faultTail + 1 else s.faultTail }.putFault r

/-- The fault queue and the die's buffer are full (R365). -/
def State.faultsFull (s : State) (die : Nat) : Bool :=
  decide (4096 ≤ (s.faults.filter (fun r => r.queued && r.slot.isSome)).length)
    && decide (64 ≤ (s.faults.filter (fun r => r.queued && r.slot.isNone && r.die == die)).length)

/-- An absent page or table: joins the open record of its key, or writes a new one while the queue or the die's buffer has
room; else the waiter goes under the overflow entry with no record (R362 to R367). Gives the key it is registered under. -/
def State.absentFault (s : State) (die : Nat) (asid : BitVec 16) (i : FaultInfo) (w : Waiter) : State × ParkKey :=
  match s.openFault asid i.va i.level with
  | some r =>
    let (s, key) := s.register die r.key w
    let r' := { r with dieMask := r.dieMask ||| 2 ^ die, waiters := r.waiters + 1 }
    ({ s with faults := s.faults.map (fun (q : FaultRec) => if q.token == r.token && q.isOpen then r' else q) }.putFault r', key)
  | none =>
    if s.faultsFull die then (s.addWaiter die .overflow w, .overflow)
    else
      let key : ParkKey := if i.level = 1 then .page asid (i.va >>> 16) else .token s.token
      (s.newFault die key asid i).register die key w

/-- The lowest free slot of a core (R304, R318). -/
def State.freeSlot (s : State) (core : Nat) : Nat :=
  ((List.range 32).find? (fun n => !(s.groups.any (fun p => p.2.core == core && p.2.slot == some n)))).getD 0

/-- A group's matrix operations enter the core's queue again in their order, as far as its eight entries go; the rest enter when operations
leave it (R218, R244). -/
def State.requeueMatrix (s : State) (g core : Nat) : State :=
  match s.group? g with
  | none => s
  | some x =>
    if x.mats.isEmpty then s
    else
      let n := 8 - (s.core core).mq.length
      (s.modCore core (fun c => { c with mq := c.mq ++ x.mats.take n })).modGroup g (fun x => { x with mats := x.mats.drop n })

/-- The operations that wait for the queue of a core enter it, those of groups in slots that are not frozen. -/
def State.refillQueue (s : State) (core : Nat) : State :=
  (s.groups.filter (fun p => p.2.core == core && p.2.slot.isSome && p.2.st != .frozen && !p.2.mats.isEmpty)).foldl
    (fun (s : State) p => s.requeueMatrix p.1 core) s

/-- The ports that a group has bound. -/
def Group.boundPorts (x : Group) : Nat := (x.ports.filter (fun q => q.2.isSome)).length

/-- What contexts that are being taken down still hold of a core (R275). -/
def State.drainHeld (s : State) (core : Nat) : List HeldRoom := s.ctxs.flatMap (fun p => p.2.held.filter (fun h => h.core == core))

/-- The stencil engines of a core that are in use: the bound ports of the groups that hold a slot there and have their engines
(R209, R216), and those that a teardown has still to free (R275). -/
def State.enginesUsed (s : State) (core : Nat) : Nat :=
  s.groups.foldl (fun n p => if p.2.core = core ∧ p.2.slot.isSome ∧ !p.2.engineWait then n + p.2.boundPorts else n)
    ((s.drainHeld core).foldl (fun n h => n + h.engines) 0)

/-- Whether the ports of a group that comes back to a core must wait for engines (R210, R216). -/
def State.lacksEngines (s : State) (x : Group) : Bool :=
  decide (0 < x.boundPorts) && decide (64 < s.enginesUsed x.core + x.boundPorts)

/-- A frame that fails the checks of R322 is not restored: the group is FROZEN in a slot of its core, and a record is written. -/
def State.frameInvalid (s : State) (g : Nat) (x : Group) : State :=
  ((s.setGroup g { x with st := .frozen, badFrame := x.wholeBad, slot := some (s.freeSlot x.core), frameAt := none }).placeFrame g).writeErr
    (s.groupRec x cFRAME_INVALID 0 0)

/-- One satisfied registration of a group: its park count falls; at zero it is woken into a free slot, PENDING and ready, or
stays SAVED with nothing to wait for (R305, R319, R363, R367). Gives whether it was woken. -/
def State.satisfy (s : State) (g : Nat) (key : ParkKey) : State × Bool :=
  match s.group? g with
  | none => (s, false)
  | some x =>
    let ks := x.parkKeys.erase key
    let woke := ks.isEmpty && !x.parkKeys.isEmpty && x.st == .parked
    if woke && x.badFrame.isSome then (s.frameInvalid g { x with parkKeys := ks }, true)
    else if woke then
      ((s.setGroup g { x with parkKeys := ks, st := .pending, held := false, frameAt := none, restFrom := s.cycle,
                              engineWait := s.lacksEngines x, slot := some (s.freeSlot x.core) }).requeueMatrix g x.core, true)
    else (s.setGroup g { x with parkKeys := ks }, false)

/-- A channel that waited for a page resumes (R200). -/
def State.resumeChan (s : State) (core c : Nat) : State :=
  s.modCore core (fun k =>
    let ch : Chan := cget {} k.chans c
    { k with chans := cput {} k.chans c { ch with q := ch.q.map (fun y => { y with waiting := false }) } })

/-- RPLY of a key on a die (R172, R366): every registration under the key and under the overflow entry is satisfied; the
entry is freed; the key's open record is closed. Gives the number of groups woken. -/
def State.reply (s : State) (die : Nat) (key : ParkKey) : State × Nat :=
  let hit (e : WaitEnt) : Bool := e.die == die && (e.key == key || e.key == .overflow)
  let ents := s.waits.filter hit
  let s := { s with waits := s.waits.filter (fun e => !hit e),
                    faults := s.faults.map (fun r => if r.key == key then { r with isOpen := false } else r) }
  ents.foldl (fun acc e => e.who.foldl (fun (acc : State × Nat) w =>
    match w with
    | .group g => let (s, woke) := acc.1.satisfy g e.key; (s, if woke then acc.2 + 1 else acc.2)
    | .chan core c => (acc.1.resumeChan core c, acc.2)) acc) (s, 0)

/-- The group leaves its slot and is PARKED under its registrations (R318): outstanding instructions complete, windows
close, sequences stop at a step boundary, read-ahead is discarded, any sketch ends, and the parking frame is written. -/
def State.parkGroup (s : State) (g : Nat) (keys : List ParkKey) : State :=
  match s.group? g with
  | none => s
  | some x =>
    -- its pushes are performed (R216)
    let s := (s.grantUpTo (whoCore x.core)).countLate x
    let x := x.completeAll
    ((s.setGroup g { x with
      st := .parked, slot := none, sketch := none, parkKeys := keys, restFrom := if x.st = .active then s.cycle else x.restFrom,
      ports := x.ports.map (fun p => (p.1, p.2.map (fun q => { q with ahead := [] }))) }).stashMatrix g x.core).placeFrame g

end Sys2Proof.Machine
end

