-- ==== Sys2Proof/Machine/Access.lean ====
section
/-! DEFINITION. How a group reaches memory: effective addresses and windows (R177 to R179), the ordered checks (R180, R181,
R361), and the reads and writes that follow them (R184, R185, R188, R335 to R337). -/

namespace Sys2Proof.Machine

/-- A key under which an instruction parks: the level of the absent entry, or 0 for MIG and CW; its tag; the first faulting byte; the
lanes that touched it; the access, and the port of a pop or push (R361 to R365). -/
structure FaultKey where
  level : Nat
  tag : Nat
  va : Nat
  mask : Mask
  kind : AccKind
  port : Option Nat := none
  deriving DecidableEq, Repr

/-- Why an instruction does not complete in the ordinary way: it raises a cause for lanes (with `%tinfo` and the address of
an error record), a pop or push among them with its port; the shadow unit of a lane finds a divergence; it parks under keys; it is held
and issues again, perhaps with an effect on others; it is held for less than a long-latency wait (R307); or the step ends in a state of its
own. -/
inductive Stop where
  | trap (cause : Cause) (mask : Mask) (info : Word64) (addr : Nat)
  | portTrap (port : Nat) (cause : Cause) (mask : Mask) (addr : Nat)
  | diverge (mask : Mask) (lane : Nat)
  | park (ks : List FaultKey)
  | hold
  | pause
  | holdAnd (f : State → State)
  | done (s : State)

/-- A trap without further information. -/
def Stop.plain (cause : Cause) (mask : Mask) : Stop := .trap cause mask 0 0

/-- The launch of a group. -/
def State.launchOf (s : State) (x : Group) : Launch :=
  (s.launch? x.launch).getD { ctx := x.ctx, queue := none, hdr := {} }
/-- The team of a group. -/
def State.teamOf (s : State) (x : Group) : Team :=
  (s.team? x.team).getD { launch := x.launch, cluster := 0, num := 0 }
/-- The cluster of a group. -/
def State.clusterOf (s : State) (x : Group) : Cluster :=
  (s.cluster? (s.teamOf x).cluster).getD { launch := x.launch, num := 0, vdie := 0 }
/-- The scratchpad bytes of a team of the launch (R99, R178). -/
def State.scratchOf (s : State) (x : Group) : Nat := (s.launchOf x).hdr.scratch * 1024

/-- What an effective address reaches (R178). -/
inductive Reach where
  | scr (team off : Nat)
  | virt (va : Nat)
  | aper (o : Nat)
  | bad (c : Cause)
  deriving DecidableEq, Repr

/-- Whether an address lies in a window. -/
def inWindow (ea base size : Nat) : Bool := decide (base ≤ ea) && decide (ea < base + size)

/-- Classifies an access of n bytes by the first window that holds its address (R178). -/
def State.reach (s : State) (x : Group) (ea n : Nat) : Reach :=
  let d := (s.ctx x.ctx).desc
  if inWindow ea d.scrb (2 ^ 32) then
    let o := ea - d.scrb
    if o + n ≤ s.scratchOf x then .scr x.team o else .bad cSCR_BOUNDS
  else if inWindow ea d.club (2 ^ 32) then
    let o := ea - d.club
    let u := bitsOf o 21 19
    let p := o % 2 ^ 19
    if o >>> 22 ≠ 0 then .bad cCLU_RANGE
    else match (s.clusterOf x).teams[u]? with
      | some t => if p + n ≤ s.scratchOf x then .scr t p else .bad cCLU_RANGE
      | none => .bad cCLU_RANGE
  else if inWindow ea d.prvb (2 ^ 32) then
    let gn := (s.teamOf x).num * 16 + x.num
    .virt (((s.launchOf x).prvb + gn * 2 ^ 32 + (ea - d.prvb)) % 2 ^ 55)
  else if inWindow ea d.capb (2 ^ 16) then .aper (ea - d.capb)
  else .virt ea

/-- The lanes of a list that a test accepts. -/
def maskWhere {α : Type} (l : List α) (lane : α → Nat) (p : α → Bool) : Mask := maskOf ((l.filter p).map lane)

/-! ### Capture and replay (R432, R433) -/

/-- A team runs under replay. -/
def State.replaysTeam (s : State) (t : Nat) : Bool := s.replays.any (fun r => r.team == t && r.differs.isNone)

/-- The capture that takes a group's entries, as its place in the list. -/
def State.capOf (s : State) (x : Group) : Option Nat :=
  s.caps.findIdx? (fun c => c.launch == some x.launch && !c.full && decide (c.first ≤ (s.teamOf x).num)
    && decide ((s.teamOf x).num < c.first + c.count))

/-- The 16 bytes of an entry's header (R432). -/
def capHeader (seq kind team group len pc : Nat) (mask : Mask) : List Byte :=
  leBytes 16 (packFields [(seq, 0), (kind, 32), (team, 40), (group, 56), (len, 60), (mask.toNat, 72), (pc, 104)])

/-- The payload of an entry: the poison bit of each lane, then the lanes' values, each of n bytes, in whole 16-byte units
(R432). -/
def capPayload (n : Nat) (vals : List (Nat × Nat × Bool)) : List Byte :=
  let m := maskWhere vals (fun v => v.1) (fun v => v.2.2)
  let b := leBytes 16 m.toNat ++ vals.flatMap (fun v => leBytes n v.2.1)
  b ++ List.replicate ((16 - b.length % 16) % 16) 0

/-- Appends an entry of a group to its log; a full log ends the capture (R432). -/
def State.capAppend (s : State) (g : Nat) (kind pc : Nat) (mask : Mask) (pay : List Byte) : State :=
  match s.group? g with
  | none => s
  | some x =>
    match s.capOf x with
    | none => s
    | some i =>
      match s.caps[i]? with
      | none => s
      | some c =>
        if c.size < c.pos + 16 + pay.length then
          ({ s with caps := s.caps.set i { c with full := true } }).writeErr { s.groupRec x cCAPTURE_FULL 0 0 with scope := 1 }
        else
          let h := capHeader x.capSeq kind (s.teamOf x).num x.num (pay.length / 16) pc mask
          ((s.homeWrite (c.base + c.pos) (h ++ pay) false).modGroup g (fun x => { x with capSeq := x.capSeq + 1 })) |>
            fun s => { s with caps := s.caps.set i { c with pos := c.pos + 16 + pay.length } }

/-- An entry of a log: kind, lanes, PC and its payload. -/
structure CapEntry where
  kind : Nat
  mask : Mask
  pc : Nat
  pay : List Byte

/-- Finds the entry of a team's group with a sequence number, from an offset of the log on. -/
def State.capFind (s : State) (base size team group seq : Nat) : Nat → Nat → Option CapEntry
  | 0, _ => none
  | k + 1, off =>
    if size < off + 16 then none
    else
      let h := leNat (s.memBytes (base + off) 16)
      let len := bitsOf h 71 60
      if bitsOf h 31 0 = seq ∧ bitsOf h 55 40 = team ∧ bitsOf h 59 56 = group then
        some { kind := bitsOf h 39 32, mask := BitVec.ofNat 32 (bitsOf h 103 72), pc := bitsOf h 127 104,
               pay := s.memBytes (base + off + 16) (16 * len) }
      else s.capFind base size team group seq k (off + 16 + 16 * len)

/-- The next entry of a group from a sequence number on that is neither a window image nor a trap or parking mark, with the number after
it (R433). -/
def nextEntry (at_ : Nat → Option CapEntry) : Nat → Nat → Option (CapEntry × Nat)
  | 0, _ => none
  | k + 1, q => match at_ q with
    | none => none
    | some e => if e.kind = 1 ∨ e.kind = 8 then nextEntry at_ k (q + 1) else some (e, q + 1)

/-- The next entry of a replayed group and the number after it; window images are passed over: one for each granule (R433). -/
def State.replayEntry (s : State) (x : Group) : Option (CapEntry × Nat) :=
  match s.replays.find? (fun (r : Replay) => r.team == x.team && r.differs.isNone) with
  | none => none
  | some r => nextEntry (fun q => s.capFind r.base r.size (s.teamOf x).num x.num q (r.size / 16 + 1) 0) 64 x.capSeq

/-- A replay ends at a difference: REPLAY_MISMATCH with the entry's SEQ (R433). -/
def State.replayDiffers (s : State) (x : Group) : State :=
  ({ s with replays := s.replays.map (fun (r : Replay) =>
      if r.team == x.team && r.differs.isNone then { r with differs := some x.capSeq } else r) }
    ).writeErr { s.groupRec x cREPLAY_MISMATCH 0 0 with scope := 1, synd := x.capSeq }

/-- The values of a payload (R432). -/
def CapEntry.values (c : CapEntry) (n : Nat) : List (Nat × Nat × Bool) :=
  let ls := lanesOf c.mask
  let pm : Mask := BitVec.ofNat 32 (leNat (c.pay.take 4))
  (ls.zip (List.range ls.length)).map (fun p => (p.1, leNat ((c.pay.drop (16 + n * p.2)).take n), pm.getLsbD p.1))

/-- Values that a group has read (kinds 2, 3, 5, 7): logged under capture, taken from the log under replay (R432, R433).
`s0` is the state before the read, `s` after it. -/
def State.capRead (s0 s : State) (g kind pc n : Nat) (vals : List (Nat × Nat × Bool)) : State × List (Nat × Nat × Bool) :=
  match s0.group? g with
  | none => (s, vals)
  | some x =>
    let mask := maskOf (vals.map (fun v => v.1))
    if vals.isEmpty then (s, vals)
    else if s0.replaysTeam x.team then
      match s0.replayEntry x with
      | some (e, q) =>
        if e.kind = kind ∧ e.pc = pc ∧ e.mask = mask then (s0.modGroup g (fun x => { x with capSeq := q }), e.values n)
        else (s0.replayDiffers x, vals)
      | none => (s0.replayDiffers x, vals)
    else if (s0.capOf x).isSome then (s.capAppend g kind pc mask (capPayload n vals), vals)
    else (s, vals)

/-- Effects that a group makes outside itself (kinds 3 and 4): logged under capture, compared and not performed under replay
(R432, R433). -/
def State.capWrite (s0 s : State) (g kind pc n : Nat) (vals : List (Nat × Nat × Bool)) : State :=
  match s0.group? g with
  | none => s
  | some x =>
    let mask := maskOf (vals.map (fun v => v.1))
    if vals.isEmpty then s
    else if s0.replaysTeam x.team then
      match s0.replayEntry x with
      | some (e, q) =>
        if e.kind = kind ∧ e.pc = pc ∧ e.mask = mask ∧ e.pay = capPayload n vals then
          s0.modGroup g (fun x => { x with capSeq := q })
        else s0.replayDiffers x
      | none => s0.replayDiffers x
    else if (s0.capOf x).isSome then s.capAppend g kind pc mask (capPayload n vals)
    else s

/-- The PC of a group's chosen entry. -/
def Group.pcNow (x : Group) : Nat := (x.chosen.map (fun e => e.pc.toNat)).getD 0

/-! ### Translation of lanes -/

/-- One translated piece of an access, within one page. -/
structure Seg where
  va : Nat
  n : Nat
  pa : Nat
  pte : Nat
  level : Nat
  addr : Nat
  deriving DecidableEq, Repr

/-- Where an access goes after its checks. -/
inductive Place where
  | scr (team off : Nat)
  | mem (segs : List Seg)
  deriving DecidableEq, Repr

/-- One lane's access. -/
structure LaneAcc where
  lane : Nat
  ea : Nat
  n : Nat
  deriving DecidableEq, Repr

/-- The pieces of n bytes at a virtual address, one per page touched (R181); past the last byte of the 55-bit space it goes on
at 0. -/
def pagePieces (va n : Nat) : List (Nat × Nat) :=
  let first := min n (2 ^ 16 - va % 2 ^ 16)
  if first = n then [(va, n)] else [(va, first), ((va + first) % 2 ^ 55, n - first)]

/-- What a lane's pieces translate to. -/
structure LaneX where
  acc : LaneAcc
  outs : List (Nat × Nat × XOut)     -- va, n, outcome

/-- The modules that a lane's pieces reach. -/
def LaneX.modules (l : LaneX) : List Nat := l.outs.filterMap (fun o => match o.2.2 with | .ok pa _ _ _ => some (pa >>> 43) | _ => none)

/-- The address that an error record of a walk names: the first piece of the lowest lane that meets the cause. -/
def badVa (ls : List LaneX) (p : XOut → Bool) : Nat :=
  (firstSome (fun (l : LaneX) => (l.outs.find? (fun o => p o.2.2)).map (fun o => o.1)) ls).getD 0

/-- An outcome that parks (R361, orders 3 to 5), as the level of the absent entry, or 0 for MIG and CW. -/
def XOut.parks : XOut → Option Nat
  | .absent level _ => some level
  | .mig => some 0
  | .cw => some 0
  | _ => none

/-- Two faults share a key: one page, or one absent entry; MIG and CW share the page key with an absent level-1 entry (R362, R363). -/
def FaultKey.same (a b : FaultKey) : Bool := a.tag == b.tag && (a.level == b.level || (decide (a.level ≤ 1) && decide (b.level ≤ 1)))

/-- Adds a fault to the distinct keys: a key that is there takes the lanes of another; the absent entry of a page that also meets
MIG or CW writes the record (R362, R363). -/
def addKey (ks : List FaultKey) (k : FaultKey) : List FaultKey :=
  if ks.any (fun q => q.same k) then
    ks.map (fun q => if q.same k then { (if q.level = 0 then k else q) with mask := q.mask ||| k.mask } else q)
  else ks ++ [k]

/-- Inserts a key before those whose lowest lane is higher. -/
def insKey (k : FaultKey) : List FaultKey → List FaultKey
  | [] => [k]
  | q :: r => if lowLane k.mask < lowLane q.mask then k :: q :: r else q :: insKey k r

/-- The distinct keys in ascending order of the lowest lane that touched each (R363). -/
def distinctKeys (ks : List FaultKey) : List FaultKey := (ks.foldl addKey []).foldl (fun acc k => insKey k acc) []

/-- The faults of the parking outcomes of lanes, lane by lane. -/
def parkList (kind : AccKind) (port : Option Nat) (ls : List LaneX) : List FaultKey :=
  ls.flatMap (fun l => l.outs.filterMap (fun o => o.2.2.parks.map (fun level =>
    { level := level, tag := o.1 >>> lvlShift (max level 1), va := o.1, mask := (1#32) <<< l.acc.lane, kind := kind, port := port })))

/-- A port, with the lowest lane of a mask, its item and its step counter there: what a record says of the first faulting element
(R214, R365). -/
def Group.portData (x : Group) (port : Nat) (m : Mask) : Nat × Nat × Nat × Nat :=
  let l := lowLane m
  (port, l, (x.lane l).item.toNat, (((cget none x.ports port).map (fun (p : Port) => cget 0 p.steps l)).getD 0))

/-- Registers the group under a key and writes its record, if it has one (R363). -/
def State.registerKey (s : State) (g : Nat) (x : Group) (k : FaultKey) : State × ParkKey :=
  let die := dieOf x.core
  let asid := (s.ctx x.ctx).desc.asid
  if k.level = 0 then s.register die (.page asid k.tag) (.group g)
  else
    let i : FaultInfo := { va := k.va, level := k.level, kind := k.kind.code, ctx := x.ctx, gcore := s.gcore x.core,
                           group := x.num, mask := k.mask, port := k.port.map (fun p => x.portData p k.mask) }
    s.absentFault die asid i (.group g)

/-- The second translation of a registered access still meets the registered outcome (R367). -/
def State.stillFaults (s : State) (x : Group) (k : FaultKey) : Bool :=
  match (s.xlate x.core (s.ctx x.ctx).desc k.kind k.va).parks with
  | some level => ({ k with level := level, tag := k.va >>> lvlShift (max level 1) } : FaultKey).same k
  | none => false

/-- Registers the group under every key and writes the records; a registration whose access no longer meets its outcome is withdrawn
and counts as satisfied (R363, R367). Gives the keys that remain. -/
def State.registerKeys (s : State) (g : Nat) (x : Group) (ks : List FaultKey) : State × List ParkKey :=
  ks.foldl (fun (acc : State × List ParkKey) k =>
    let (s, key) := acc.1.registerKey g x k
    if s.stillFaults x k then (s, acc.2 ++ [key]) else (s.withdraw (dieOf x.core) key (.group g), acc.2)) (s, [])

/-- Registers the group under every key, writes the records, and parks it; with no registration left it executes again at once
(R318, R363, R367). -/
def State.parkOn (s : State) (g : Nat) (x : Group) (ks : List FaultKey) : State :=
  let r := s.registerKeys g x (distinctKeys ks)
  if r.2.isEmpty then r.1 else r.1.parkGroup g r.2

/-- The trapping outcomes of translation in the order of checks 7 and 8 (R180, R357, R361). -/
def xTraps : List (Cause × (XOut → Bool)) :=
  [(cTIER_ACCESS, fun o => o == .tier), (cPTE_POISON, fun o => o == .bad cPTE_POISON),
   (cPTE_CRIT, fun o => o == .bad cPTE_CRIT), (cPTE_INVALID, fun o => o == .bad cPTE_INVALID), (cPAGE_PERM, fun o => o == .perm)]

/-- An access by write requests alone, which wait at the coherence point (R341). -/
def AccKind.posts : AccKind → Bool
  | .write | .push | .copyWrite _ => true
  | _ => false

/-- The lines that an access of a lane needs tokens of and that are promised to another die: its request fails at once and is sent again
(R347). -/
def State.awaitedLines (s : State) (core : Nat) (l : LaneX) : List Nat :=
  if s.tokReqs.isEmpty then []
  else l.outs.flatMap (fun o => match o.2.2 with
    | .ok pa pte _ _ => if s.cohOf pa (bitsOf pte 6 5) = 0 then (linesOf pa o.2.1).filter (s.promised (dieOf core)) else []
    | _ => [])

/-- An access of a lane must cross a link that carries nothing: it waits there. A line that the die's L2 holds is read there, and written there on a
page that is not hardware coherent (R386). -/
def State.cutOff (s : State) (core : Nat) (k : AccKind) (l : LaneX) : Bool :=
  l.outs.any (fun o => match o.2.2 with
    | .ok pa pte _ _ =>
      let coh := s.cohOf pa (bitsOf pte 6 5)
      (linesOf pa o.2.1).any (fun ln => s.linkBlocked core (128 * ln) && !((s.line ln).inL2 (dieOf core) coh && (!k.writes || coh != 0)))
    | _ => false)

/-- Translates every lane (checks 7 and 8 of R180): the earliest trapping outcome of any lane, else parking, else the
places (R181, R361). -/
def State.translateAll (s : State) (x : Group) (kind : AccKind) (port : Option Nat)
    (rs : List (LaneAcc × Reach)) : Except Stop (List (LaneAcc × Place)) :=
  let d := (s.ctx x.ctx).desc
  let ls : List LaneX := rs.map (fun r =>
    { acc := r.1, outs := match r.2 with
        | .virt va => (pagePieces va r.1.n).map (fun p => (p.1, p.2, s.xlate x.core d kind p.1))
        | _ => [] })
  match firstSome (fun (t : Cause × (XOut → Bool)) =>
      let m := maskWhere ls (fun l => l.acc.lane) (fun l => l.outs.any (fun o => t.2 o.2.2))
      if m = 0 then none else some (Stop.trap t.1 m 0 (badVa ls t.2))) xTraps with
  | some st => .error st
  | none =>
    match parkList kind port ls with
    | [] =>
      let ms := (ls.flatMap LaneX.modules).eraseDups.filter (fun m => s.pathHeld x.agent m)
      let ws := if kind.posts then [] else (ls.flatMap (s.awaitedLines x.core)).eraseDups
      if !ws.isEmpty then .error (.holdAnd (fun s => ws.foldl (fun (s : State) ln => s.tokenFail (dieOf x.core) x.agent ln) s))
      else if !ms.isEmpty then
        .error (.holdAnd (fun s => ms.foldl (fun (s : State) m => s.holdPath x.agent m (s.groupRec x cPATH_LOST 0 0)) s))
      else if ls.any (s.cutOff x.core kind) then .error .hold
      else .ok ((rs.zip ls).map (fun r =>
        (r.1.1, match r.1.2 with
          | .scr t o => .scr t o
          | _ => .mem (r.2.outs.map (fun o => match o.2.2 with
              | .ok pa pte level addr => { va := o.1, n := o.2.1, pa := pa, pte := pte, level := level, addr := addr }
              | _ => { va := o.1, n := 0, pa := 0, pte := 0, level := 0, addr := noEntry })))))
    | ks => .error (.park ks)

/-- Translates the lanes of an access; under replay no memory is reached (R433). -/
def State.translateLanes (s : State) (x : Group) (kind : AccKind) (port : Option Nat)
    (rs : List (LaneAcc × Reach)) : Except Stop (List (LaneAcc × Place)) :=
  if s.replaysTeam x.team then .ok (rs.map (fun r => (r.1, match r.2 with | .scr t o => .scr t o | _ => .mem [])))
  else s.translateAll x kind port rs

/-- The checks of R180 for the lanes of an instruction, in their order. `pois` holds the lanes of check 1; `align` is the
alignment that check 3 asks (1 for none). -/
def State.checkLanes (s : State) (x : Group) (kind : AccKind) (pois : Mask) (align : Nat) (accs : List LaneAcc) :
    Except Stop (List (LaneAcc × Place)) :=
  if pois ≠ 0 then .error (.trap cPOISON_CONSUMED pois 0 ((accs.find? (fun a => pois.getLsbD a.lane)).map (fun a => a.ea) |>.getD 0))
  else
    let far := maskWhere accs (fun a => a.lane) (fun a => decide (2 ^ 55 ≤ a.ea))
    let odd := maskWhere accs (fun a => a.lane) (fun a => a.ea % align != 0)
    if far ≠ 0 then .error (.plain cADDR_RANGE far)
    else if odd ≠ 0 then .error (.plain cMISALIGNED odd)
    else
      let rs := accs.map (fun a => (a, s.reach x a.ea a.n))
      let bad := maskWhere rs (fun r => r.1.lane) (fun r => match r.2 with | .bad _ => true | _ => false)
      let scr := maskWhere rs (fun r => r.1.lane) (fun r => r.2 == .bad cSCR_BOUNDS)
      let ap := maskWhere rs (fun r => r.1.lane) (fun r => match r.2 with | .aper _ => true | _ => false)
      if bad ≠ 0 then .error (.plain (if scr ≠ 0 then cSCR_BOUNDS else cCLU_RANGE) bad)
      else if ap ≠ 0 then .error (.plain cCOPY_APERTURE ap)
      else s.translateLanes x kind none rs

/-! ### Performing accesses -/

/-- The bytes of a team's scratchpad, and the OR of its words' poison (R179). -/
def State.scrRead (s : State) (t off n : Nat) : Nat × Bool :=
  let r := readWords ((s.team? t).map (fun x => x.scr) |>.getD []) off n
  (r.1, r.2.1)

/-- The first poisoned sector or word that an access of a core touches, as the caches give it: the poison origin (R421). -/
def State.originOf (s : State) (core pol : Nat) (p : Place) (n : Nat) : Option Nat :=
  match p with
  | .scr t off => ((wordsOf off n).find? (fun w => (cget ({} : WP) ((s.team? t).map (fun x => x.scr) |>.getD []) w).p)).map (fun w => 4 * w)
  | .mem segs => firstSome (fun (q : Seg) => ((sectorsOf q.pa q.n).find? (fun x =>
      (s.cacheRead core (32 * x) 1 pol (s.cohOf q.pa (bitsOf q.pte 6 5))).2)).map (fun x => 32 * x)) segs

/-- The bytes of a piece of an access, for an agent of a core: with the agent's own pending writes, through the caches (R334, R348). -/
def State.segRead (s : State) (agent core pol : Nat) (q : Seg) : List Byte × Bool :=
  (s.ownView agent).cacheRead core q.pa q.n pol (s.cohOf q.pa (bitsOf q.pte 6 5))

/-- The groups that hold the slot of a group on its core: the group itself. -/
def State.slotHolder (s : State) (x : Group) : Option Nat :=
  (s.groups.find? (fun p => p.2.core == x.core && p.2.slot == x.slot)).map (fun p => p.1)

/-- A poisoned sector or word is delivered to a group: the core's poison-origin register takes it (R421). -/
def State.deliverPoison (s : State) (x : Group) (a : Option Nat) : State :=
  match a, x.slot with
  | some a, some sl => s.modCore x.core (fun c => { c with porg := some (a, sl, (s.slotHolder x).getD 0) })
  | _, _ => s

/-- Reads n bytes of a place for an agent of a core, with an allocation policy (R86): its own pending writes are seen (R334), tokens, copies
and misses are kept (R344, R348). The poison origin follows the delivery (R421). -/
def State.readPlace (s : State) (x : Group) (agent : Nat) (k : AccKind) (pol : Nat) (p : Place) (n : Nat) : State × Nat × Bool :=
  let d := (s.ctx x.ctx).desc
  let (s, v, pois) := match p with
    | .scr t off => let r := (s.ownView agent).scrRead t off n; (s, r.1, r.2)
    | .mem segs =>
      segs.foldr (fun (q : Seg) (acc : State × Nat × Bool) =>
        let s := acc.1.touchRead x.core q.pa q.n pol (acc.1.cohOf q.pa (bitsOf q.pte 6 5))
        let s := s.useLeaf x.core d k q.va q.pte q.level q.addr
        let r := s.segRead agent x.core pol q
        (s, leNat r.1 + 2 ^ (8 * q.n) * acc.2.1, acc.2.2 || r.2)) (s, 0, false)
  let s := if pois then s.deliverPoison x ((s.ownView agent).originOf x.core pol p n) else s
  (s, v, pois)

/-- Whether the accesses miss the core's L1, and the die's L2 (R307, R312). -/
def State.missOf (s : State) (x : Group) (pls : List (LaneAcc × Place)) : Bool × Bool :=
  let lines := pls.flatMap (fun p => match p.2 with
    | .mem segs => segs.flatMap (fun q => (linesOf q.pa q.n).map (fun ln => (s.line ln, s.cohOf q.pa (bitsOf q.pte 6 5))))
    | .scr _ _ => [])
  (lines.any (fun z => !z.1.inL1 x.core z.2), lines.any (fun z => !z.1.inL2 (dieOf x.core) z.2))

/-- Writes n bytes to a place for an agent of a core, with a policy: write requests to the scratchpad or the home agents, or a write of the
die's copy on a page that is not hardware coherent (R184, R185, R341, R348, R358). -/
def State.writePlace (s : State) (x : Group) (agent : Nat) (k : AccKind) (pol : Nat) (p : Place) (n v : Nat) (pois : Bool) : State :=
  let d := (s.ctx x.ctx).desc
  match p with
  | .scr t off => s.postReq { who := whoCore x.core, agent := agent, scr := some t, pa := off, bytes := leBytes n v, pois := pois }
  | .mem segs =>
    (segs.foldl (fun (acc : State × Nat) (q : Seg) =>
      let s := acc.1.useLeaf x.core d k q.va q.pte q.level q.addr
      let coh := s.cohOf q.pa (bitsOf q.pte 6 5)
      let bs := leBytes q.n acc.2
      (if coh = 0 then
        (linesOf q.pa q.n).foldl (fun (s : State) ln => s.countMiss x.core ln coh pol)
          (s.postReq { who := whoCore x.core, agent := agent, pa := q.pa, bytes := bs, pois := pois, l1 := pol == 0, first := pol == 2 })
      else s.cacheWrite x.core q.pa bs pois pol coh, acc.2 >>> (8 * q.n))) (s, v)).1

/-- Whether the bytes of a place are poisoned for an agent of a core. -/
def State.placePoison (s : State) (agent core : Nat) (p : Place) (n : Nat) : Bool :=
  match p with
  | .scr t off => ((s.ownView agent).scrRead t off n).2
  | .mem segs => segs.any (fun q => (s.segRead agent core 1 q).2)

/-- A progress event of a group's watchdog (R429). -/
def State.progress (s : State) (g : Nat) : State := s.modGroup g (fun x => { x with wd := { x.wd with w := 0 } })

/-- The scopes of R86 that the hardware's own orderings name (R335). -/
def scTeam : Nat := 1
/-- .dom. -/
def scDom : Nat := 5

/-- An acquire by a group at a scope: its ports' read-ahead is discarded (R213), and what is software coherent at that scope is read anew
(R335, R348). -/
def State.acquire (s : State) (g scope : Nat) : State :=
  match s.group? g with
  | none => s
  | some x =>
    (s.dropSoft x.agent x.core scope).modGroup g (fun x => { x with ports := x.ports.map (fun p => (p.1, p.2.map (fun q => { q with ahead := [] }))) })

/-- A release by a group at a scope: what is software coherent at that scope is written back (R335, R348). The group's later writes are
granted after its earlier ones (R334). -/
def State.release (s : State) (x : Group) (scope : Nat) : State := (s.writeBack x.agent x.core scope).markFenced x.agent

/-- The scope at which an access to a place is performed (R179, R333): at most .clu in a scratchpad, .grp on a page of COH 10, and .grp in
another module below .dom. -/
def State.scopeAt (s : State) (scope : Nat) : Place → Nat
  | .scr _ _ => min scope 2
  | .mem segs => segs.foldl (fun n q =>
      max n (if q.pa >>> 43 ≠ s.modnum.toNat then (if scope = 5 then 5 else 0) else if bitsOf q.pte 6 5 = 2 then 0 else scope)) 0

/-- The widest scope at which an access of some lanes is performed. -/
def State.scopeOver (s : State) (scope : Nat) (pls : List Place) : Nat := pls.foldl (fun n p => max n (s.scopeAt scope p)) 0

/-- A store to these places is performed at once, in the die's L2: some line of them is not hardware coherent (R348). -/
def State.direct (s : State) (pls : List Place) : Bool :=
  pls.any (fun p => match p with
    | .scr _ _ => false
    | .mem segs => segs.any (fun q => s.cohOf q.pa (bitsOf q.pte 6 5) != 0))

/-- A store that is performed at once comes after the group's writes that a fence or a release of its own has ordered before it (R256,
R336, R348): they are performed first, and the store waits for one that is refused. -/
def State.orderWrites (s : State) (x : Group) (pls : List Place) : Except Stop State :=
  if s.fencedPending x.agent && s.direct pls then
    let s := s.grantUpTo (whoCore x.core)
    if s.fencedPending x.agent then .error .pause else .ok s
  else .ok s

/-- A release whose effect is no write: every earlier write of the agent is performed before it (R253, R260, R261, R338, R342). -/
def State.publish (s : State) (agent core scope : Nat) : State := (s.writeBack agent core scope).grantUpTo (whoCore core)

end Sys2Proof.Machine
end

