-- ==== Sys2Proof/Machine/Stream.lean ====
section
/-! DEFINITION. Stream ports (R71, R72, R209 to R216): descriptors, element addresses, pops and pushes. -/

namespace Sys2Proof.Machine

/-- A field of a descriptor. -/
def Port.field (p : Port) (hi lo : Nat) : Nat := bitsOf (leNat p.desc) hi lo

/-- CNTd of a descriptor given as a number (R209). -/
def sdCnt (v d : Nat) : Nat := if d = 0 then bitsOf v 159 128 else bitsOf v (128 + 64 * d + 31) (128 + 64 * d)
/-- STRd of a descriptor (R209). -/
def sdStr (v d : Nat) : Int :=
  signedOf 32 (if d = 0 then bitsOf v 191 160 else bitsOf v (128 + 64 * d + 63) (128 + 64 * d + 32))
/-- The number of used dimensions (R209). -/
def sdDims (v : Nat) : Nat := bitsOf v 458 457 + 1
/-- The pattern length Π CNTd (R210). -/
def sdLength (v : Nat) : Nat := (List.range (sdDims v)).foldl (fun a d => a * sdCnt v d) 1
/-- The element type of a descriptor; b8 stands for a code with none. -/
def sdTy (v : Nat) : Ty := (tyOfCode (BitVec.ofNat 5 (bitsOf v 452 448))).getD .b8
/-- The bytes of an element, or of a block (R209). -/
def sdSize (v : Nat) : Nat :=
  let b := bitsOf v 461 459
  if b = 0 then Ty.bits (sdTy v) / 8 else 4 * 2 ^ b

/-- The cache policy of a descriptor (R209). -/
def sdPol (v : Nat) : Nat := bitsOf v 463 462

/-- Σ id × STRd over the used dimensions of element p (R211). -/
def sdOffset (v : Nat) : Nat → Nat → Nat → Int
  | 0, _, _ => 0
  | k + 1, d, p =>
    let c := sdCnt v d
    ((p % c : Nat) : Int) * sdStr v d + sdOffset v k (d + 1) (p / c)

/-- The address of element p for an item, exactly (R211). -/
def sdAddr (v item p : Nat) : Int :=
  (bitsOf v 63 0 : Nat) + (item : Int) * signedOf 64 (bitsOf v 127 64) + sdOffset v (sdDims v) 0 p

/-- The content checks of SPBIND (R210); true when the descriptor is refused. -/
def sdRefused (v : Nat) : Bool :=
  let blen := bitsOf v 461 459
  let ty := bitsOf v 452 448
  let sz := sdSize v
  bitsOf v 511 465 != 0 || decide (5 ≤ blen) || bitsOf v 456 455 == 3 || bitsOf v 463 462 == 3
    || (blen == 0 && (decide (0x15 ≤ ty) || [0x08, 0x09, 0x12, 0x13].contains ty))
    || (List.range (sdDims v)).any (fun d => sdCnt v d == 0)
    || (List.range 4).any (fun d => decide (sdDims v ≤ d) && (sdCnt v d != 0 || sdStr v d != 0))
    || decide (2 ^ 32 ≤ sdLength v)
    || bitsOf v 63 0 % sz != 0 || bitsOf v 127 64 % sz != 0
    || (List.range (sdDims v)).any (fun d => sdStr v d % (sz : Int) != 0)

/-- The fill value of an element or block: its low bytes, repeated over a block (R209). -/
def sdFill (v : Nat) : Nat :=
  let f := bitsOf v 447 384
  let n := sdSize v
  if bitsOf v 461 459 = 0 then f % 2 ^ (8 * n)
  else leNat ((List.range n).map (fun i => BitVec.ofNat 8 (f >>> (8 * (i % 8)))))

/-- What one lane's pop or push does to its counter: the element to use (none for FILL), the new counter, whether `%eos` is
set, whether the end action TRAP is met (R71, R212). -/
structure PortStep where
  lane : Nat
  elem : Option Nat
  next : Nat
  eos : Bool
  trap : Bool
  deriving DecidableEq, Repr

/-- The step of a live lane on a port (R71, R212). -/
def portStep (v : Nat) (p : Port) (lane : Nat) : PortStep :=
  let st := cget 0 p.steps lane
  if st ≠ sdLength v then { lane := lane, elem := some st, next := st + 1, eos := false, trap := false }
  else
    let e := bitsOf v 456 455
    if e = 0 then { lane := lane, elem := none, next := st, eos := true, trap := false }
    else if e = 1 then { lane := lane, elem := some 0, next := 1, eos := true, trap := false }
    else { lane := lane, elem := none, next := st, eos := false, trap := true }

/-- The lane set P of a pop or push: `act` in compacting mode, the entry's lanes in aligned mode; helpers take no part in
it (R71, R72). -/
def portLanes (x : Group) (v : Nat) (m act : Mask) : List Nat :=
  (lanesOf (if v.testBit 454 then act else m)).filter (fun l => (x.lane l).st != .helper)

/-- The places of the elements that a pop or push uses, or the stop they meet: STREAM_END, an address cause, a trap or park
of translation (R211, R212, R214). -/
def State.portPlaces (s : State) (x : Group) (k : Nat) (v : Nat) (kind : AccKind) (steps : List PortStep) :
    Except Stop (List (LaneAcc × Place)) :=
  let n := sdSize v
  let ends := maskWhere steps (fun t => t.lane) (fun t => t.trap)
  if ends ≠ 0 then .error (.trap cSTREAM_END ends (BitVec.ofNat 64 k) 0)
  else
    let ads := steps.filterMap (fun t => t.elem.map (fun e => (t.lane, sdAddr v (x.lane t.lane).item.toNat e)))
    let far := maskWhere ads (fun a => a.1) (fun a => decide (a.2 < 0) || decide ((2 ^ 55 : Int) ≤ a.2))
    if far ≠ 0 then .error (.plain cADDR_RANGE far)
    else
      let accs : List LaneAcc := ads.map (fun a => { lane := a.1, ea := a.2.toNat, n := n })
      match s.checkLanes x kind 0 1 accs with
      | .error (.trap c m _ a) => .error (.portTrap k c m a)
      | .error (.park ks) => .error (.park (ks.map (fun q => { q with port := some k })))
      | r => r

/-- Writes the counters and `%eos` bits of a port's steps (R71, R212). -/
def Group.advancePort (x : Group) (k : Nat) (p : Port) (steps : List PortStep) : Group :=
  let cs := steps.foldl (fun (c : Cells Nat) t => cput 0 c t.lane t.next) p.steps
  let ah := p.ahead.filter (fun a => !(steps.any (fun t => t.lane == a.1 && decide (a.2.1 < t.next))))
  { x with ports := cput none x.ports k (some { p with steps := cs, ahead := ah }),
           sr := { x.sr with eos := x.sr.eos ||| maskWhere steps (fun t => t.lane) (fun t => t.eos) } }

/-- The engine has an element ready: it has read it ahead, or finds it in the L1 (R72, R213; log 93). -/
def Port.ready (p : Port) (s : State) (x : Group) (q : LaneAcc × Place) : Bool :=
  p.ahead.any (fun a => a.1 == q.1.lane && a.2.1 == cget 0 p.steps q.1.lane) || !(s.missOf x [q]).1

/-- The engine reads the elements that a pop waits for (R72, R213). -/
def State.readAheadNow (s : State) (g k : Nat) (pol n : Nat) (qs : List (LaneAcc × Place)) : State :=
  match s.group? g with
  | none => s
  | some x =>
    match x.port? k with
    | none => s
    | some p =>
      let r := qs.foldl (fun (acc : State × List (Nat × Nat × Nat × Bool)) q =>
        let r := acc.1.readPlace { x with slot := none } x.agent .pop pol q.2 n
        (r.1, acc.2 ++ [(q.1.lane, cget 0 p.steps q.1.lane, r.2.1, r.2.2)])) (s, [])
      r.1.modGroup g (fun x => { x with ports := cput none x.ports k (some { p with ahead := p.ahead ++ r.2 }) })

/-- Pops a port once for its lane set (R71, R72, R213): the values by lane with their poison. A helper in `act` receives the
fill value. Capture logs the values as entries of kind `ck`, `cn` bytes a lane, for the instruction at `pc` (R432). -/
def State.popPortAs (s : State) (g : Nat) (x : Group) (k : Nat) (m act : Mask) (ck cn pc : Nat) :
    Except Stop (State × List (Nat × Nat × Bool)) :=
  match x.port? k with
  | none => .error (.plain cSTREAM_UNBOUND (if act = 0 then m else act))
  | some p =>
    let v := leNat p.desc
    let n := sdSize v
    let steps := (portLanes x v m act).map (portStep v p)
    match s.portPlaces x k v .pop steps with
    | .error e => .error e
    | .ok pls =>
      -- with an element that is not ready the group waits, and the engine reads it (R72)
      let due := pls.filter (fun q => !p.ready s x q)
      if !due.isEmpty && !s.replaysTeam x.team then .error (.holdAnd (fun s => s.readAheadNow g k (sdPol v) n due)) else
      let s0 := s
      let (s, vals) := pls.foldl (fun (acc : State × List (Nat × Nat × Bool)) lp =>
        let st := cget 0 p.steps lp.1.lane
        let (s, val, po) := acc.1.readPlace x x.agent .pop (sdPol v) lp.2 n
        match p.ahead.find? (fun a => a.1 == lp.1.lane && a.2.1 == st) with
        | some a => (s, acc.2 ++ [(lp.1.lane, a.2.2.1, a.2.2.2)])
        | none => (s, acc.2 ++ [(lp.1.lane, val, po)])) (s, [])
      let (s, vals) := s0.capRead s g ck pc cn vals
      let fills := (steps.filter (fun t => t.elem.isNone)).map (fun t => (t.lane, sdFill v, false))
      let helps := ((lanesOf act).filter (fun l => (x.lane l).st == .helper)).map (fun l => (l, sdFill v, false))
      .ok (s.modGroup g (fun x => x.advancePort k p steps), vals ++ fills ++ helps)

/-- Pops a port for an instruction of the group (R72). -/
def State.popPort (s : State) (g : Nat) (x : Group) (k : Nat) (m act : Mask) :
    Except Stop (State × List (Nat × Nat × Bool)) := s.popPortAs g x k m act 2 8 x.pcNow

/-- Pushes the values of lanes to a port: guarded-off lanes of an aligned port advance and write nothing (R72, R213). -/
def State.pushPort (s : State) (g : Nat) (x : Group) (k : Nat) (m act : Mask) (vals : List (Nat × Nat × Bool)) :
    Except Stop State :=
  match x.port? k with
  | none => .error (.plain cSTREAM_UNBOUND (if act = 0 then m else act))
  | some p =>
    let v := leNat p.desc
    let n := sdSize v
    let steps := (portLanes x v m act).map (portStep v p)
    let writing := steps.filter (fun t => act.getLsbD t.lane || t.trap)
    match s.portPlaces x k v .push writing with
    | .error e => .error e
    | .ok pls =>
      match s.orderWrites x (pls.map (fun q => q.2)) with
      | .error e => .error e
      | .ok s =>
      let s0 := s
      let s := pls.foldl (fun (s : State) lp =>
        match vals.find? (fun q => q.1 == lp.1.lane) with
        | some q => s.writePlace x x.agent .push (sdPol v) lp.2 n (q.2.1 % 2 ^ (8 * n)) q.2.2
        | none => s) s
      let s := s0.capWrite s g 4 x.pcNow 16 (pls.filterMap (fun lp =>
        (vals.find? (fun q => q.1 == lp.1.lane)).map (fun q => (lp.1.lane, lp.1.ea + 2 ^ 64 * (q.2.1 % 2 ^ (8 * n)), q.2.2))))
      let s := s.modGroup g (fun x => x.advancePort k p steps)
      .ok (if pls.isEmpty then s else s.progress g)

end Sys2Proof.Machine
end

