-- ==== Sys2Proof/Machine/Operands.lean ====
section
/-! DEFINITION. Operands (R61 to R72, R81, R82): views, side files, system registers, immediates; the checks made at issue
(R63, R72, R88); results and the last-result file (R67). -/

namespace Sys2Proof.Machine

/-! ### Views (R62, R63) -/

/-- COUNT of a view (R62). -/
def vwCount (v : Nat) : Nat := bitsOf v 11 0
/-- The element width of a view in bytes; none for a reserved code (R62). -/
def vwWidth (v : Nat) : Option Nat :=
  match bitsOf v 19 16 with
  | 0 => some 1 | 1 => some 2 | 2 => some 4 | 3 => some 8 | 4 => some 12 | _ => none
/-- addr(k, n, l) (R63). -/
def vwAddr (v n l : Nat) : Nat := bitsOf v 63 48 + n * bitsOf v 47 32 + l * bitsOf v 31 20

/-! ### System registers (R69, R165, R293) -/

/-- `%place` of a group (R15). -/
def State.placeReg (s : State) (x : Group) : Nat := (s.clusterOf x).vdie * 2 ^ 48 + s.gcore x.core * 2 ^ 30

/-- `%split` of a context (R434): its own bits [1:0], and the module's bits [6:2]. -/
def State.splitReg (s : State) (c : Nat) : Nat := (s.ctx c).split.toNat + bitsOf s.host.msplit.toNat 6 2 * 4

/-- A write-pointer register (R203). -/
def State.wpReg (s : State) (core k : Nat) : Nat :=
  let ch : Chan := cget {} (s.core core).chans k
  ch.serial.toNat * 2 ^ 56 + (if ch.idle then 2 ^ 48 else 0) + ch.len.toNat

/-- The value of a system register for a lane (R69, R165, R293). -/
def State.sysRead (s : State) (x : Group) (r : SysReg) (l : Nat) : Nat :=
  let t := x.sr.trap
  let d := (s.ctx x.ctx).desc
  match r with
  | .lane => l
  | .item => (x.lane l).item.toNat
  | .age => (x.lane l).age.toNat
  | .cdepth => if x.handler then (x.lane l).hstk.length else (x.lane l).rstk.length
  | .eos => x.sr.eos.toNat
  | .helper => x.helpers.toNat
  | .live => x.live.toNat
  | .vw k => x.view k.toNat
  | .fstat => x.sr.fstat.toNat
  | .seed => x.sr.seed.toNat
  | .zskip => x.sr.zskip.toNat
  | .place => s.placeReg x
  | .step => (s.ctx x.ctx).step.toNat
  | .scrbase => d.scrb
  | .clubase => d.club
  | .prvbase => d.prvb
  | .capbase => d.capb
  | .wp k => s.wpReg x.core k.toNat
  | .team => (s.teamOf x).num
  | .group => x.num
  | .clu => (s.clusterOf x).num
  | .cluteam => ((s.clusterOf x).teams.takeWhile (fun t => t != x.team)).length
  | .trange => (s.teamOf x).first + (s.teamOf x).count * 2 ^ 32
  | .tvec => x.sr.tvec.toNat
  | .split => s.splitReg x.ctx
  | .tcause => if x.handler then t.cause.toNat else 0
  | .tpc => if x.handler then t.pc.toNat else 0
  | .tprio => if x.handler then t.prio.toNat else 0
  | .tmask => if x.handler then t.mask.toNat else 0
  | .tinfo => if x.handler then t.info.toNat else 0

/-! ### Immediates (R82) -/

/-- A 16-bit immediate as an operand of a type. -/
def immValue (t : Ty) (k : BitVec 16) : Nat :=
  match t with
  | .e4m3 | .e5m2 | .bf16 | .f16 | .f32 | .f64 | .a80f => (round t .rne 1 (Val.ofInt k.toInt)).code
  | t => wrapBits (Ty.bits t) k.toInt

/-- A wide immediate as an operand of a type. -/
def wideValue (t : Ty) (q : Word32) : Nat :=
  match t with
  | .f32 => q.toNat
  | .e4m3 | .e5m2 | .bf16 | .f16 | .f64 | .a80f =>
    let v := valOf .f32 q.toNat
    if v.isNaN then canonNaN t else (round t .rne 1 v).code
  | .i64 | .a80i => wrapBits (Ty.bits t) q.toInt
  | t => q.toNat % 2 ^ Ty.bits t

/-- A predicate's bit as an operand of a type: the number 1 or 0 in it (R66). sx8 has no zero (R41); its nearest code stands for it
(log 68). -/
def boolValue (t : Ty) (b : Bool) : Nat :=
  match t with
  | .ts8 | .sx8 => (round t .rne 1 (Val.ofInt (if b then 1 else 0))).code
  | t => if b then immValue t 1 else 0

/-! ### Reading sources -/

/-- The low bits of a 64-bit file entry, and the poison of the halves they touch (R66). -/
def pwRead (y : PW) (bits : Nat) : Nat × Bool :=
  (y.v.toNat % 2 ^ bits, y.p.getLsbD 0 || (decide (32 < bits) && y.p.getLsbD 1))

/-- A source operand: where it stands, its type and the bytes it takes in register space. -/
structure Src where
  o : Opnd
  ty : Ty
  raw : Bool := false          -- an integer source whatever the type: an immediate's low bits (R82)
  conv : Option Ty := none     -- the type an immediate is converted to, when it is not `ty` (R82)
  deriving DecidableEq, Repr

/-- Values popped from ports before the other sources are read: port, lane, value, poison. -/
abbrev Popped := List (Nat × Nat × Nat × Bool)

/-- A lane's value of a source, its poison, and the zero-flagged words it skipped (R61, R66, R69, R81, R82). -/
def State.readSrc (s : State) (x : Group) (pop : Popped) (q : Src) (l : Nat) : Nat × Bool × Nat :=
  let n := Ty.bytes q.ty
  let bits := Ty.bits q.ty
  let file (y : PW) : Nat × Bool × Nat := let r := pwRead y bits; (r.1, r.2, 0)
  let cut (r : Nat × Bool × Nat) : Nat × Bool × Nat := if bits < 8 then (r.1 % 2 ^ bits, r.2) else r
  match q.o with
  | .nil => (0, false, 0)
  | .view k i => cut (readWords x.rf.win (vwAddr (x.view k.toNat) i.toNat l) n)
  | .opf k => file (cget {} x.rf.ofile (32 * k.toNat + l))
  | .last k => file (cget {} (x.rf.lf.entry k.toNat) l)
  | .scal k => file (cget {} x.rf.scal k.toNat)
  | .pred k =>      -- 1 or 0 in the instruction's type (R66); an index is an integer whatever the type (log 97)
    let b := k == 15 || (cget 0 x.rf.preds k.toNat).getLsbD l
    (if q.raw then (if b then 1 else 0) else boolValue (q.conv.getD q.ty) b, false, 0)
  | .port k =>
    match pop.find? (fun p => p.1 == k.toNat && p.2.1 == l) with
    | some p => (p.2.2.1 % 2 ^ bits, p.2.2.2, 0)
    | none => (0, false, 0)
  | .sys r => (s.sysRead x r l % 2 ^ bits, false, 0)
  | .imm k => (if q.raw then wrapBits bits k.toInt else immValue (q.conv.getD q.ty) k, false, 0)
  | .rs a => cut (readWords x.rf.win a.toNat n)
  | .wide w => (wideValue q.ty w, false, 0)
  | .raw _ => (0, false, 0)

/-- Writes the bits of some lanes of a predicate; a write to `p15` is discarded (R66). -/
def Group.setPred (x : Group) (k : Nat) (lanes v : Mask) : Group :=
  if k = 15 then x
  else { x with rf := { x.rf with preds := cput 0 x.rf.preds k ((cget 0 x.rf.preds k &&& ~~~lanes) ||| (v &&& lanes)) } }

/-- Writes a scalar register (R66). -/
def Group.setScal (x : Group) (k v bits : Nat) (p : Bool) : Group :=
  let y : PW := { v := BitVec.ofNat 64 (v % 2 ^ bits), p := (if p then 1 else 0) ||| (if p && decide (32 < bits) then 2 else 0) }
  { x with rf := { x.rf with scal := cput {} x.rf.scal k y } }

/-! ### The instruction in hand -/

/-- What a meaning knows of the instruction it carries out: the group as it stands at issue, its chosen entry, the entry's
lanes that are not empty, and `act` (R70, R153). -/
structure Iss where
  g : Nat
  x : Group
  ent : Ent
  m : Mask
  act : Mask

/-- The lanes that a cause found at issue is raised for: `act`, or the entry's lanes when `act` is empty (log 13). -/
def Iss.fault (c : Iss) : Mask := if c.act = 0 then c.m else c.act

/-- The lanes of `act` that are not helpers. -/
def Iss.real (c : Iss) : Mask := c.act &&& ~~~c.x.helpers

/-- A register operand for the checks of R63 and R88: its place, the bytes it takes, and the lanes whose bytes it takes. -/
structure Use where
  o : Opnd
  n : Nat
  lanes : Mask
  dest : Bool := false
  block : Bool := false      -- a block that may run past its element (R186): the width check asks for one byte
  mat : Bool := false        -- of a matrix operation: bounds are checked by R231, locks do not hold it (R235)
  exact : Bool := false      -- an address: the view's elements are exactly as wide (R177)
  deriving DecidableEq, Repr

/-- Check 1 of R63: VIEW_RANGE. -/
def Use.outOfRange (x : Group) (u : Use) : Bool :=
  match u.o with
  | .view k i => decide (vwCount (x.view k.toNat) ≤ i.toNat)
  | _ => false

/-- Check 2 of R63, and the 12-byte types of R66: VIEW_WIDTH. -/
def Use.tooWide (x : Group) (u : Use) : Bool :=
  match u.o with
  | .view k _ => (match vwWidth (x.view k.toNat) with
    | some w => decide (w < (if u.block then 1 else u.n)) || (u.exact && w != u.n)
    | none => true)
  | .opf _ | .last _ | .scal _ => decide (8 < u.n)
  | _ => false

/-- Check 3 of R63: a byte at W or above, for the lanes that are accessed; a raw operand whatever `act` holds. -/
def Use.outOfBounds (x : Group) (u : Use) : Bool :=
  if u.mat then false else match u.o with
  | .view k i => (lanesOf u.lanes).any (fun l => decide (x.rf.wbytes < vwAddr (x.view k.toNat) i.toNat l + u.n))
  | .rs a => decide (x.rf.wbytes < a.toNat + u.n)
  | _ => false

/-- Check 11 of R89 over all operands together (R63). -/
def checkViews (x : Group) (us : List Use) : Option Cause :=
  if us.any (Use.outOfRange x) then some cVIEW_RANGE
  else if us.any (Use.tooWide x) then some cVIEW_WIDTH
  else if us.any (Use.outOfBounds x) then some cRS_BOUNDS
  else none

/-- The cause that a named port raises at issue (R72, R211). -/
def portCause (x : Group) (u : Use) : Option Cause :=
  match u.o with
  | .port k =>
    match x.port? k.toNat with
    | none => some cSTREAM_UNBOUND
    | some p =>
      let v := leNat p.desc
      if v.testBit 453 != u.dest then some cSTREAM_DIR
      else if bitsOf v 461 459 != 0 && !u.mat then some cSTREAM_KIND else none
  | _ => none

/-- Check 12 of R89: STREAM_UNBOUND of any port before STREAM_DIR of any, then STREAM_KIND (R72, R211). -/
def checkPorts (x : Group) (us : List Use) : Option Cause :=
  let cs := us.filterMap (portCause x)
  if cs.contains cSTREAM_UNBOUND then some cSTREAM_UNBOUND
  else if cs.contains cSTREAM_DIR then some cSTREAM_DIR
  else cs.head?

/-- The scoreboard keys of an operand over every lane: register-space words, and side-file entries (R88). -/
def Use.keys (x : Group) (u : Use) : List Nat :=
  match u.o with
  | .view k i => (List.range 32).flatMap (fun l => wordsOf (vwAddr (x.view k.toNat) i.toNat l) u.n)
  | .rs a => wordsOf a.toNat u.n
  | .opf k => [2 ^ 20 + k.toNat]
  | .last k => if u.dest then [] else [2 ^ 21 + k.toNat]
  | .scal k => [2 ^ 22 + k.toNat]
  | _ => []

/-- The scoreboard keys of a pending instruction: its pending destinations (R88). -/
def Pend.keys (p : Pend) : List Nat :=
  p.writes.flatMap (fun w => match w with
    | .rs a n _ _ => wordsOf a n
    | .opf k _ _ => [2 ^ 20 + k]
    | .scal k _ => [2 ^ 22 + k])
  ++ (match p.lpos with | some k => [2 ^ 21 + k] | none => [])

/-- The pending instructions that an instruction depends on (R88). -/
def dependsOn (x : Group) (us : List Use) : List Pend :=
  if x.pend.isEmpty then []
  else
    let ks := us.flatMap (Use.keys x)
    x.pend.filter (fun p => p.keys.any (fun k => ks.contains k))

/-- The pending instructions that are depended on complete; the rest stay (R88, scoreboard). -/
def Group.completeThese (x : Group) (ps : List Pend) : Group :=
  { (x.pend.filter (fun p => ps.contains p)).foldl Group.complete x with pend := x.pend.filter (fun p => !ps.contains p) }

/-- Every window covers one instruction fewer (R88). -/
def Group.countWindows (x : Group) : Group :=
  { x with pend := x.pend.map (fun p => { p with window := p.window - 1 }),
           cvts := x.cvts.map (fun q => { q with window := q.window - 1 }) }

/-- The register-space rows that a source operand needs for the lanes of `act`: rows with a word that is not zero (R77). -/
def Use.rows (x : Group) (u : Use) : List Nat :=
  let ws := match u.o with
    | .view k i => (lanesOf u.lanes).flatMap (fun l => wordsOf (vwAddr (x.view k.toNat) i.toNat l) u.n)
    | .rs a => if u.lanes = 0 then [] else wordsOf a.toNat u.n
    | _ => []
  if u.dest then [] else (ws.filter (fun w => (x.rf.word w).v != 0)).map (fun w => w / 32)

/-- The collection cycles beyond 3: the excess of the largest number of distinct rows needed from one bank (R77). -/
def bankExcess (x : Group) (us : List Use) : Nat :=
  let rows := (us.flatMap (Use.rows x)).eraseDups
  (List.range 32).foldl (fun m b => max m ((rows.filter (fun r => r % 32 == b)).length - 3)) 0

/-- The granules of the window that operands touch (R74). -/
def granulesOf (x : Group) (us : List Use) : List Nat :=
  let span (a n : Nat) : List Nat := (List.range ((a % 4096 + n + 4095) / 4096)).map (fun i => a / 4096 + i)
  (us.flatMap (fun u => match u.o with
    | .view k i => (lanesOf u.lanes).flatMap (fun l => span (vwAddr (x.view k.toNat) i.toNat l) u.n)
    | .rs a => span a.toNat u.n
    | _ => [])).eraseDups

/-! ### Results (R67, R103) -/

/-- A lane's result. -/
structure LaneRes where
  lane : Nat
  v : Nat
  p : Bool
  deriving DecidableEq, Repr

/-- An instruction with this destination is result-writing (R67). -/
def resultWriting : Opnd → Bool
  | .view _ _ | .opf _ | .last _ | .port _ | .rs _ => true
  | _ => false

/-- A 64-bit file entry of a value (R66). -/
def pwOf (v bits : Nat) (p : Bool) : PW :=
  { v := BitVec.ofNat 64 v, p := (if p then 1 else 0) ||| (if p && decide (32 < bits) then 2 else 0) }

/-- The writes that put results of `bits` bits, `n` bytes in register space, into a destination (R61, R66). -/
def destWrites (x : Group) (d : Opnd) (n bits : Nat) (rs : List LaneRes) : List RWrite :=
  rs.filterMap (fun r => match d with
    | .view k i => some (.rs (vwAddr (x.view k.toNat) i.toNat r.lane) n r.v r.p)
    | .rs a => some (.rs a.toNat n r.v r.p)
    | .opf k => some (.opf k.toNat r.lane (pwOf r.v bits r.p))
    | .scal k => some (.scal k.toNat (pwOf r.v bits r.p))
    | _ => none)

/-- The last-result entry of results: +0 in every lane without one; of a longer value its first 8 bytes (R67). -/
def lastEntry (bits : Nat) (rs : List LaneRes) : Cells PW :=
  rs.foldl (fun (t : Cells PW) r => cput {} t r.lane (pwOf (r.v % 2 ^ 64) (min bits 64) r.p)) []

/-- The last-result file shifts; entries still pending move with it (R67). -/
def Group.shiftLast (x : Group) (e : Cells PW) : Group :=
  { x with rf := { x.rf with lf := x.rf.lf.shift e },
           pend := x.pend.map (fun p => { p with lpos := match p.lpos with
             | some k => if k < 3 then some (k + 1) else none
             | none => none }) }

/-- Results are written at once, or stay pending in a window (R67, R88). -/
def Group.putResults (x : Group) (d : Opnd) (n bits : Nat) (rs : List LaneRes) (late : Option (Nat × Bool × Bool)) : Group :=
  let ws := destWrites x d n bits rs
  let le := lastEntry bits rs
  match late with
  | none =>
    let x := ws.foldl Group.applyWrite x
    if resultWriting d then x.shiftLast le else x
  | some (window, m1, m2) =>
    let x := if resultWriting d then x.shiftLast [] else x
    { x with pend := x.pend ++ [{ window := window, writes := ws, lvals := le,
                                  lpos := if resultWriting d then some 0 else none, missL1 := m1, missL2 := m2 }] }

/-- Writes the results of an instruction: pushes for a port, else registers (R67, R72, R106 `write`). -/
def State.putResults (s : State) (c : Iss) (d : Opnd) (n bits : Nat) (rs : List LaneRes) (late : Option (Nat × Bool × Bool)) :
    Except Stop State :=
  match d with
  | .port k =>
    match s.group? c.g with
    | none => .ok s
    | some x =>
      match s.pushPort c.g x k.toNat c.m c.act (rs.map (fun r => (r.lane, r.v, r.p))) with
      | .error e => .error e
      | .ok s => .ok (s.modGroup c.g (fun x => x.putResults d n bits rs late))
  | d => .ok (s.modGroup c.g (fun x => x.putResults d n bits rs late))

/-- The ports that an instruction's operands name, each once, with whether it pushes; a matrix operation's are popped by its steps. -/
def usedPorts (us : List Use) : List (Nat × Bool) :=
  (us.filterMap (fun u => match u.o with | .port k => if u.mat then none else some (k.toNat, u.dest) | _ => none)).eraseDups

/-- What the pop or push of a port meets, if it meets anything (R211 to R214). -/
def State.portMeets (s : State) (c : Iss) (q : Nat × Bool) : Option Stop :=
  match c.x.port? q.1 with
  | none => none
  | some p =>
    let v := leNat p.desc
    let steps := (portLanes c.x v c.m c.act).map (portStep v p)
    match s.portPlaces c.x q.1 v (if q.2 then .push else .pop) (if q.2 then steps.filter (fun t => c.act.getLsbD t.lane || t.trap) else steps) with
    | .error st => some st
    | .ok _ => none

/-- The causes of a pop or push in the order in which they are checked (R211, R212, R180, R361). -/
def portCauses : List Cause :=
  [cSTREAM_END, cADDR_RANGE, cSCR_BOUNDS, cCLU_RANGE, cCOPY_APERTURE, cTIER_ACCESS, cPTE_POISON, cPTE_CRIT, cPTE_INVALID, cPAGE_PERM]

/-- The cause of a stop, and its lanes. -/
def Stop.cause? : Stop → Option (Cause × Mask)
  | .trap c m _ _ => some (c, m)
  | .portTrap _ c m _ => some (c, m)
  | _ => none

/-- Widens the lanes of a trap. -/
def Stop.withMask (m : Mask) : Stop → Stop
  | .trap c _ i a => .trap c m i a
  | .portTrap k c _ a => .portTrap k c m a
  | st => st

/-- The first stop of a list that raises a cause, for the lanes of every stop that raises it. -/
def raisedBy (sts : List Stop) (k : Cause) : Option Stop :=
  match sts.find? (fun st => st.cause?.any (fun q => q.1 == k)) with
  | none => none
  | some st => some (st.withMask (sts.foldl (fun m st => match st.cause? with | some q => if q.1 = k then m ||| q.2 else m | none => m) 0))

/-- The stops of several ports together: the earliest cause, of any port; else every fault parks the group; else the group waits
(R104, R361, R363, log 78). -/
def combineStops (sts : List Stop) : Option Stop :=
  match firstSome (raisedBy sts) portCauses with
  | some st => some st
  | none =>
    let ks := sts.flatMap (fun st => match st with | .park ks => ks | _ => [])
    if ks.isEmpty then sts.head? else some (.park ks)

/-- What the ports of an instruction meet, before any lane writes or pushes (R104, R214, R361, R363). -/
def State.portStop (s : State) (c : Iss) (us : List Use) : Option Stop :=
  if (usedPorts us).isEmpty then none else combineStops ((usedPorts us).filterMap (s.portMeets c))

/-- Pops every port that the sources name, once each (R72); where several stop the instruction, see `State.portStop` (log 78). -/
def State.popAll (s : State) (c : Iss) : List (BitVec 4) → Except Stop (State × Popped)
  | [] => .ok (s, [])
  | k :: r =>
    match s.popAll c r with
    | .error e => .error e
    | .ok (s, ps) =>
      match s.group? c.g with
      | none => .ok (s, ps)
      | some x =>
        match s.popPort c.g x k.toNat c.m c.act with
        | .error e => .error e
        | .ok (s, vs) => .ok (s, ps ++ vs.map (fun v => (k.toNat, v)))

/-- The distinct ports among sources. -/
def portsOf (qs : List Src) : List (BitVec 4) :=
  (qs.filterMap (fun q => match q.o with | .port k => some k | _ => none)).eraseDups

end Sys2Proof.Machine
end

