-- ==== Sys2Proof/Machine/Locks.lean ====
section
/-! DEFINITION. Fragments (R220) and the locks of matrix operations (R234, R235). -/

namespace Sys2Proof.Machine

/-- K of a format alone (R220). -/
def fmtK : Ty → Nat
  | .f32 => 2
  | .bf16 | .f16 => 8
  | .ts8 | .sm4 => 32
  | _ => 16

/-- The formats of a reservation word (R223): A and B. -/
def obFmtA (w : Nat) : Ty := (tyOfCode (BitVec.ofNat 5 (bitsOf w 4 0))).getD .f32
/-- The B format. -/
def obFmtB (w : Nat) : Ty := (tyOfCode (BitVec.ofNat 5 (bitsOf w 9 5))).getD .f32

/-- K of a step (R220). -/
def stepK (w : Nat) : Nat := min (fmtK (obFmtA w)) (fmtK (obFmtB w))
/-- The fragment length of a format at a K (R220). -/
def fragLen (t : Ty) (k : Nat) : Nat := k * Ty.bits t / 8

/-- A run of byte ranges: N ranges of n bytes at a, a + inc, … -/
structure Run where
  a : Int
  inc : Int
  count : Nat
  n : Nat
  deriving DecidableEq, Repr

/-- Some range of a run meets the bytes b .. b+m−1: the first range that ends beyond b, in the direction of the increment,
decides. -/
def Run.hits (r : Run) (b m : Nat) : Bool :=
  let below (a : Int) : Bool := decide (a + r.n ≤ b)          -- the range ends at or below b
  let above (a : Int) : Bool := decide ((b : Int) + m ≤ a)    -- it starts beyond
  if r.count = 0 ∨ r.n = 0 ∨ m = 0 then false
  else if r.inc = 0 then !below r.a && !above r.a
  else if 0 < r.inc then
    let t := if below r.a then (((b : Int) - r.a - r.n) / r.inc + 1).toNat else 0
    decide (t < r.count) && !above (r.a + r.inc * t)
  else
    let t := if above r.a then ((r.a - b - m) / (-r.inc) + 1).toNat else 0
    decide (t < r.count) && !below (r.a + r.inc * t)

/-- Some range of a run lies below 0 or at w or above (R231). -/
def Run.leaves (r : Run) (w : Nat) : Bool :=
  let last := r.a + r.inc * ((r.count : Int) - 1)
  decide (0 < r.count) && (decide (r.a < 0) || decide (last < 0) || decide ((w : Int) < r.a + r.n) || decide ((w : Int) < last + r.n))

/-- The reservation word of a team (0 for one that is not live). -/
def State.obWord (s : State) (t n : Nat) : Nat := (cget 0 ((s.team? t).map (fun (q : Team) => q.obres) |>.getD []) n).toNat

/-- The bytes per lane that a step takes of a source. -/
def MatOp.frag (o : MatOp) (w : Nat) (b : Bool) : Nat :=
  fragLen (if b then obFmtB w else obFmtA w) (stepK w) * (if o.b16 then 4 else 1)

/-- The bytes that an operation will still take from register space: its write lock (R234). -/
def State.writeLock (s : State) (team : Nat) (o : MatOp) : List Run :=
  let w := s.obWord team o.res
  if o.kind ≤ 2 then
    o.adrA.map (fun a => { a := a, inc := o.incA, count := o.steps, n := o.frag w false })
      ++ o.adrB.map (fun a => { a := a, inc := o.incB, count := o.steps, n := o.frag w true })
  else (o.adrA ++ o.adrB).map (fun (a : Nat) => { a := (a : Int), inc := 0, count := 1, n := 384 })

/-- The bytes that MLOOP, MSTEP, MZERO and MACC write: the full lock (R234). -/
def MatOp.fullLock (o : MatOp) : List Run :=
  if o.kind = 5 then [] else o.adrD.map (fun (a : Nat) => { a := (a : Int), inc := 0, count := 1, n := 384 })

/-- The byte ranges that an operand takes. -/
def Use.ranges (x : Group) (u : Use) : List (Nat × Nat) :=
  match u.o with
  | .view k i => (lanesOf u.lanes).map (fun l => (vwAddr (x.view k.toNat) i.toNat l, u.n))
  | .rs a => [(a.toNat, u.n)]
  | _ => []

/-- Some port is locked (R234, R235). -/
def State.portLocked (s : State) (g core : Nat) : Bool := (s.opsOf g core).any (fun o => o.portA.isSome || o.portB.isSome)

/-- An instruction is held by a lock of its group's matrix operations (R235). -/
def State.lockHolds (s : State) (g : Nat) (x : Group) (e : Enc) (us : List Use) : Bool :=
  let ops := s.opsOf g x.core
  if ops.isEmpty then false
  else
    let names := [e.d, e.a, e.b].filterMap (fun o => match o with | .port k => some k.toNat | _ => none)
    let hit (rs : List Run) (u : Use) : Bool := (u.ranges x).any (fun q => rs.any (fun r => r.hits q.1 q.2))
    ops.any (fun o => (o.portA.any names.contains) || (o.portB.any names.contains)
      || us.any (fun u => hit o.fullLock u || (u.dest && hit (s.writeLock x.team o) u)))

/-- Two byte ranges touch a common register word (R61, R88). -/
def wordsMeet (a n b m : Nat) : Bool :=
  n != 0 && m != 0 && rangesMeet (a / 4) ((a + n - 1) / 4 + 1 - a / 4) (b / 4) ((b + m - 1) / 4 + 1 - b / 4)

/-- The pending destinations of MCVTs that an instruction touches, over every lane, by words (R88, R234). -/
def touchedCvts (x : Group) (us : List Use) : List CvtDest :=
  x.cvts.filter (fun q => us.any (fun u =>
    (({ u with lanes := ~~~0 } : Use).ranges x).any (fun z => q.dests.any (fun d => wordsMeet z.1 z.2 d.1 d.2))))

/-- A handler runs while an operation of its group is suspended: the locks of that operation and of those behind it, which only
RFT or MSYNC.abort can release, do not hold the handler, so that it can rewrite an element (R240, R243, log 18). -/
def State.locksOpen (s : State) (g : Nat) (x : Group) : Bool := x.handler && (s.opsOf g x.core).any (fun o => o.suspended)

/-- An MCVT that rounds by rsto has still to step the rounding states (R238). -/
def State.statesDue (s : State) (g core : Nat) : Bool := (s.opsOf g core).any (fun o => o.kind == 5 && o.cMod.toNat % 8 == 4)

/-- The fields of an instruction that steps or sets the rounding states: rsto in MOD[2:0] (where these bits are no rounding mode, the
instruction waits for nothing it needs), or `%seed` as the destination (R45, R50). -/
def stepsStates (e : Enc) : Bool := e.mod.toNat % 8 == 4 || e.d == .sys .seed

/-- An instruction that is no matrix operation is held: it touches what an MCVT has still to write, a lock holds it, or it rounds by rsto
or sets the seed behind an MCVT that has still to step the states (R51, R88, R234, R235). -/
def State.matrixHolds (s : State) (g : Nat) (x : Group) (e : Enc) (us : List Use) : Bool :=
  !s.locksOpen g x && (!(touchedCvts x us).isEmpty || s.lockHolds g x e us || (stepsStates e && s.statesDue g x.core))

/-- The unit has work of a group that a trap entry or a parking waits for: an MCVT, which is a long-latency instruction (R87, R88,
R165), unless it stands behind a suspended operation; or a running MZERO, MACC or MCVT, which has no step boundary (R244). -/
def State.unitBusy (s : State) (g : Nat) (x : Group) : Bool :=
  (!x.cvts.isEmpty && !(s.opsOf g x.core).any (fun o => o.suspended)) || (s.opsOf g x.core).any (fun o => o.running && decide (3 ≤ o.kind))

/-- Some port of a group is bound for writing. -/
def Group.pushes (x : Group) : Bool := x.ports.any (fun p => p.2.any (fun q => (leNat q.desc).testBit 453))

/-- A state that a step of a group leads to; but where it enters the handler, parks or freezes while the unit has work that comes first, the
group is held instead, and does it again later (R88, R165, R244). -/
def State.unlessBusy (s : State) (g : Nat) (x : Group) (t : State) : State :=
  if s.unitBusy g x then
    match t.group? g with
    | none => t
    | some y =>
      let cvt := !x.cvts.isEmpty && !(s.opsOf g x.core).any (fun o => o.suspended)
      if (cvt && ((y.handler && !x.handler) || y.st == .frozen)) || y.st == .parked then s.modGroup g (fun x => { x with held := true }) else t
  else t

/-- A group that would park has pushes that are not yet performed: they come first (R216). -/
def State.pushesPend (s : State) (x : Group) : Bool := x.pushes && (s.grantUpTo (whoCore x.core)).unperformed x.agent

/-- A state in which a group has parked; it is held instead, and does it again later, while it has pushes to perform (R216). -/
def State.unlessPushing (s : State) (g : Nat) (x : Group) (t : State) : State :=
  if s.pushesPend x then
    match t.group? g with
    | some y => if y.st = .parked then s.modGroup g (fun x => { x with held := true }) else t
    | none => t
  else t

end Sys2Proof.Machine
end

