-- ==== Sys2Proof/Machine/Fetch.lean ====
section
/-! DEFINITION. Fetching an instruction (R79, R80, R268), and what a group is held on (R88, R306, R307). -/

namespace Sys2Proof.Machine

/-! ### Fetch (R79, R80) -/

/-- The code base in force: the header's, or `%tvec` in handler mode (R79, R268). -/
def State.codeBase (s : State) (x : Group) : Nat :=
  if x.handler then x.sr.tvec.toNat else (s.launchOf x).hdr.codeBase.toNat

/-- The first PC beyond the code in force (R80, R268). -/
def State.codeEnd (s : State) (x : Group) : Nat := if x.handler then 32768 else (s.launchOf x).hdr.codeLen

/-- The virtual address of an instruction (R79). -/
def State.fetchVa (s : State) (x : Group) (pc : Nat) : Nat := s.codeBase x + 12 * pc

/-- The pieces of a fetch: pages present and executable, or the stop it meets for the lanes of the entry (R80, R357, R361). -/
def State.fetchPlace (s : State) (x : Group) (e : Ent) : Except Stop (List Seg) :=
  let va := s.fetchVa x e.pc.toNat
  match s.translateAll x .fetch none ((lanesOf e.mask).map (fun l => ({ lane := l, ea := va, n := 12 }, .virt va))) with
  | .error st => .error st
  | .ok pls => .ok (match pls.head? with
    | some (_, .mem segs) => segs
    | _ => [])

/-- The virtual address of the block of 32 words that holds a PC (R80). -/
def State.blockVa (s : State) (x : Group) (pc : Nat) : Nat := s.fetchVa x (pc / 32 * 32)

/-- The block of a group's core that holds a PC, if its instruction cache has it with that word. -/
def State.cachedWord (s : State) (x : Group) (pc : Nat) : Option (List Byte) :=
  ((s.core x.core).icache.find? (fun b => b.1 == (s.ctx x.ctx).desc.asid && b.2.1 == s.blockVa x pc)).bind
    (fun b => tget? b.2.2 (s.fetchVa x pc))

/-- The bytes of the word at a PC, whose fetch has these pieces (R79): of the instruction cache, which is not coherent with stores, or of
memory (R80). -/
def State.fetchBytes (s : State) (x : Group) (pc : Nat) (segs : List Seg) : List Byte :=
  (s.cachedWord x pc).getD (segs.flatMap (fun q => s.memBytes q.pa q.n))

/-- The words of a PC's block that the fetch of its own word brings in: those that lie in the same page whole (R80). -/
def State.blockWords (s : State) (x : Group) (pc : Nat) : List Seg → List (Nat × List Byte)
  | [q] => (List.range 32).filterMap (fun i =>
      let va := s.blockVa x pc + 12 * i
      if va / 65536 = q.va / 65536 ∧ (va + 11) / 65536 = q.va / 65536 then some (va, s.memBytes (q.pa + va - q.va) 12) else none)
  | segs => [(s.fetchVa x pc, segs.flatMap (fun q => s.memBytes q.pa q.n))]

/-- A fetch that misses fills the block; the cache of 64 KiB keeps the 170 blocks filled last (R16, R80, log 89). -/
def State.fillCode (s : State) (x : Group) (pc : Nat) (segs : List Seg) : State :=
  if (s.cachedWord x pc).isSome then s
  else
    let a := (s.ctx x.ctx).desc.asid
    let v := s.blockVa x pc
    let ws := s.blockWords x pc segs
    s.modCore x.core (fun c =>
      let old := ((c.icache.find? (fun b => b.1 == a && b.2.1 == v)).map (fun b => b.2.2)).getD []
      let new := old.filter (fun w => !ws.any (fun q => q.1 == w.1)) ++ ws
      { c with icache := ((a, v, new) :: c.icache.filter (fun b => !(b.1 == a && b.2.1 == v))).take 170 })

/-- A fetch is performed: its translations are used (R358, R360), and the instruction cache holds its block (R80). -/
def State.fetched (s : State) (x : Group) (pc : Nat) (segs : List Seg) : State :=
  segs.foldl (fun s q => s.useLeaf x.core (s.ctx x.ctx).desc .fetch q.va q.pte q.level q.addr) (s.fillCode x pc segs)

/-! ### What a group is held on (R88, R307) -/

/-- The instruction at a group's chosen entry, if it can be fetched and decoded. -/
def State.nextInstr (s : State) (x : Group) : Option Instr :=
  match x.chosen with
  | none => none
  | some e =>
    if s.codeEnd x ≤ e.pc.toNat then none
    else match s.fetchPlace x e with
      | .error _ => none
      | .ok segs => match decodeBytes (s.fetchBytes x e.pc.toNat segs) with
        | .ok i _ => some i
        | _ => none

/-- What an instruction names beside d, a and b: the third source of R102, BRI's entry (R156), the scalars of MLOOP (R229). -/
def moreOpnds (op : Nat) (e : Enc) : List Opnd :=
  if op = 0x002 then [.opf (e.x.setWidth 3)]
  else if [0x048, 0x049, 0x05B, 0x0C3, 0x0D2].contains op then (if e.x = 0 then [] else [.opf (e.x.setWidth 3)])
  else if op = 0x2C0 then (List.range 4).map (fun k => .scal (BitVec.ofNat 6 (8 * (e.mod.toNat % 8) + k)))
  else []

/-- The bytes that an operand takes: the block of LDPK and STPK (R186), what OBLD and CTPL read (R199, R226); else the widest access of the
type, and no wider than its view's elements (R63, log 24). -/
def opndBytes (x : Group) (op : Nat) (e : Enc) (o : Opnd) : Nat :=
  let n := max 8 (Ty.bytes e.ty)
  match o with
  | .view k _ => if op = 0x1C2 ∨ op = 0x1C3 then 8 * 2 ^ (e.mod.toNat / 4) else min n ((vwWidth (x.view k.toNat)).getD n)
  | .rs _ => if op = 0x2C8 then 64 * 2 ^ (e.mod.toNat % 8) else if op = 0x240 then 256 else n
  | _ => n

/-- The register operands of an instruction. D of ST, STPK and VSPILL is a source. -/
def regUsesOf (x : Group) (i : Instr) : List Use :=
  match i.parts with
  | none => []
  | some (op, e) =>
    { o := e.d, n := opndBytes x op e e.d, lanes := ~~~0, dest := op != 0x1C1 && op != 0x1C3 && op != 0x1CA }
      :: ([e.a, e.b] ++ moreOpnds op e).map (fun o => { o := o, n := opndBytes x op e o, lanes := ~~~0 })

/-- The pending instructions that hold a group's next instruction (R88). -/
def State.holders (s : State) (x : Group) : List Pend :=
  if x.pend.isEmpty then [] else match s.nextInstr x with
    | some i => dependsOn x (regUsesOf x i)
    | none => []

/-- The guard of an instruction (R70). -/
def guardMask (x : Group) (e : Enc) : Mask := if e.neg then ~~~(x.predMask e.grd.toNat) else x.predMask e.grd.toNat

/-- A lock or a queued MCVT holds a group's next instruction, where it is no matrix operation itself (R235). -/
def State.lockedNext (s : State) (g : Nat) (x : Group) : Bool :=
  if (s.opsOf g x.core).isEmpty then false
  else match s.nextInstr x, x.chosen with
    | some i, some ent => match i.parts with
      | some (op, e) =>
        let act := ent.mask &&& ~~~x.empties &&& guardMask x e
        !(decide (0x2C0 ≤ op) && decide (op ≤ 0x2C4)) && s.matrixHolds g x e ((regUsesOf x i).map (fun u => { u with lanes := act }))
      | none => false
    | _, _ => false

/-- A scoreboard dependence or a lock holds a group's next instruction (R88, R235, R306). -/
def State.scoreboardHolds (s : State) (g : Nat) (x : Group) : Bool := !(s.holders x).isEmpty || s.lockedNext g x

/-- The group is in a long-latency wait (R307): a wait in the machine, a sleep, a hold that is one, a lock, or a hold on an access that
missed the L1. -/
def State.longWait (s : State) (g : Nat) (x : Group) : Bool :=
  x.wait.isSome || x.sleepEnd.isSome || (x.held && !x.brief) || s.lockedNext g x || (s.holders x).any (fun p => p.missL1)

end Sys2Proof.Machine
end

