-- ==== Sys2Proof/Machine/Shadow.lean ====
section
/-! DEFINITION. The shadow unit (R57): what it computes of an exact result, and when a main result diverges from it. -/

namespace Sys2Proof.Machine

/-- The classes of an exact result (R57). -/
inductive ShadowClass where
  | zero | finite | overflow | infinite | nan
  deriving DecidableEq, Repr

/-- What a shadow unit computes: class, sign, exponent of the leading bit, and a significand of 8 bits rounded toward zero (R57). -/
structure ShadowRes where
  cls : ShadowClass
  neg : Bool
  exp : Int
  sig : Nat
  deriving DecidableEq, Repr

/-- What the check of one result compares beside the main result: its type, the exact result, and the exact addends (R57). -/
structure ShadowIn where
  ty : Ty
  x : Val
  adds : List Val
  deriving DecidableEq, Repr

/-- The exponent of the leading bit of m × 2^e, and its 8 leading bits. -/
def lead8 (m : Nat) (e : Int) : Int × Nat :=
  let n := bitLen m
  ((n : Int) + e - 1, if n ≤ 8 then m <<< (8 - n) else m >>> (n - 8))

/-- The largest finite magnitude of a type. -/
def maxMag (t : Ty) : Nat × Int :=
  match Ty.fmt t with
  | some f => magOf (valOf t (maxFinite t f false))
  | none => (0, 0)

/-- The shadow unit's result (R57). -/
def shadowOf (t : Ty) : Val → ShadowRes
  | .nan _ => { cls := .nan, neg := false, exp := 0, sig := 0 }
  | .inf n => { cls := .infinite, neg := n, exp := 0, sig := 0 }
  | .fin n m e =>
    if m = 0 then { cls := .zero, neg := n, exp := 0, sig := 0 }
    else { cls := if magLt (maxMag t) (m, e) then .overflow else .finite, neg := n, exp := (lead8 m e).1, sig := (lead8 m e).2 }

/-- The exponent of the smallest normal magnitude of a type, and that of its smallest subnormal. -/
def minExps (t : Ty) : Int × Int :=
  match Ty.fmt t with
  | some f => (1 - (f.bias : Int), 1 - (f.bias : Int) - f.fb)
  | none => (0, 0)

/-- The classes agree (R57): a shadow overflow matches an infinity and the largest finite values; a finite result below the smallest
subnormal, which rounds to zero in some modes, matches a zero (log 77). -/
def classMatches (t : Ty) (main : Val) (r : ShadowRes) : Bool :=
  match main with
  | .nan _ => r.cls == .nan
  | .inf _ => r.cls == .infinite || r.cls == .overflow
  | .fin _ m e =>
    match r.cls with
    | .zero => m == 0
    | .finite => m != 0 || decide (r.exp < (minExps t).2)
    | .overflow => m != 0 && !magLt (m, e) (maxMag t)
    | _ => false

/-- M ≥ 2^−20 × L (R57). -/
def weighty (main : Val) (adds : List Val) : Bool :=
  match main with
  | .nan _ => false
  | .inf _ => true
  | .fin _ m e => adds.all (fun a => match a with | .fin _ m' e' => !magLt (m, e + 20) (m', e') | _ => false)

/-- Two significands of 8 bits, aligned at the larger exponent, differ by at most 1 unit (R57). -/
def sigsAgree (p q : Int × Nat) : Bool :=
  let d : Int := p.1 - q.1
  let (a, b) := if d = 0 then (p.2, q.2) else if d = 1 then (p.2, q.2 >>> 1) else (p.2 >>> 1, q.2)
  decide (-1 ≤ d) && decide (d ≤ 1) && decide (a ≤ b + 1) && decide (b ≤ a + 1)

/-- A main result diverges from the shadow unit's (R57). A shadow overflow has no exponent to compare (log 77). -/
def diverges (q : ShadowIn) (main : Val) (r : ShadowRes) : Bool :=
  let big := weighty main q.adds
  !classMatches q.ty main r
    || (big && (match main with | .nan _ => false | .inf n => n != r.neg | .fin n _ _ => n != r.neg))
    || (big && r.cls == .finite && (match main with
        | .fin _ m e =>
          let p := lead8 m e
          m != 0 && decide ((minExps q.ty).1 ≤ p.1) && !sigsAgree p (r.exp, r.sig)
        | _ => false))

/-- The code of a class. -/
def ShadowClass.code : ShadowClass → Nat
  | .zero => 0 | .finite => 1 | .overflow => 2 | .infinite => 3 | .nan => 4

/-- The class of a code. -/
def ShadowClass.ofCode (k : Nat) : ShadowClass :=
  if k = 0 then .zero else if k = 1 then .finite else if k = 2 then .overflow else if k = 3 then .infinite else .nan

/-- A shadow result with bits that a fault of the shadow unit inverts: the significand in [7:0], the sign in [8], 23 bits of the exponent
in [31:9], the class in [34:32] (log 77). -/
def ShadowRes.struck (r : ShadowRes) (k : Nat) : ShadowRes :=
  if k = 0 then r
  else { cls := .ofCode (r.cls.code ^^^ (k >>> 32) % 8), neg := r.neg != k.testBit 8,
         exp := signedOf 23 (wrapBits 23 r.exp ^^^ (k >>> 9) % 2 ^ 23), sig := r.sig ^^^ k % 256 }

end Sys2Proof.Machine
end

