-- ==== Sys2Proof/Machine/Issue.lean ====
section
/-! DEFINITION. Issuing one instruction (R70, R84, R88, R89, R153, R307): the checks made at issue in their order, the
instruction's own effect, and what follows it; and the common shape of an instruction that computes lane by lane. -/

namespace Sys2Proof.Machine

/-- The guard `!p15`: a no-op (R84). -/
def guardNever (e : Enc) : Bool := e.neg && e.grd == 15

/-- The group can issue: it is ACTIVE, and neither sleeps nor waits (R304, R306). -/
def Group.issuable (x : Group) : Bool := x.st == .active && x.wait.isNone && x.sleepEnd.isNone

/-- A pending group that is ready, but for what the scoreboard holds (R306). -/
def Group.readyPending (x : Group) : Bool :=
  x.st == .pending && x.wait.isNone && x.sleepEnd.isNone && !x.held && x.chosen.isSome

/-- The turn of a group among the equals of its team: they follow the one promoted last in ascending number with wrap-around (R307). -/
def State.turnOf (s : State) (x : Group) : Nat := (x.num + 16 - ((s.teamOf x).promoted + 1) % 16) % 16

/-- Whether one pending group is taken before another: older teams first, and among equals by their turns (R307). -/
def State.olderThan (s : State) (a b : Nat × Group) : Bool :=
  decide (a.2.seniority < b.2.seniority) || (a.2.seniority == b.2.seniority && decide (s.turnOf a.2 < s.turnOf b.2))

/-- The oldest of a list of groups. -/
def State.oldest (s : State) : List (Nat × Group) → Option (Nat × Group)
  | [] => none
  | a :: r => match s.oldest r with
    | none => some a
    | some b => if s.olderThan b a then some b else some a

/-- The pending group of a core that a swap would promote: one that the scoreboard does not hold (R306), and one marked by YIELD only if no
other is ready (R161, R307). -/
def State.nextReady (s : State) (core : Nat) : Option (Nat × Group) :=
  let rs := s.groups.filter (fun p => p.2.core == core && p.2.readyPending && !s.scoreboardHolds p.1 p.2)
  match s.oldest (rs.filter (fun p => p.2.yieldEnd.all (fun t => decide (t ≤ s.cycle)))) with
  | some p => some p
  | none => s.oldest rs

/-- A pending group enters the active set, and may issue three cycles later (R307). -/
def State.promote (s : State) (h : Nat) (y : Group) : State :=
  (s.setGroup h { y with st := .active, issueFrom := s.cycle + 3 }).modTeam y.team (fun q => { q with promoted := y.num })

/-- Swaps an active group for the oldest ready pending group of its core, if there is one (R307). -/
def State.swapOut (s : State) (g : Nat) : State :=
  match s.group? g with
  | none => s
  | some x =>
    if x.st = .active then
      match s.nextReady x.core with
      | none => s
      | some (h, y) => ((s.setGroup g { x with st := .pending, restFrom := s.cycle }).promote h y).count x.core 2 1
    else s

/-- What follows an instruction that has executed: its lanes move on unless it moved them itself (R153), it is counted
(R176, log 104), and the YLD hint swaps the group (R87). -/
def State.finish (s : State) (c : Iss) (e : Enc) (moved : Bool) : State :=
  let s := s.modGroup c.g (fun x =>
    { (if moved then x else x.moveLanes c.m (c.ent.pc + 1) c.ent.prio) with held := false })
  let s := (s.count c.x.core 0 1).tokensUsed c.x.agent
  if e.yld then s.swapOut c.g else s

/-- How a step ends that a stop ended: the cause is taken, the group parks, or nothing has happened yet. -/
def State.stopped (s : State) (c : Iss) : Stop → State
  | .trap cause mask info addr => (s.takeTrap c.g cause mask info addr).capAppend c.g 8 c.ent.pc.toNat mask []
  | .portTrap port cause mask addr =>
    let q := c.x.portData port mask
    (s.enterTrap c.g cause mask 0 (fun r => { r with addr := addr, stream := some (q.1, q.2.2.2) })).capAppend c.g 8 c.ent.pc.toNat mask []
  | .diverge mask lane =>
    (State.enterTrap { s.checkFailed c.x.core with phys := { s.phys with pipe := [] } } c.g cSHADOW_DIVERGE mask 0 (fun r => { r with synd := lane })).capAppend
      c.g 8 c.ent.pc.toNat mask []
  | .park ks => match s.group? c.g with
    | some x => (s.parkOn c.g x ks).capAppend c.g 8 c.ent.pc.toNat c.m []
    | none => s
  | .hold => s.modGroup c.g (fun x => { x with held := true, brief := false })
  | .pause => s.modGroup c.g (fun x => { x with held := true, brief := true })
  | .holdAnd f => (f s).modGroup c.g (fun x => { x with held := true, brief := false })
  | .done s' => s'

/-- Issues one instruction for the group in hand (R89, checks 9 to 13, the locks of R235, then its own effect). `moved` says that the effect
moves the lanes itself. -/
def State.issueInstr (s : State) (priv : Bool) (uses : State → Iss → List Use) (moved : Bool) (e : Enc) (c : Iss)
    (body : State → Iss → Except Stop State) : State :=
  if priv && !c.x.handler then s.stopped c (.plain cPRIV c.m)
  else if guardNever e then (s.setGroup c.g c.x.countWindows).finish c e false
  else
    let us := uses s c
    match checkViews c.x us with
    | some cause => s.stopped c (.plain cause c.fault)
    | none =>
      match checkPorts c.x us with
      | some cause => s.stopped c (.plain cause c.fault)
      | none =>
        let deps := dependsOn c.x us
        let cvts := touchedCvts c.x us
        if deps.any (fun p => p.window != 0) || cvts.any (fun q => q.window != 0) then s.stopped c (.plain cLA_HAZARD c.fault)
        -- the scoreboard holds it until what it depends on is written (R88); a lock holds it too (R235)
        else if !deps.isEmpty || (!(us.any (fun u => u.mat)) && s.matrixHolds c.g c.x e us) then
          -- short of a missed access or a lock it is no long-latency wait (R307)
          s.modGroup c.g (fun x => { x with held := true, brief := !deps.isEmpty && !deps.any (fun p => p.missL1) })
        else
          let s1 := (s.setGroup c.g c.x).wakeGranules c.g (granulesOf c.x us)
          let s2 := s1.modGroup c.g Group.countWindows
          let x := (s2.group? c.g).getD c.x
          let c' := { c with x := x }
          match body (s2.count x.core 1 (bankExcess x us)) c' with
          | .error st =>
            match (s2.portStop c' us).getD st with
            | .hold => s1.stopped c .hold           -- a held instruction covers no window yet
            | .pause => s1.stopped c .pause
            | .holdAnd f => s1.stopped c (.holdAnd f)
            | .park ks => if s1.pushesPend c.x then s1.stopped c .hold else s2.stopped c (.park ks)
            | st => s2.stopped c st
          | .ok s' => s'.finish c' e moved

/-- An instruction that has issued and waits in the machine: it is counted, and its lanes move on when the wait ends. -/
def State.waitOn (s : State) (c : Iss) (e : Enc) (k : WaitKind) : State :=
  let s := (s.modGroup c.g (fun x => { x with wait := some { kind := k, m := c.m, pc := c.ent.pc, prio := c.ent.prio } })).count
    c.x.core 0 1
  if e.yld then s.swapOut c.g else s

/-- The instruction in hand of the current group. -/
def State.iss? (s : State) (e : Enc) : Option Iss :=
  match s.group? s.cur with
  | none => none
  | some x =>
    match x.chosen with
    | none => none
    | some ent =>
      let m := ent.mask &&& ~~~x.empties
      some { g := s.cur, x := x, ent := ent, m := m, act := m &&& guardMask x e }

/-- The groups of a context issue while it is IDLE or ACTIVE: in every other state they have stopped at an issue boundary
(R271, R273, R275). -/
def State.ctxRuns (s : State) (c : Nat) : Bool := (s.ctx c).st == .idle || (s.ctx c).st == .active

/-- Whether a group may issue: its context runs, and its core is in service (R13, R427). -/
def State.mayRun (s : State) (x : Group) : Bool :=
  s.ctxRuns x.ctx && !(s.core x.core).retired && !s.replays.any (fun r => r.team == x.team && r.differs.isSome)

/-- A group whose ports wait for engines takes them if they are free now (R210, R216). -/
def State.takeEngines (s : State) (g : Nat) (x : Group) : Option State :=
  if !x.engineWait then some s
  else if s.lacksEngines x then none
  else some (s.setGroup g { x with engineWait := false })

/-- The meaning of an encoded instruction: it issues for the current group; a group that cannot issue leaves the state as
it is, and one whose ports lack engines is held. -/
def runInstr (priv : Bool) (uses : State → Iss → List Use) (moved : Bool) (e : Enc) (s : State)
    (body : State → Iss → Except Stop State) : Host.Outcome State Fault Refusal :=
  match s.iss? e with
  | none => .fault .noGroup
  | some c =>
    if c.x.issuable && s.mayRun c.x then
      match s.takeEngines c.g c.x with
      | none => .next (s.stopped c .hold)
      | some t =>
        .next (t.unlessBusy c.g c.x (t.issueInstr priv uses moved e { c with x := { c.x with engineWait := false } } body))
    else .next s

/-! ### Instructions that compute lane by lane -/

/-- What one lane computes: the value, its poison, its flags and the rounding state after it. -/
structure LaneOut where
  v : Nat
  p : Bool
  fl : Flags := 0
  rs : Word32
  pb : Bool := false       -- the carry or borrow of IADDC and ISUBB

/-- The destination is a scalar register. -/
def isScalOp : Opnd → Bool
  | .scal _ => true
  | _ => false

/-- An operand of a scalar form (R68). -/
def isUniform : Opnd → Bool
  | .nil | .scal _ | .sys _ | .imm _ | .wide _ => true
  | _ => false

/-- Checks for sources and a destination of n bytes, over the lanes of `act` (R63). A scalar form whose `act` is empty reads, writes
and raises nothing (R84, R103). -/
def opUses (srcs : List Src) (d : Opnd) (n : Nat) (_ : State) (c : Iss) : List Use :=
  if c.act = 0 ∧ isScalOp d ∧ srcs.all (fun q => isUniform q.o) then []
  else { o := d, n := n, lanes := c.act, dest := true } :: srcs.map (fun q => { o := q.o, n := Ty.bytes q.ty, lanes := c.act })

/-- The rounding state of a lane. -/
def Group.rstate (x : Group) (l : Nat) : Word32 := (x.lane l).rstate

/-- ORs arithmetic flags into `%fstat` (R52). -/
def Group.addFlags (x : Group) (f : Flags) : Group := { x with sr := { x.sr with fstat := x.sr.fstat ||| f.setWidth 64 } }

/-- Puts the rounding states of lanes (R49). -/
def Group.setStates (x : Group) (l : List (Nat × Word32)) : Group :=
  l.foldl (fun x p => if (x.lane p.1).rstate = p.2 then x else x.modLane p.1 (fun r => { r with rstate := p.2 })) x

/-- The lanes of an instruction that computes lane by lane: those of `act`, or the lowest one alone for a scalar form
(R68, R103). -/
def computeLanes (d : Opnd) (act : Mask) : List Nat := if isScalOp d then (lanesOf act).take 1 else lanesOf act

/-- Reads the sources of one lane and computes it. -/
def State.computeLane (s : State) (c : Iss) (pop : Popped) (srcs : List Src) (f : Nat → List (Nat × Bool) → Word32 → LaneOut)
    (l : Nat) : Nat × LaneOut × Nat :=
  let vs := srcs.map (fun q => s.readSrc c.x pop q l)
  (l, f l (vs.map (fun v => (v.1, v.2.1))) (c.x.rstate l), (vs.map (fun v => v.2.2)).foldl (· + ·) 0)

/-- The unit that computes a lane: a floating-point scalar form runs in lane 0 of its pipe (R105). -/
def unitOf (d : Opnd) (l : Nat) : Nat := if isScalOp d then 0 else l

/-- The main result of a lane, with the bits that a fault of its pipe inverts (R57). -/
def LaneOut.struck (o : LaneOut) (t : Ty) (k : Nat) : LaneOut := { o with v := o.v ^^^ (k % 2 ^ Ty.bits t) }

/-- The checked results of lanes as the pipes and the shadow units give them: the lowest lane whose main result diverges while the check
is on; else the main results, and the faults used up (R57, R58, R428). -/
def State.pipeOuts (s : State) (d : Opnd) (outs : List (Nat × LaneOut × ShadowIn × Nat)) : Except Nat (State × List (Nat × LaneOut × Nat)) :=
  let flip (l : Nat) : Nat × Nat := cget (0, 0) s.phys.pipe (unitOf d l)
  let bad := outs.filter (fun o =>
    let q := o.2.2.1
    diverges q (valOf q.ty ((o.2.1.struck q.ty (flip o.1).1).v % 2 ^ Ty.bits q.ty)) ((shadowOf q.ty q.x).struck (flip o.1).2))
  match (if s.host.protcfg.getLsbD 10 then bad else []) with
  | o :: _ => .error (unitOf d o.1)
  | [] => .ok ({ s with phys := { s.phys with pipe := s.phys.pipe.filter (fun p => !outs.any (fun o => unitOf d o.1 == p.1)) } },
               outs.map (fun o => (o.1, o.2.1.struck o.2.2.1.ty (flip o.1).1, o.2.2.2)))

/-- The results of an instruction whose results a shadow unit checks, when some pipe meets a fault (R57). -/
def State.checkPipes (s : State) (c : Iss) (d : Opnd) (pop : Popped) (srcs : List Src) (chk : List (Nat × Bool) → ShadowIn)
    (outs : List (Nat × LaneOut × Nat)) : Except Stop (State × List (Nat × LaneOut × Nat)) :=
  match s.pipeOuts d (outs.map (fun o =>
      (o.1, o.2.1, chk (srcs.map (fun q => let v := s.readSrc c.x pop q o.1; (v.1, v.2.1))), o.2.2))) with
  | .error l => .error (.diverge c.act l)
  | .ok r => .ok r

/-- The results of lanes after their pipes: as computed while no pipe meets a fault, or where no shadow unit checks them (R57). -/
def State.passPipes (s : State) (c : Iss) (d : Opnd) (pop : Popped) (srcs : List Src) (chk : Option (List (Nat × Bool) → ShadowIn))
    (outs : List (Nat × LaneOut × Nat)) : Except Stop (State × List (Nat × LaneOut × Nat)) :=
  match chk with
  | some q => if s.phys.pipe.isEmpty then .ok (s, outs) else s.checkPipes c d pop srcs q outs
  | none => .ok (s, outs)

/-- The effect of an instruction that computes lane by lane (R103): sources popped and read, every lane computed, the shadow
check (R57; with no fault in a pipe every result passes it), then flags of the lanes that are not helpers, rounding states, the carry predicate of an instruction that has
one (R109), and results. A scalar form is nobody's lane: its flags reach `%fstat` although the lowest lane of `act` may be a helper
(log 79). -/
def laneBody (d : Opnd) (srcs : List Src) (n bits : Nat) (late : Option (Nat × Bool × Bool))
    (chk : Option (List (Nat × Bool) → ShadowIn)) (carry : Option Nat)
    (f : Nat → List (Nat × Bool) → Word32 → LaneOut) (s : State) (c : Iss) : Except Stop State :=
  match s.popAll c (portsOf srcs) with
  | .error e => .error e
  | .ok (s, pop) =>
    let outs := (computeLanes d c.act).map (s.computeLane c pop srcs f)
    match s.passPipes c d pop srcs chk outs with
    | .error st => .error st
    | .ok (s, outs) =>
      let fl := (outs.filter (fun o => isScalOp d || (c.x.lane o.1).st != .helper)).foldl (fun a o => a ||| o.2.1.fl) 0
      let skips := outs.foldl (fun a o => a + o.2.2) 0
      let s := s.modGroup c.g (fun x => ((x.skip skips).addFlags fl).setStates (outs.map (fun o => (o.1, o.2.1.rs))))
      let s := match carry with
        | some k => s.modGroup c.g (fun x => x.setPred k (maskOf (outs.map (fun (o : Nat × LaneOut × Nat) => o.1)))
            (maskWhere outs (fun o => o.1) (fun o => o.2.1.pb)))
        | none => s
      s.putResults c d n bits (outs.map (fun o => { lane := o.1, v := o.2.1.v, p := o.2.1.p })) late

/-- The lateness of a long-latency computation: a window when LA ≠ 0 (R88, log 14). -/
def lateOf (e : Enc) : Option (Nat × Bool × Bool) := if e.la = 0 then none else some (e.la.toNat, false, false)

/-- The OR of the poison of sources (R73). -/
def anyPoison (vs : List (Nat × Bool)) : Bool := vs.any (fun v => v.2)

/-- The k-th source value. -/
def srcVal (vs : List (Nat × Bool)) (k : Nat) : Nat := ((vs[k]?).getD (0, false)).1

/-- The third source of R102: the current value of D, or an operand-file entry. -/
def thirdSrc (e : Enc) : Opnd := if e.x = 0 then e.d else .opf (e.x.setWidth 3)

/-- An instruction of the integer and floating-point ranges: sources, destination type, and the lane's function. -/
def runLanes (e : Enc) (s : State) (srcs : List Src) (n bits : Nat) (chk : Option (List (Nat × Bool) → ShadowIn))
    (f : Nat → List (Nat × Bool) → Word32 → LaneOut) : Host.Outcome State Fault Refusal :=
  runInstr false (opUses srcs e.d n) false e s (laneBody e.d srcs n bits (lateOf e) chk none f)

/-- A source of the instruction's type. -/
def tySrc (e : Enc) (o : Opnd) : Src := { o := o, ty := e.ty }

/-- A lane function of an integer result that sets ST when it clamps: poison of every source, no rounding. -/
def intOut (vs : List (Nat × Bool)) (rs : Word32) (r : Nat) (st : Bool) : LaneOut :=
  { v := r, p := anyPoison vs, fl := if st then flST else 0, rs := rs }

/-- A predicate destination computed from the sources, bit by bit in the lanes of `act` (R66, R113, R124). -/
def predBody (pd : BitVec 4) (srcs : List Src) (f : List (Nat × Bool) → Bool × Flags) (s : State) (c : Iss) :
    Except Stop State :=
  match s.popAll c (portsOf srcs) with
  | .error e => .error e
  | .ok (s, pop) =>
    let outs := (lanesOf c.act).map (fun l =>
      let vs := srcs.map (fun q => s.readSrc c.x pop q l)
      (l, f (vs.map (fun v => (v.1, v.2.1))), (vs.map (fun v => v.2.2)).foldl (· + ·) 0))
    let fl := (outs.filter (fun o => (c.x.lane o.1).st != .helper)).foldl (fun a o => a ||| o.2.1.2) 0
    let v := maskWhere outs (fun o => o.1) (fun o => o.2.1.1)
    .ok (s.modGroup c.g (fun x => ((x.skip (outs.foldl (fun a o => a + o.2.2) 0)).addFlags fl).setPred pd.toNat c.act v))

/-- The index of a predicate operand (15 for another operand). -/
def predIdxOf : Opnd → BitVec 4
  | .pred k => k
  | _ => 15

end Sys2Proof.Machine
end

