-- ==== Sys2Proof/Machine/Integer.lean ====
section
/-! DEFINITION. The integer and logic instructions (R106 to R119). -/

namespace Sys2Proof.Machine

/-- A two-source instruction of the type's width whose lane computes a code and whether it clamped. -/
def intOp2 (e : Enc) (s : State) (f : Nat → Nat → Nat × Bool) : Host.Outcome State Fault Refusal :=
  runLanes e s [tySrc e e.a, tySrc e e.b] (Ty.bytes e.ty) (Ty.bits e.ty) none
    (fun _ vs rs => let r := f (srcVal vs 0) (srcVal vs 1); intOut vs rs r.1 r.2)

/-- A one-source instruction. -/
def intOp1 (e : Enc) (s : State) (f : Nat → Nat × Bool) : Host.Outcome State Fault Refusal :=
  runLanes e s [tySrc e e.a] (Ty.bytes e.ty) (Ty.bits e.ty) none
    (fun _ vs rs => let r := f (srcVal vs 0); intOut vs rs r.1 r.2)

/-- A three-source instruction (R102). -/
def intOp3 (e : Enc) (s : State) (bty : Ty) (f : Nat → Nat → Nat → Nat) : Host.Outcome State Fault Refusal :=
  runLanes e s [tySrc e e.a, { o := e.b, ty := bty, raw := bty != e.ty }, tySrc e (thirdSrc e)] (Ty.bytes e.ty) (Ty.bits e.ty) none
    (fun _ vs rs => intOut vs rs (f (srcVal vs 0) (srcVal vs 1) (srcVal vs 2)) false)

/-- The residue of an integer modulo 255 (R56). -/
def mod255 (i : Int) : Nat := (i % 255).toNat

/-- An accumulator element whose VALUE is written by other means than a step: RES is recomputed, the reserved bits are zero
(R42, R56). -/
def accElement (t : Ty) (v : Nat) : Nat :=
  let val := v % 2 ^ 80
  val + (if t = .a80i then mod255 (signedOf 80 val) else 0) * 2 ^ 80 + bitsOf v 90 88 * 2 ^ 88

/-- MOV (R107). -/
def execMov (e : Enc) (s : State) : Host.Outcome State Fault Refusal :=
  let acc := e.ty == .a80f || e.ty == .a80i
  runLanes e s [tySrc e e.a] (Ty.bytes e.ty) (if acc then 96 else Ty.bits e.ty) none
    (fun _ vs rs => intOut vs rs (if acc then accElement e.ty (srcVal vs 0) else srcVal vs 0) false)

/-- SEL (R108): the selected source alone contributes poison. A scalar form takes the bit of the lowest lane of `act` (log 26). -/
def execSel (e : Enc) (s : State) : Host.Outcome State Fault Refusal :=
  runInstr false (opUses [tySrc e e.a, tySrc e e.b] e.d (Ty.bytes e.ty)) false e s (fun s c =>
    laneBody e.d [tySrc e e.a, tySrc e e.b] (Ty.bytes e.ty) (Ty.bits e.ty) none none none (fun l vs rs =>
      let k := if (c.x.predMask e.x.toNat).getLsbD l then 0 else 1
      { v := srcVal vs k, p := ((vs[k]?).getD (0, false)).2, rs := rs }) s c)

/-- An integer result wrapped, or saturated under `.sat` (R109, R112). -/
def wrapOrSat (e : Enc) (i : Int) : Nat × Bool :=
  if e.mod.getLsbD 0 then satInt e.ty i else (wrapBits (Ty.bits e.ty) i, false)

/-- IADD (R109). -/
def execIadd (e : Enc) (s : State) : Host.Outcome State Fault Refusal :=
  intOp2 e s (fun a b => wrapOrSat e (intOf e.ty a + intOf e.ty b))

/-- ISUB (R109). -/
def execIsub (e : Enc) (s : State) : Host.Outcome State Fault Refusal :=
  intOp2 e s (fun a b => wrapOrSat e (intOf e.ty a - intOf e.ty b))

/-- An addition or subtraction with a carry or borrow in predicate k, read and written back in the same lane (R109); in a scalar
form that is the lowest lane of `act` (log 26). -/
def carryOp (e : Enc) (s : State) (f : Nat → Nat → Nat → Int) (out : Int → Bool) : Host.Outcome State Fault Refusal :=
  let bits := Ty.bits e.ty
  runInstr false (opUses [tySrc e e.a, tySrc e e.b] e.d (Ty.bytes e.ty)) false e s (fun s c =>
    laneBody e.d [tySrc e e.a, tySrc e e.b] (Ty.bytes e.ty) bits none none (some e.x.toNat) (fun l vs rs =>
      let x := f (srcVal vs 0) (srcVal vs 1) (if (c.x.predMask e.x.toNat).getLsbD l then 1 else 0)
      { v := wrapBits bits x, p := anyPoison vs, rs := rs, pb := out x }) s c)

/-- IADDC (R109). -/
def execIaddc (e : Enc) (s : State) : Host.Outcome State Fault Refusal :=
  carryOp e s (fun a b k => (a : Int) + b + k) (fun x => decide ((2 ^ Ty.bits e.ty : Nat) ≤ x))

/-- ISUBB (R109). -/
def execIsubb (e : Enc) (s : State) : Host.Outcome State Fault Refusal :=
  carryOp e s (fun a b k => (a : Int) - b - k) (fun x => decide (x < 0))

/-- The exact product of two codes (R110). -/
def prod (t : Ty) (a b : Nat) : Int := intOf t a * intOf t b

/-- Bits [2tw−1:tw] of an exact result (R110). -/
def highHalf (t : Ty) (i : Int) : Nat := wrapBits (2 * Ty.bits t) i >>> Ty.bits t

/-- IMUL (R110). -/
def execImul (e : Enc) (s : State) : Host.Outcome State Fault Refusal :=
  intOp2 e s (fun a b => (wrapBits (Ty.bits e.ty) (prod e.ty a b), false))

/-- IMULH (R110). -/
def execImulh (e : Enc) (s : State) : Host.Outcome State Fault Refusal :=
  intOp2 e s (fun a b => (highHalf e.ty (prod e.ty a b), false))

/-- IMAD (R110). -/
def execImad (e : Enc) (s : State) : Host.Outcome State Fault Refusal :=
  intOp3 e s e.ty (fun a b c => wrapBits (Ty.bits e.ty) (prod e.ty a b + intOf e.ty c))

/-- IMADH (R110). -/
def execImadh (e : Enc) (s : State) : Host.Outcome State Fault Refusal :=
  intOp3 e s e.ty (fun a b c => highHalf e.ty (prod e.ty a b + intOf e.ty c))

/-- The quotient of R111, truncated toward zero; all ones for a zero divisor. -/
def divCode (t : Ty) (a b : Nat) : Nat :=
  if intOf t b = 0 then wrapBits (Ty.bits t) (-1) else wrapBits (Ty.bits t) (Int.tdiv (intOf t a) (intOf t b))

/-- The remainder of R111: the dividend for a zero divisor. -/
def remCode (t : Ty) (a b : Nat) : Nat :=
  if intOf t b = 0 then a else wrapBits (Ty.bits t) (Int.tmod (intOf t a) (intOf t b))

/-- IDIV (R111). -/
def execIdiv (e : Enc) (s : State) : Host.Outcome State Fault Refusal := intOp2 e s (fun a b => (divCode e.ty a b, false))

/-- IREM (R111). -/
def execIrem (e : Enc) (s : State) : Host.Outcome State Fault Refusal := intOp2 e s (fun a b => (remCode e.ty a b, false))

/-- INEG (R112). -/
def execIneg (e : Enc) (s : State) : Host.Outcome State Fault Refusal := intOp1 e s (fun a => wrapOrSat e (-(intOf e.ty a)))

/-- IABS (R112). -/
def execIabs (e : Enc) (s : State) : Host.Outcome State Fault Refusal :=
  intOp1 e s (fun a => wrapOrSat e (intOf e.ty a).natAbs)

/-- IMIN (R112). -/
def execImin (e : Enc) (s : State) : Host.Outcome State Fault Refusal :=
  intOp2 e s (fun a b => (if intOf e.ty b < intOf e.ty a then b else a, false))

/-- IMAX (R112). -/
def execImax (e : Enc) (s : State) : Host.Outcome State Fault Refusal :=
  intOp2 e s (fun a b => (if intOf e.ty a < intOf e.ty b then b else a, false))

/-- An integer comparison by condition code (R106, R113). -/
def intCmp (cc : BitVec 4) (a b : Int) : Bool :=
  match cc.toNat with
  | 0 => a == b
  | 1 => a != b
  | 2 => decide (a < b)
  | 3 => decide (a ≤ b)
  | 4 => decide (b < a)
  | _ => decide (b ≤ a)

/-- ICMP (R113). -/
def execIcmp (e : Enc) (s : State) : Host.Outcome State Fault Refusal :=
  let srcs := [tySrc e e.a, tySrc e e.b]
  runInstr false (opUses srcs e.d 0) false e s
    (predBody (predIdxOf e.d) srcs (fun vs => (intCmp e.mod (intOf e.ty (srcVal vs 0)) (intOf e.ty (srcVal vs 1)), 0)))

/-- AND (R114). -/
def execAnd (e : Enc) (s : State) : Host.Outcome State Fault Refusal := intOp2 e s (fun a b => (a &&& b, false))

/-- OR (R114). -/
def execOr (e : Enc) (s : State) : Host.Outcome State Fault Refusal := intOp2 e s (fun a b => (a ||| b, false))

/-- XOR (R114). -/
def execXor (e : Enc) (s : State) : Host.Outcome State Fault Refusal := intOp2 e s (fun a b => (a ^^^ b, false))

/-- The complement of a code of n bits. -/
def notBits (n a : Nat) : Nat := 2 ^ n - 1 - a % 2 ^ n

/-- ANDN (R114). -/
def execAndn (e : Enc) (s : State) : Host.Outcome State Fault Refusal :=
  intOp2 e s (fun a b => (a &&& notBits (Ty.bits e.ty) b, false))

/-- NOT (R114). -/
def execNot (e : Enc) (s : State) : Host.Outcome State Fault Refusal := intOp1 e s (fun a => (notBits (Ty.bits e.ty) a, false))

/-- SHL (R115). -/
def execShl (e : Enc) (s : State) : Host.Outcome State Fault Refusal :=
  intOp2 e s (fun a n => (if n ≥ Ty.bits e.ty then 0 else (a <<< n) % 2 ^ Ty.bits e.ty, false))

/-- SHR (R115). -/
def execShr (e : Enc) (s : State) : Host.Outcome State Fault Refusal :=
  intOp2 e s (fun a n => (if n ≥ Ty.bits e.ty then 0 else a >>> n, false))

/-- SAR (R115). -/
def execSar (e : Enc) (s : State) : Host.Outcome State Fault Refusal :=
  let w := Ty.bits e.ty
  intOp2 e s (fun a n => (wrapBits w (signedOf w a / (2 ^ min n w : Nat)), false))

/-- ROTL (R115). -/
def execRotl (e : Enc) (s : State) : Host.Outcome State Fault Refusal :=
  let w := Ty.bits e.ty
  intOp2 e s (fun a n => ((a <<< (n % w)) % 2 ^ w + (a % 2 ^ w) >>> (w - n % w), false))

/-- The field of BFE (R116). -/
def bfeCode (t : Ty) (a b : Nat) : Nat :=
  let w := Ty.bits t
  let len := min (bitsOf b 15 8) w
  let f := ((a % 2 ^ w) >>> bitsOf b 7 0) % 2 ^ len
  if len = 0 then 0 else if Ty.signed t then wrapBits w (signedOf len f) else f

/-- BFE (R116); b is read as a b32 value. -/
def execBfe (e : Enc) (s : State) : Host.Outcome State Fault Refusal :=
  runLanes e s [tySrc e e.a, { o := e.b, ty := .b32, raw := true }] (Ty.bytes e.ty) (Ty.bits e.ty) none
    (fun _ vs rs => intOut vs rs (bfeCode e.ty (srcVal vs 0) (srcVal vs 1)) false)

/-- The merge of BFI (R116). -/
def bfiCode (w a b c : Nat) : Nat :=
  let m := ((2 ^ min (bitsOf b 15 8) w - 1) <<< bitsOf b 7 0) % 2 ^ w
  (c &&& notBits w m) ||| ((a <<< bitsOf b 7 0) &&& m)

/-- BFI (R116). -/
def execBfi (e : Enc) (s : State) : Host.Outcome State Fault Refusal :=
  runLanes e s [tySrc e e.a, { o := e.b, ty := .b32, raw := true }, tySrc e (thirdSrc e)] (Ty.bytes e.ty) (Ty.bits e.ty) none
    (fun _ vs rs => intOut vs rs (bfiCode (Ty.bits e.ty) (srcVal vs 0) (srcVal vs 1) (srcVal vs 2)) false)

/-- The number of one bits (R117). -/
def popCount (w a : Nat) : Nat := ((List.range w).filter (fun i => a.testBit i)).length
/-- The number of leading zero bits (R117). -/
def leadZeros (w a : Nat) : Nat := w - bitLen (a % 2 ^ w)
/-- The number of trailing zero bits, w for zero (R117). -/
def trailZeros (w a : Nat) : Nat := ((List.range w).takeWhile (fun i => !a.testBit i)).length
/-- Bit i moved to bit w − 1 − i (R117). -/
def revBits (w a : Nat) : Nat := (List.range w).foldl (fun r i => if a.testBit i then r + 2 ^ (w - 1 - i) else r) 0

/-- POPC (R117). -/
def execPopc (e : Enc) (s : State) : Host.Outcome State Fault Refusal := intOp1 e s (fun a => (popCount (Ty.bits e.ty) a, false))
/-- CLZ (R117). -/
def execClz (e : Enc) (s : State) : Host.Outcome State Fault Refusal := intOp1 e s (fun a => (leadZeros (Ty.bits e.ty) a, false))
/-- CTZ (R117). -/
def execCtz (e : Enc) (s : State) : Host.Outcome State Fault Refusal := intOp1 e s (fun a => (trailZeros (Ty.bits e.ty) a, false))
/-- BREV (R117). -/
def execBrev (e : Enc) (s : State) : Host.Outcome State Fault Refusal := intOp1 e s (fun a => (revBits (Ty.bits e.ty) a, false))

/-- LEA (R118). -/
def execLea (e : Enc) (s : State) : Host.Outcome State Fault Refusal :=
  intOp2 e s (fun a b =>
    let b' : Int := if e.mod.getLsbD 3 then signedOf 32 b else b
    (wrapBits 64 ((a : Int) + b' * (2 ^ (e.mod.toNat % 8) : Nat)), false))

/-- The operation of PLOP (R119). -/
def plop (op : Nat) (a b : Mask) : Mask :=
  match op with
  | 0 => a &&& b
  | 1 => a ||| b
  | 2 => a ^^^ b
  | 3 => a &&& ~~~b
  | 4 => a ||| ~~~b
  | 5 => ~~~(a &&& b)
  | 6 => ~~~(a ||| b)
  | _ => ~~~(a ^^^ b)

/-- PLOP (R119). -/
def execPlop (e : Enc) (s : State) : Host.Outcome State Fault Refusal :=
  runInstr false (fun _ _ => []) false e s (fun s c =>
    .ok (s.modGroup c.g (fun x => x.setPred (predIdxOf e.d).toNat c.act
      (plop (e.mod.toNat % 8) (c.x.predMask (predIdxOf e.a).toNat) (c.x.predMask (predIdxOf e.b).toNat)))))

/-- PMOV into a predicate: each lane's test for non-zero, or the bits of a uniform mask (R119; log 83). -/
def pmovToPred (e : Enc) (s : State) : Host.Outcome State Fault Refusal :=
  let src := tySrc e e.a
  if e.mod.getLsbD 0 then
    runInstr false (opUses [src] e.d 0) false e s (fun s c =>
      .ok (s.modGroup c.g (fun x => x.setPred (predIdxOf e.d).toNat c.act (BitVec.ofNat 32 (s.readSrc c.x [] src 0).1))))
  else
    runInstr false (opUses [src] e.d 0) false e s
      (predBody (predIdxOf e.d) [src] (fun vs => (srcVal vs 0 != 0, 0)))

/-- PMOV from a predicate: 1 or 0 per lane, or the mask of all lanes (R119). -/
def pmovFromPred (e : Enc) (s : State) : Host.Outcome State Fault Refusal :=
  runInstr false (opUses [] e.d (Ty.bytes e.ty)) false e s (fun s c =>
    let m := c.x.predMask (predIdxOf e.a).toNat
    laneBody e.d [] (Ty.bytes e.ty) (Ty.bits e.ty) none none none (fun l _ rs =>
      { v := if e.mod.getLsbD 0 then m.toNat % 2 ^ Ty.bits e.ty else if m.getLsbD l then 1 else 0, p := false, rs := rs }) s c)

/-- PMOV (R119). -/
def execPmov (e : Enc) (s : State) : Host.Outcome State Fault Refusal :=
  match e.d with
  | .pred _ => pmovToPred e s
  | _ => pmovFromPred e s

end Sys2Proof.Machine
end

