-- ==== Sys2Proof/Machine/Float.lean ====
section
/-! DEFINITION. The floating-point instructions (R120 to R131). -/

namespace Sys2Proof.Machine

/-- The rounding mode in MOD[2:0] (R45); codes 5 to 7 never pass decode. -/
def modeOf (e : Enc) : RMode :=
  match e.mod.toNat % 8 with
  | 0 => .rne | 1 => .rtz | 2 => .rup | 3 => .rdn | _ => .rsto

/-- A rounded value as a lane's result, with the NV flag of its exact result (R121, R122). -/
def fpOut (vs : List (Nat × Bool)) (r : Rounded) (nv : Bool) : LaneOut :=
  { v := r.code, p := anyPoison vs, fl := r.fl ||| (if nv then flNV else 0), rs := r.rs }

/-- Rounds an exact result of the instruction's type (R121). -/
def roundVF (t : Ty) (mode : RMode) (vs : List (Nat × Bool)) (rs : Word32) (x : VF) : LaneOut :=
  fpOut vs (round t mode rs x.v) x.nv

/-- What the shadow check of a rounded exact result compares (R57). -/
def checked (t : Ty) (x : VF) (adds : List Val) : ShadowIn := { ty := t, x := x.v, adds := adds }

/-- FADD (R121). -/
def execFadd (e : Enc) (s : State) : Host.Outcome State Fault Refusal :=
  runLanes e s [tySrc e e.a, tySrc e e.b] (Ty.bytes e.ty) (Ty.bits e.ty)
    (some (fun vs =>
      let l := [valOf e.ty (srcVal vs 0), valOf e.ty (srcVal vs 1)]
      checked e.ty (sumVals (modeOf e) l) l)) (fun _ vs rs =>
    roundVF e.ty (modeOf e) vs rs (sumVals (modeOf e) [valOf e.ty (srcVal vs 0), valOf e.ty (srcVal vs 1)]))

/-- FSUB (R121). -/
def execFsub (e : Enc) (s : State) : Host.Outcome State Fault Refusal :=
  runLanes e s [tySrc e e.a, tySrc e e.b] (Ty.bytes e.ty) (Ty.bits e.ty)
    (some (fun vs =>
      let l := [valOf e.ty (srcVal vs 0), (valOf e.ty (srcVal vs 1)).neg]
      checked e.ty (sumVals (modeOf e) l) l)) (fun _ vs rs =>
    roundVF e.ty (modeOf e) vs rs (sumVals (modeOf e) [valOf e.ty (srcVal vs 0), (valOf e.ty (srcVal vs 1)).neg]))

/-- FMUL (R121). -/
def execFmul (e : Enc) (s : State) : Host.Outcome State Fault Refusal :=
  runLanes e s [tySrc e e.a, tySrc e e.b] (Ty.bytes e.ty) (Ty.bits e.ty)
    (some (fun vs =>
      let a := valOf e.ty (srcVal vs 0); let b := valOf e.ty (srcVal vs 1)
      checked e.ty (mulVals a b) [a, b])) (fun _ vs rs =>
    roundVF e.ty (modeOf e) vs rs (mulVals (valOf e.ty (srcVal vs 0)) (valOf e.ty (srcVal vs 1))))

/-- The exact sum of products and an addend (R121, R122, R130). -/
def fusedVals (mode : RMode) (ps : List VF) (c : Val) : VF :=
  let x := sumVals mode (ps.map (fun p => p.v) ++ [c])
  { v := x.v, nv := x.nv || ps.any (fun p => p.nv) }

/-- FFMA (R121). -/
def execFfma (e : Enc) (s : State) : Host.Outcome State Fault Refusal :=
  runLanes e s [tySrc e e.a, tySrc e e.b, tySrc e (thirdSrc e)] (Ty.bytes e.ty) (Ty.bits e.ty)
    (some (fun vs =>
      let p := mulVals (valOf e.ty (srcVal vs 0)) (valOf e.ty (srcVal vs 1)); let k := valOf e.ty (srcVal vs 2)
      checked e.ty (fusedVals (modeOf e) [p] k) [p.v, k])) (fun _ vs rs =>
    roundVF e.ty (modeOf e) vs rs
      (fusedVals (modeOf e) [mulVals (valOf e.ty (srcVal vs 0)) (valOf e.ty (srcVal vs 1))] (valOf e.ty (srcVal vs 2))))

/-- The smaller or larger of two codes, −0 below +0; a NaN gives way to the other source (R123). -/
def fpPick (t : Ty) (wantMax : Bool) (a b : Nat) : Nat :=
  let x := valOf t a; let y := valOf t b
  if x.isNaN && y.isNaN then canonNaN t
  else if x.isNaN then b
  else if y.isNaN then a
  else if wantMax then (if valLt x y then b else a) else (if valLt y x then b else a)

/-- FMIN and FMAX (R123). -/
def fpMinMax (e : Enc) (s : State) (wantMax : Bool) : Host.Outcome State Fault Refusal :=
  runLanes e s [tySrc e e.a, tySrc e e.b] (Ty.bytes e.ty) (Ty.bits e.ty) none (fun _ vs rs =>
    let a := srcVal vs 0; let b := srcVal vs 1
    fpOut vs ⟨fpPick e.ty wantMax a b, 0, rs⟩ ((valOf e.ty a).isSNaN || (valOf e.ty b).isSNaN))

/-- FMIN (R123). -/
def execFmin (e : Enc) (s : State) : Host.Outcome State Fault Refusal := fpMinMax e s false
/-- FMAX (R123). -/
def execFmax (e : Enc) (s : State) : Host.Outcome State Fault Refusal := fpMinMax e s true

/-- The comparison of FCMP, and whether it sets NV (R124). -/
def fpCompare (cc : Nat) (a b : Val) : Bool × Bool :=
  let un := a.isNaN || b.isNaN
  let sn := a.isSNaN || b.isSNaN
  let o := valCmp a b
  match cc with
  | 0 => (!un && o == .eq, sn)
  | 1 => (un || o != .eq, sn)
  | 2 => (!un && o == .lt, un)
  | 3 => (!un && o != .gt, un)
  | 4 => (!un && o == .gt, un)
  | 5 => (!un && o != .lt, un)
  | 6 => (un, sn)
  | _ => (!un, sn)

/-- FCMP (R124). -/
def execFcmp (e : Enc) (s : State) : Host.Outcome State Fault Refusal :=
  let srcs := [tySrc e e.a, tySrc e e.b]
  runInstr false (opUses srcs e.d 0) false e s (predBody (predIdxOf e.d) srcs (fun vs =>
    let r := fpCompare (e.mod.toNat % 8) (valOf e.ty (srcVal vs 0)) (valOf e.ty (srcVal vs 1))
    (r.1, if r.2 then flNV else 0)))

/-- The class of a code as a mask of one bit (R125). -/
def fpClass (t : Ty) (v : Nat) : Nat :=
  match valOf t v with
  | .nan s => if s then 2 ^ 8 else 2 ^ 9
  | .inf n => if n then 2 ^ 0 else 2 ^ 7
  | .fin n m _ =>
    let small := match Ty.fmt t with | some f => decide (m < 2 ^ f.fb) | none => false
    if m = 0 then (if n then 2 ^ 3 else 2 ^ 4)
    else if small then (if n then 2 ^ 2 else 2 ^ 5)
    else (if n then 2 ^ 1 else 2 ^ 6)

/-- FCLASS (R125): a b32 result whatever TY holds. -/
def execFclass (e : Enc) (s : State) : Host.Outcome State Fault Refusal :=
  runLanes e s [tySrc e e.a] 4 32 none (fun _ vs rs => intOut vs rs (fpClass e.ty (srcVal vs 0)) false)

/-- A one-source instruction that rounds. -/
def fpOp1 (e : Enc) (s : State) (f : RMode → Word32 → Val → Rounded) : Host.Outcome State Fault Refusal :=
  runLanes e s [tySrc e e.a] (Ty.bytes e.ty) (Ty.bits e.ty) none (fun _ vs rs =>
    fpOut vs (f (modeOf e) rs (valOf e.ty (srcVal vs 0))) false)

/-- FRND (R126). -/
def execFrnd (e : Enc) (s : State) : Host.Outcome State Fault Refusal := fpOp1 e s (rndVal e.ty)

/-- FDIV (R127). -/
def execFdiv (e : Enc) (s : State) : Host.Outcome State Fault Refusal :=
  runLanes e s [tySrc e e.a, tySrc e e.b] (Ty.bytes e.ty) (Ty.bits e.ty) none (fun _ vs rs =>
    fpOut vs (divVals e.ty (modeOf e) rs (valOf e.ty (srcVal vs 0)) (valOf e.ty (srcVal vs 1))) false)

/-- FSQRT (R127). -/
def execFsqrt (e : Enc) (s : State) : Host.Outcome State Fault Refusal := fpOp1 e s (sqrtVal e.ty)
/-- FRCP (R127). -/
def execFrcp (e : Enc) (s : State) : Host.Outcome State Fault Refusal :=
  fpOp1 e s (fun mode rs a => divVals e.ty mode rs (.fin false 1 0) a)
/-- FRSQ (R127). -/
def execFrsq (e : Enc) (s : State) : Host.Outcome State Fault Refusal := fpOp1 e s (rsqVal e.ty)
/-- FEXP2 (R128). -/
def execFexp2 (e : Enc) (s : State) : Host.Outcome State Fault Refusal := fpOp1 e s (exp2Val e.ty)
/-- FLOG2 (R128). -/
def execFlog2 (e : Enc) (s : State) : Host.Outcome State Fault Refusal := fpOp1 e s (log2Val e.ty)
/-- FSIN (R128). -/
def execFsin (e : Enc) (s : State) : Host.Outcome State Fault Refusal := fpOp1 e s (sinpiVal e.ty)
/-- FCOS (R128). -/
def execFcos (e : Enc) (s : State) : Host.Outcome State Fault Refusal := fpOp1 e s (cospiVal e.ty)

/-- FSCALE (R129); n is read as an i32 whatever TY holds. -/
def execFscale (e : Enc) (s : State) : Host.Outcome State Fault Refusal :=
  runLanes e s [tySrc e e.a, { o := e.b, ty := .i32, raw := true }] (Ty.bytes e.ty) (Ty.bits e.ty) none (fun _ vs rs =>
    fpOut vs (scaleVal e.ty (modeOf e) rs (srcVal vs 0) (valOf e.ty (srcVal vs 0)) (signedOf 32 (srcVal vs 1))) false)

/-- Element k of a 32-bit pair (R130). -/
def pairElem (t : Ty) (w k : Nat) : Val := valOf t ((w >>> (16 * k)) % 2 ^ 16)

/-- FDOT2 (R130): a and b as 32-bit words, c and d as f32. An immediate a or b supplies element 0; element 1, which R82 does not give, is
+0 (log 80). -/
def execFdot2 (e : Enc) (s : State) : Host.Outcome State Fault Refusal :=
  let pair (o : Opnd) : Src := { o := o, ty := .b32, conv := some e.ty }
  runLanes e s [pair e.a, pair e.b, { o := thirdSrc e, ty := .f32 }] 4 32
    (some (fun vs =>
      let a := srcVal vs 0; let b := srcVal vs 1; let k := valOf .f32 (srcVal vs 2)
      let p := mulVals (pairElem e.ty a 0) (pairElem e.ty b 0); let q := mulVals (pairElem e.ty a 1) (pairElem e.ty b 1)
      checked .f32 (fusedVals (modeOf e) [p, q] k) [p.v, q.v, k])) (fun _ vs rs =>
    let a := srcVal vs 0; let b := srcVal vs 1
    roundVF .f32 (modeOf e) vs rs (fusedVals (modeOf e)
      [mulVals (pairElem e.ty a 0) (pairElem e.ty b 0), mulVals (pairElem e.ty a 1) (pairElem e.ty b 1)]
      (valOf .f32 (srcVal vs 2))))

/-- The element that AADD writes, and the rounding state after it (R131). -/
def aaddElem (t : Ty) (mode : RMode) (rs : Word32) (a b : Nat) (pois : Bool) : Nat × Word32 :=
  let va := a % 2 ^ 80; let vb := b % 2 ^ 80
  let flagsOr (k : Nat) (extra : Bool) : Nat := if a.testBit k || b.testBit k || extra then 2 ^ k else 0
  if t = .a80f then
    let x := valOf .a80f va; let y := valOf .a80f vb
    let r := round .a80f mode rs (sumVals mode [x, y]).v
    let ovf := (valOf .a80f r.code).isInf && !x.isInf && !y.isInf
    (r.code + flagsOr 88 pois + flagsOr 89 ovf + flagsOr 90 false, r.rs)
  else
    let (v, clamp) := satInt .a80i (signedOf 80 va + signedOf 80 vb)
    (v + mod255 (signedOf 80 v) * 2 ^ 80 + flagsOr 88 pois + flagsOr 89 clamp + flagsOr 90 false, rs)

/-- AADD (R131): shadow-checked for a80f; it never changes `%fstat`. -/
def execAadd (e : Enc) (s : State) : Host.Outcome State Fault Refusal :=
  runLanes e s [tySrc e e.a, tySrc e e.b] 12 96
    (if e.ty = .a80f then some (fun vs =>
      let l := [valOf .a80f (srcVal vs 0 % 2 ^ 80), valOf .a80f (srcVal vs 1 % 2 ^ 80)]
      checked .a80f (sumVals (modeOf e) l) l) else none) (fun _ vs rs =>
    let r := aaddElem e.ty (modeOf e) rs (srcVal vs 0) (srcVal vs 1) (anyPoison vs)
    { v := r.1, p := anyPoison vs, rs := r.2 })

end Sys2Proof.Machine
end

