-- ==== Sys2Proof/Machine/Convert.lean ====
section
/-! DEFINITION. The conversion instructions (R132 to R140). -/

namespace Sys2Proof.Machine

/-- The source type of CVT, PACK and DQBLK from its code (R132). -/
def styOf (code : Nat) : Ty := (tyOfCode (BitVec.ofNat 5 code)).getD .b8

/-- A value converted to a type, with NV for a signalling NaN (R133). -/
def convert (t : Ty) (mode : RMode) (rs : Word32) (v : Val) : Rounded :=
  let r := round t mode rs v
  if v.isSNaN then { r with fl := r.fl ||| flNV } else r

/-- CVT (R133 to R135). An immediate source is taken in the source type (log 84). -/
def execCvt (e : Enc) (s : State) : Host.Outcome State Fault Refusal :=
  let sty := styOf (styCode e.mod e.x)
  let acc := e.ty == .a80f
  runLanes e s [{ o := e.a, ty := sty }] (Ty.bytes e.ty) (if acc then 96 else Ty.bits e.ty) none (fun _ vs rs =>
    let a := srcVal vs 0
    let r := convert e.ty (modeOf e) rs (valOf sty (if sty = .a80f then a % 2 ^ 80 else a))
    let o := fpOut vs r false
    if acc && anyPoison vs then { o with v := o.v + 2 ^ 88 } else o)

/-- An sm code with its negative zero written as 0 (R136, R137). -/
def smClean (n v : Nat) : Nat := if v % 2 ^ n = 2 ^ (n - 1) then 0 else v % 2 ^ n

/-- The packed layout of eight byte-wide elements (R136). -/
def packElems (n a b : Nat) : Nat :=
  (List.range 8).foldl (fun r j =>
    let byte := if j < 4 then (a >>> (8 * j)) % 256 else (b >>> (8 * (j - 4))) % 256
    r + smClean n byte * 2 ^ (n * j)) 0

/-- The byte layout of eight packed elements (R137). -/
def unpackElems (n a : Nat) : Nat :=
  (List.range 8).foldl (fun r j => r + smClean n (a >>> (n * j)) * 2 ^ (8 * j)) 0

/-- PACK (R136): a layout form, or a pair rounded element 0 first. -/
def execPack (e : Enc) (s : State) : Host.Outcome State Fault Refusal :=
  if e.ty = .sm4 ∨ e.ty = .sm6 then
    let n := Ty.bits e.ty
    let w : Opnd → Src := fun o => { o := o, ty := .b32 }
    runLanes e s [w e.a, w e.b] (if n = 4 then 4 else 8) (if n = 4 then 32 else 64) none
      (fun _ vs rs => intOut vs rs (packElems n (srcVal vs 0) (srcVal vs 1)) false)
  else
    let w : Opnd → Src := fun o => { o := o, ty := .f32 }
    runLanes e s [w e.a, w e.b] 4 32 none (fun _ vs rs =>
      let r0 := convert e.ty (modeOf e) rs (valOf .f32 (srcVal vs 0))
      let r1 := convert e.ty (modeOf e) r0.rs (valOf .f32 (srcVal vs 1))
      fpOut vs ⟨r0.code + r1.code * 2 ^ 16, r0.fl ||| r1.fl, r1.rs⟩ false)

/-- UNPK (R137). -/
def execUnpk (e : Enc) (s : State) : Host.Outcome State Fault Refusal :=
  if e.ty = .sm4 ∨ e.ty = .sm6 then
    let n := Ty.bits e.ty
    runLanes e s [{ o := e.a, ty := if n = 4 then .b32 else .b64 }] 8 64 none
      (fun _ vs rs => intOut vs rs (unpackElems n (srcVal vs 0)) false)
  else
    runLanes e s [{ o := e.a, ty := .b32, conv := some e.ty }] 4 32 none (fun _ vs rs =>
      fpOut vs (convert .f32 .rne rs (pairElem e.ty (srcVal vs 0) (if e.x = 0 then 0 else 1))) false)

/-- The largest finite value of a narrow type (R138). -/
def qblkMax : Ty → Nat
  | .sm4 => 7 | .sm6 => 31 | .sm8 => 127 | .ts8 => 2 | .e4m3 => 448 | _ => 57344

/-- m × 2^e ≤ F × 2^k, exactly. -/
def scaleFits (m : Nat) (e : Int) (f : Nat) (k : Int) : Bool :=
  let lo := min e k
  decide (m <<< (e - lo).toNat ≤ f <<< (k - lo).toNat)

/-- The least k with m × 2^e ≤ F × 2^k (R138). -/
def leastScale (m : Nat) (e : Int) (f : Nat) : Int :=
  let k0 : Int := (bitLen m : Nat) + e - (bitLen f : Nat)
  if scaleFits m e f (k0 - 1) then k0 - 1 else if scaleFits m e f k0 then k0 else k0 + 1

/-- The scale of a block and whether it was clamped (R138). -/
def blockScale (t : Ty) (vs : List Val) : Nat × Bool :=
  if vs.any Val.isNaN then (255, false)
  else if vs.any Val.isInf then
    (254, true)   -- k = 128, e = 255 > 254
  else
    let m := vs.foldl (fun (a : Nat × Int) v => if magLt a (magOf v) then magOf v else a) (0, 0)
    if m.1 = 0 then (127, false)
    else
      let e := 127 + leastScale m.1 m.2 (qblkMax t)
      if e < 0 then (0, true) else if e > 254 then (254, true) else (e.toNat, false)

/-- A lane's quantised element under a scale (R138). -/
def quantise (t : Ty) (mode : RMode) (rs : Word32) (scale : Nat) (a : Val) : Rounded :=
  if scale = 255 then convert t mode rs (if a.isNaN then a else .nan false)
  else match a with
    | .fin n m e => round t mode rs (.fin n m (e + 127 - scale))
    | v => convert t mode rs v

/-- The lanes of a block of QBLK (R138). -/
def blockOf (b32 : Bool) (l : Nat) : Nat := if b32 then 0 else l / 16

/-- The operands of QBLK: a, D, and the second destination B. A scalar form whose `act` is empty touches none (R84, R103). -/
def qblkUses (e : Enc) (s : State) (c : Iss) : List Use :=
  let us := opUses [{ o := e.a, ty := .f32 }] e.d 1 s c
  if us.isEmpty then [] else us ++ [{ o := e.b, n := 1, lanes := c.act, dest := true }]

/-- Writes the results of a pair of destinations, D and B, lane by lane: where they overlap, the higher lane's D and B come last (R8, R151).
A port's pushes are one access of each lane. -/
def State.putPairs (s : State) (c : Iss) (d b : Opnd) (bits : Nat) (rs : List (LaneRes × LaneRes)) : Except Stop State :=
  let regs (x : Group) : Group :=
    (rs.flatMap (fun (r : LaneRes × LaneRes) => destWrites c.x d 1 bits [r.1] ++ destWrites c.x b 1 8 [r.2])).foldl Group.applyWrite x
  let last (x : Group) : Group := if resultWriting d then x.shiftLast (lastEntry bits (rs.map (fun (r : LaneRes × LaneRes) => r.1))) else x
  match (match d with
    | .port _ => s.putResults c d 1 bits (rs.map (fun (r : LaneRes × LaneRes) => r.1)) none
    | _ => .ok (s.modGroup c.g last)) with
  | .error st => .error st
  | .ok s =>
    let s := s.modGroup c.g regs
    match b, s.group? c.g with
    | .port k, some x => s.pushPort c.g x k.toNat c.m c.act (rs.map (fun (r : LaneRes × LaneRes) => (r.2.lane, r.2.v, r.2.p)))
    | _, _ => .ok s

/-- QBLK (R138): the quantised elements to D and the block scale to B; a scalar form takes the block of its lane
(log 86). -/
def execQblk (e : Enc) (s : State) : Host.Outcome State Fault Refusal :=
  let src : Src := { o := e.a, ty := .f32 }
  let b32 := e.x != 0
  runInstr false (qblkUses e) false e s (fun s c =>
    match s.popAll c (portsOf [src]) with
    | .error st => .error st
    | .ok (s, pop) =>
      let ins := (lanesOf c.act).map (fun l => (l, s.readSrc c.x pop src l))
      let contrib := ins.filter (fun i => (c.x.lane i.1).st != .helper)
      let scale (l : Nat) : Nat × Bool :=
        blockScale e.ty ((contrib.filter (fun i => blockOf b32 i.1 == blockOf b32 l)).map (fun i => valOf .f32 i.2.1))
      let outs := (ins.filter (fun i => !isScalOp e.d || some i.1 == (lanesOf c.act).head?)).map (fun i =>
        let sc := scale i.1
        let r := quantise e.ty (modeOf e) (c.x.rstate i.1) sc.1 (valOf .f32 i.2.1)
        let p := i.2.2.1 || contrib.any (fun j => blockOf b32 j.1 == blockOf b32 i.1 && j.2.2.1)
        (i.1, r, p, sc))
      let real := outs.filter (fun o => isScalOp e.d || (c.x.lane o.1).st != .helper)
      let fl := real.foldl (fun a o => a ||| o.2.1.fl ||| (if o.2.2.2.2 then flST else 0)) 0
      let s := s.modGroup c.g (fun x =>
        ((x.skip (ins.foldl (fun a i => a + i.2.2.2) 0)).addFlags fl).setStates (outs.map (fun o => (o.1, o.2.1.rs))))
      s.putPairs c e.d e.b (Ty.bits e.ty) (outs.map (fun o =>
        ({ lane := o.1, v := o.2.1.code, p := o.2.2.1 }, { lane := o.1, v := o.2.2.2.1, p := o.2.2.1 }))))

/-- DQBLK (R139). -/
def execDqblk (e : Enc) (s : State) : Host.Outcome State Fault Refusal :=
  let sty := styOf e.x.toNat
  runLanes e s [{ o := e.a, ty := sty }, { o := e.b, ty := .sx8 }] 4 32 none (fun _ vs rs =>
    let a := valOf sty (srcVal vs 0)
    let sc := srcVal vs 1 % 256
    if sc = 255 then fpOut vs ⟨canonNaN .f32, if a.isNaN then flNV else 0, rs⟩ false
    else match a with
      | .fin n m x => fpOut vs (round .f32 (modeOf e) rs (.fin n m (x + sc - 127))) false
      | v => fpOut vs (convert .f32 (modeOf e) rs v) false)

/-- RESID (R140). -/
def execResid (e : Enc) (s : State) : Host.Outcome State Fault Refusal :=
  runLanes e s [tySrc e e.a] 4 32 none (fun _ vs rs =>
    let a := srcVal vs 0
    if e.ty = .a80i then
      let r := mod255 (signedOf 80 (a % 2 ^ 80))
      let res := bitsOf a 87 80
      intOut vs rs (r + (if res ≠ r ∨ res = 255 then 256 else 0)) false
    else intOut vs rs (mod255 (intOf e.ty a)) false)

end Sys2Proof.Machine
end

