-- ==== Sys2Proof/Machine/Barrier.lean ====
section
/-! DEFINITION. Named barriers and waits (R251 to R255, R323 to R327), batches of copies (R205), and the end of a group by
ENDG or by the host (R167, R274). -/

namespace Sys2Proof.Machine

/-! ### Named barriers -/

/-- A barrier of a team. -/
def Team.bar (t : Team) (b : Nat) : Bar := cget {} t.bars b

/-- Writes a barrier of a team. -/
def State.setBar (s : State) (t b : Nat) (x : Bar) : State :=
  s.modTeam t (fun q => { q with bars := cput {} q.bars b x })

/-- The groups of a team that have not ended. -/
def State.teamGroups (s : State) (t : Nat) : List (Nat × Group) :=
  s.groups.filter (fun p => p.2.team == t && p.2.st != .ended)

/-- Whether a group waits on a barrier (R254). -/
def Group.waitsOn (x : Group) (b : Nat) : Bool :=
  match x.wait with
  | some { kind := .barrier k _ _ none, .. } => k == b
  | _ => false

/-- Whether a group's barrier wait is set aside while its handler runs. -/
def Group.heldOn (x : Group) (b : Nat) : Bool :=
  match x.waitHeld with
  | some { kind := .barrier k _ _ none, .. } => k == b
  | _ => false

/-- The result of a barrier wait that has ended. -/
def Wait.released (w : Wait) (fail : Bool) : Wait :=
  match w.kind with
  | .barrier b pd act none => { w with kind := .barrier b pd act (some fail) }
  | _ => w

/-- The end of a wait: its lanes move on (R153). -/
def Group.endWait (x : Group) (w : Wait) : Group :=
  let prio := ((x.front.find? (fun e => e.pc == w.pc)).map (fun e => e.prio)).getD w.prio
  { x.moveLanes (w.m &&& ~~~x.empties) (w.pc + 1) prio with wait := none, waitHeld := none }

/-- A barrier wait ends: pd is written in the lanes of `act`, logged under capture (R432), and a completion acts as an acquire
(R254, R325). -/
def State.endBarrier (s : State) (g : Nat) (w : Wait) (pd : BitVec 4) (act : Mask) (fail : Bool) : State :=
  let s := (s.capRead s g 5 w.pc.toNat 8 [(lowLane act, if fail then 1 else 0, false)]).1
  let s := s.modGroup g (fun x => (x.setPred pd.toNat act (if fail then act else 0)).endWait w)
  if fail then s else s.acquire g scTeam

/-- Whether a group's wait can end now: it is on a core and runs; a saved, frozen or stopped group resumes later (R327). -/
def Group.canResume (x : Group) : Bool :=
  x.st == .active || x.st == .pending || x.st == .draining

/-- A group whose wait has ended while it could not resume goes on (R327). -/
def State.resumeWait (s : State) (g : Nat) : State :=
  match s.group? g with
  | none => s
  | some x =>
    match x.wait with
    | some w =>
      match w.kind with
      | .barrier _ pd act (some fail) => if x.canResume then s.endBarrier g w pd act fail else s
      | _ => s
    | none => s

/-- Releases every waiter of a barrier with one result (R325); a waiter whose handler runs, or that is saved, is marked and
resumes later (R327). -/
def State.releaseWaiters (s : State) (t b : Nat) (fail : Bool) : State :=
  (s.teamGroups t).foldl (fun s p =>
    let hit := p.2.waitsOn b
    let hold := p.2.heldOn b
    let s := s.modGroup p.1 (fun x => { x with
      wait := if hit then x.wait.map (fun w => w.released fail) else x.wait,
      waitHeld := if hold then x.waitHeld.map (fun w => w.released fail) else x.waitHeld })
    if hit then s.resumeWait p.1 else s) s

/-- An arrival of count n (R253): gives the phase arrived in. The caller has checked n against CNT. -/
def State.arrive (s : State) (t b n : Nat) : State × Bool :=
  match s.team? t with
  | none => (s, false)
  | some q =>
    let x := q.bar b
    if n = 0 then (s, x.ph)
    else if x.cnt ≠ n then (s.setBar t b { x with cnt := x.cnt - n }, x.ph)
    else ((s.setBar t b { x with ph := !x.ph, cnt := x.exp }).releaseWaiters t b false, x.ph)

/-- A team is marked BROKEN: every waiter on its barriers is released with pd = 1 (R167, R254, R325); the waiters of a saved team complete when
they resume, unless their phase completes before (R327). -/
def State.breakTeam (s : State) (t : Nat) : State :=
  match s.team? t with
  | none => s
  | some q =>
    let s := s.modTeam t (fun q => { q with broken := true })
    if q.st = .saved then s else (q.bars.map (fun p => p.1)).foldl (fun s b => s.releaseWaiters t b true) s

/-- A wait of a saved group: one that the BROKEN mark alone has ended waits on until the group resumes (R327). -/
def Wait.savedWait (w : Wait) : Wait :=
  match w.kind with
  | .barrier b pd act (some true) => { w with kind := .barrier b pd act none }
  | _ => w

/-- A restored group goes on where its barrier instruction stands: a waiter of a BROKEN team completes with pd = 1 (R327). -/
def State.wakeRestored (s : State) (g : Nat) : State :=
  match s.group? g with
  | none => s
  | some x =>
    if (s.team? x.team).any (fun (q : Team) => q.broken) then
      (s.setGroup g { x with wait := x.wait.map (fun w => w.released true), waitHeld := x.waitHeld.map (fun w => w.released true) }).resumeWait g
    else s.resumeWait g

/-- Groups whose waits have ended while they were parked go on once they are woken (R325, R327). -/
def State.resumeAll (s : State) : State :=
  (s.groups.filter (fun p => match p.2.wait with
    | some { kind := .barrier _ _ _ (some _), .. } => true
    | _ => false)).foldl (fun (s : State) p => s.resumeWait p.1) s

/-! ### Copies of a lane and their batches (R205) -/

/-- Changes every copy of every channel. -/
def State.mapCopies (s : State) (f : Copy → Copy) : State :=
  { s with cores := s.cores.map (fun p => (p.1, { p.2 with chans := p.2.chans.map (fun q => (q.1, { q.2 with q := q.2.q.map f })) })) }

/-- The copies in all channels. -/
def State.copies (s : State) : List Copy :=
  s.cores.flatMap (fun p => p.2.chans.flatMap (fun q => q.2.q))

/-- Copies that a group issued and that have not completed. -/
def State.copiesOf (s : State) (g : Nat) : List Copy := s.copies.filter (fun y => y.g == g)

/-- The batches of a lane that are outstanding. -/
def Lane.outstanding (l : Lane) : Nat := ((List.range 16).filter (fun i => l.bout.getLsbD i)).length + l.bold.length

/-- A lane seals a batch under its counter's number (R205): outstanding while it holds copies, FAIL if one has failed already (R207). An
outstanding batch of the same number goes on under its serial. -/
def Lane.sealAs (r : Lane) (serial : Nat) (out : Bool) : Lane :=
  let n := r.bctr.toNat
  let bit : BitVec 16 := (1#16) <<< n
  { r with
    bctr := r.bctr + 1,
    bold := if r.bout.getLsbD n then r.bold ++ [cget 0 r.bser n] else r.bold,
    bser := cput 0 r.bser n serial,
    bout := if out then r.bout ||| bit else r.bout &&& ~~~bit,
    bfail := if r.openFail then r.bfail ||| bit else r.bfail &&& ~~~bit,
    openN := 0, openFail := false }

/-- A copy of a batch has completed: `more` says whether others are left, `failed` that it failed (R205, R207). -/
def Lane.batchStep (r : Lane) (serial : Nat) (more failed : Bool) : Lane :=
  match (List.range 16).find? (fun n => r.bout.getLsbD n && cget 0 r.bser n == serial) with
  | some n =>
    let bit : BitVec 16 := (1#16) <<< n
    { r with bout := if more then r.bout else r.bout &&& ~~~bit, bfail := if failed then r.bfail ||| bit else r.bfail }
  | none => { r with bold := if more then r.bold else r.bold.filter (fun b => b != serial) }

/-- Moves a lane's open copies into the batch of its counter (R205). The batch is outstanding while one of its copies has not
completed; a copy that failed while it was open gives the batch its FAIL status (R207). -/
def State.seal (s : State) (g l : Nat) : State :=
  match s.group? g with
  | none => s
  | some _ =>
    let mine (y : Copy) : Bool := y.g == g && y.lane == l && y.batch.isNone
    let out := s.copies.any mine
    let k := s.nextId
    let s := { s with nextId := k + 1 }.mapCopies (fun y => if mine y then { y with batch := some k } else y)
    s.modGroup g (fun x => x.modLane l (fun r => r.sealAs k out))

/-! ### Matrix operations of a group that are given up (R239, R243) -/

/-- MSYNC.abort and ENDG: the group's operations are discarded, with a cause of theirs that is still held (log 18); a running MZERO,
MACC or MCVT completes first. Kinds as in R320: 1 MLOOP, 2 MSTEP, 3 MZERO, 4 MACC, 5 MCVT. -/
def State.dropMatrix (s : State) (g core : Nat) : State :=
  let keep (o : MatOp) : Bool := o.running && decide (3 ≤ o.kind)
  let kept := ((s.core core).mq.filter (fun o => o.g == g && keep o)).map (fun o => o.id)
  ((s.modCore core (fun c => { c with mq := c.mq.filter (fun o => o.g != g || keep o) })).modGroup g (fun x =>
    { x with mats := [], asyncMat := none, cvts := x.cvts.filter (fun q => kept.contains q.op) })).refillQueue core

/-! ### The end of a group by ENDG or by the host (R167, R274) -/

/-- Every lane becomes empty, the frontier is discarded, handler mode ends, open copies are sealed, matrix operations are
discarded, the team is BROKEN, and a GROUP_ENDED record is written. The group drains (R305). -/
def State.endGroup (s : State) (g : Nat) : State :=
  match s.group? g with
  | none => s
  | some x =>
    let t := x.sr.trap
    let rec_ := s.groupRec x cGROUP_ENDED (if x.handler then t.mask else 0) (if x.handler then t.pc else 0)
    let rec_ := { rec_ with scause := if x.handler then t.cause else 0 }
    let s := (s.countLate x).setGroup g x.completeAll
    let s := ((List.range 32).filter (fun l => decide (0 < (x.lane l).openN))).foldl (fun s l => s.seal g l) s
    let s := s.dropMatrix g x.core
    let s := s.modGroup g (fun x => { x with
      lanes := (List.range 32).foldl (fun (ls : Cells Lane) l => cput ({} : Lane) ls l { cget ({} : Lane) ls l with st := .empty }) x.lanes,
      frontier := [], hfrontier := [], handler := false, sketch := none, wait := none, waitHeld := none, held := false,
      sleepEnd := none, asyncMat := none, asyncWd := none,
      rf := { x.rf with lf := if x.handler then x.rf.lsave else x.rf.lf },
      sr := { x.sr with trap := {} },
      st := .draining })
    (s.breakTeam x.team).writeErr rec_

/-! ### The save record (R326) -/

/-- The save record of a barrier (R326): the state word of R251, the masks of waiting and of released groups, those
among them whose handler runs, the mark. -/
def State.barRecord (s : State) (t b : Nat) : List Byte :=
  match s.team? t with
  | none => List.replicate 16 0
  | some q =>
    let x := q.bar b
    let gs := s.teamGroups t
    let bits (p : Group → Bool) : Nat := gs.foldl (fun n y => n + (if p y.2 then 2 ^ y.2.num else 0)) 0
    let ended (w : Option Wait) : Bool := match w with
      | some { kind := .barrier k _ _ (some false), .. } => k == b
      | _ => false
    let rel (y : Group) : Bool := ended y.wait || ended y.waitHeld
    leBytes 16 (packFields [(x.cnt, 0), (x.exp, 15), (x.ph.toNat, 31), (x.aux.toNat, 32), (bits (fun y => y.waitsOn b || y.heldOn b), 64),
      (bits rel, 80), (q.broken.toNat, 96)])

/-- The groups of a cluster that have not ended. -/
def State.clusterGroups (s : State) (c : Cluster) : List (Nat × Group) :=
  s.groups.filter (fun p => c.teams.contains p.2.team && p.2.st != .ended)

/-- The bytes of a team's image in the save area (log 17). -/
def teamLen (h : Hdr) : Nat := h.scratch * 1056 + 16 * h.bars + h.obuf * 1056 + 136

/-- The record of a barrier of a saved team is written again in the save area, where a copy's arrival has changed it (R327). -/
def State.mirrorBar (s : State) (t b : Nat) : State :=
  match s.team? t with
  | none => s
  | some q =>
    match s.cluster? q.cluster, s.launch? q.launch with
    | some c, some l =>
      match c.saveAt with
      | some a =>
        let at_ := a + (s.clusterGroups c).length * frameLen l.hdr.wbytes true
          + (c.teams.takeWhile (fun u => u != t)).length * teamLen l.hdr + l.hdr.scratch * 1056 + 16 * b
        if q.st = .saved then s.homeWrite at_ (s.barRecord t b) false else s
      | none => s
    | _, _ => s

end Sys2Proof.Machine
end

