-- ==== Sys2Proof/Machine/Copy.lean ====
section
/-! DEFINITION. Copy templates (R194 to R196): fields, structural checks, positions, spans; and the issue of copies (R193). -/

namespace Sys2Proof.Machine

/-! ### Fields of a template, given as a number (R194) -/

/-- A field of dimension d, at its place within the 320 bits of the dimension. -/
def tpDim (v d hi lo : Nat) : Nat := bitsOf v (384 + 320 * d + hi) (384 + 320 * d + lo)
/-- SSTRd. -/
def tpSstr (v d : Nat) : Int := signedOf 64 (tpDim v d 63 0)
/-- DSTRd. -/
def tpDstr (v d : Nat) : Int := signedOf 64 (tpDim v d 127 64)
/-- COUNTd. -/
def tpCount (v d : Nat) : Nat := tpDim v d 159 128
/-- SEXTd. -/
def tpSext (v d : Nat) : Nat := tpDim v d 191 160
/-- DEXTd. -/
def tpDext (v d : Nat) : Nat := tpDim v d 223 192
/-- SORGd. -/
def tpSorg (v d : Nat) : Int := signedOf 32 (tpDim v d 255 224)
/-- DORGd. -/
def tpDorg (v d : Nat) : Int := signedOf 32 (tpDim v d 287 256)
/-- SBASE. -/
def tpSbase (v : Nat) : Nat := bitsOf v 63 0
/-- DBASE. -/
def tpDbase (v : Nat) : Nat := bitsOf v 127 64
/-- The element size in bytes. -/
def tpEsize (v : Nat) : Nat := 2 ^ bitsOf v 257 256
/-- Used dimensions. -/
def tpDims (v : Nat) : Nat := bitsOf v 259 258 + 1
/-- GATHER. -/
def tpGather (v : Nat) : Bool := v.testBit 262
/-- BAREN. -/
def tpBaren (v : Nat) : Bool := v.testBit 263
/-- The fill value: its low ESIZE bytes (R194). -/
def tpFill (v : Nat) : Nat := bitsOf v 191 128 % 2 ^ (8 * tpEsize v)

/-- The structural checks of R196, made by CTPL and at issue; true when the template is refused. -/
def tpRefused (v : Nat) : Bool :=
  bitsOf v 2047 1664 != 0 || bitsOf v 383 293 != 0 || bitsOf v 291 290 == 3
    || (List.range 4).any (fun d => tpDim v d 319 288 != 0)
    || (List.range (tpDims v)).any (fun d => tpCount v d == 0)
    || (List.range 4).any (fun d => decide (tpDims v ≤ d) && tpDim v d 319 0 != 0)
    || (tpGather v && (tpDims v != 2 || !tpBaren v))

/-! ### Sides, boxes and spans (R195, R196) -/

/-- One side of a copy: base, and for each used dimension its stride, origin with the shift applied, extent and count. -/
structure Side where
  base : Nat
  dims : List (Int × Int × Nat × Nat)

/-- The source side of a template with a shift. -/
def srcSide (v : Nat) (shift : Int) : Side :=
  { base := tpSbase v, dims := (List.range (tpDims v)).map (fun d =>
      (tpSstr v d, tpSorg v d + (if d = bitsOf v 287 286 then shift else 0), tpSext v d, tpCount v d)) }

/-- The destination side of a template with a shift. -/
def dstSide (v : Nat) (shift : Int) : Side :=
  { base := tpDbase v, dims := (List.range (tpDims v)).map (fun d =>
      (tpDstr v d, tpDorg v d + (if d = bitsOf v 289 288 then shift else 0), tpDext v d, tpCount v d)) }

/-- The in-box coordinates of a dimension, lowest and highest; none when there is none. -/
def boxRange (d : Int × Int × Nat × Nat) : Option (Int × Int) :=
  let lo := max 0 d.2.1
  let hi := min ((d.2.2.1 : Int) - 1) (d.2.1 + d.2.2.2 - 1)
  if lo ≤ hi then some (lo, hi) else none

/-- The exact extreme addresses of a side and whether a product or a partial sum leaves the signed 64-bit range (R196); none
for a side with no in-box position. -/
def Side.extremes (a : Side) : Option (Int × Int × Bool) :=
  a.dims.foldl (fun (acc : Option (Int × Int × Bool)) d =>
    match acc, boxRange d with
    | some (lo, hi, bad), some (c0, c1) =>
      let p0 := c0 * d.1
      let p1 := c1 * d.1
      let pl := min p0 p1
      let ph := max p0 p1
      let out (z : Int) : Bool := decide (z < -(2 ^ 63)) || decide ((2 ^ 63 : Int) ≤ z)
      some (lo + pl, hi + ph, bad || out pl || out ph || out (lo + pl) || out (hi + ph))
    | _, _ => none) (some ((a.base : Int), (a.base : Int), false))

/-- The span of a side: first byte and last byte; none for no in-box position (R196). -/
def Side.span (a : Side) (esize : Nat) : Option (Int × Int × Bool) :=
  a.extremes.map (fun x => (x.1, x.2.1 + esize - 1, x.2.2))

/-- A side's address arithmetic overflows or leaves the 55-bit space (R196). -/
def spanOverflow : Option (Int × Int × Bool) → Bool
  | none => false
  | some (lo, hi, bad) => bad || decide (lo < 0) || decide ((2 ^ 55 : Int) ≤ hi)

/-- The coordinate of each dimension at a position: i0 varies fastest (R195). -/
def posCoords : List (Int × Int × Nat × Nat) → Nat → List Int
  | [], _ => []
  | d :: r, p => (d.2.1 + (p % d.2.2.2 : Nat)) :: posCoords r (p / d.2.2.2)

/-- Whether coordinates lie in the box of a side. -/
def Side.inBox (a : Side) (cs : List Int) : Bool :=
  (a.dims.zip cs).all (fun x => decide (0 ≤ x.2) && decide (x.2 < (x.1.2.2.1 : Int)))

/-- The address of coordinates. -/
def Side.addr (a : Side) (cs : List Int) : Int := (a.dims.zip cs).foldl (fun n x => n + x.2 * x.1.1) (a.base : Int)

/-- The cache policy of a template's destination (R194). -/
def tpPol (v : Nat) : Nat := bitsOf v 291 290

/-- The number of positions of a template. -/
def tpPositions (v : Nat) : Nat := (List.range (tpDims v)).foldl (fun n d => n * tpCount v d) 1

/-! ### Checks at issue (R196) -/

/-- Whether a span meets a window and passes the end of an allocation that starts at the window's base. -/
def crosses (lo hi base size alloc : Nat) : Bool :=
  decide (lo < base + size) && decide (base ≤ hi) && decide (base + alloc ≤ hi)

/-- The cause of a span that crosses the end of a scratchpad or cluster-scratch allocation (R196). -/
def State.spanCause (s : State) (x : Group) (lo hi : Nat) : Option Cause :=
  let d := (s.ctx x.ctx).desc
  let alloc := s.scratchOf x
  if crosses lo hi d.scrb (2 ^ 32) alloc then some cSCR_BOUNDS
  else if decide (lo < d.club + 2 ^ 32) && decide (d.club ≤ hi) then
    let place (a : Nat) : Option Nat :=
      let o := a - d.club
      if d.club ≤ a ∧ o >>> 22 = 0 ∧ bitsOf o 21 19 < (s.clusterOf x).teams.length ∧ o % 2 ^ 19 < alloc then
        some (bitsOf o 21 19) else none
    match place hi with
    | none => some cCLU_RANGE
    | some u =>
      -- a span that starts below the window crosses the end of every allocation before the last one's
      if (if d.club ≤ lo then place lo ≠ some u else u ≠ 0) then some cCLU_RANGE else none
  else none

/-- The physical scratchpad and offset of an address, if it reaches one (R196). -/
def State.scrPlace (s : State) (x : Group) (a : Nat) : Option (Nat × Nat) :=
  match s.reach x a 1 with
  | .scr t o => some (t, o)
  | _ => none

/-- COPY_OVERLAP: one physical scratchpad, the destination above the source, and more than 16 KiB shared (R196). -/
def State.overlaps (s : State) (x : Group) (src dst : Option (Int × Int × Bool)) : Bool :=
  match src, dst with
  | some (sl, sh, _), some (dl, dh, _) =>
    match s.scrPlace x sl.toNat, s.scrPlace x dl.toNat with
    | some (t, o), some (t', o') =>
      let se := o + (sh - sl).toNat
      let de := o' + (dh - dl).toNat
      t == t' && decide (o < o') && decide (o' + 16384 ≤ min se de)
    | _, _ => false
  | _, _ => false

/-- The template of an index as it stands; none for one that this context has not written (R196, R199). -/
def State.template (s : State) (c i : Nat) : Option (List Byte) :=
  let x := s.ctx c
  if i < 4096 ∧ x.tplWritten.contains i then some (s.memBytes (x.desc.tplb + 256 * i) 256) else none

/-- The source shift of P (R193). -/
def paramS (data : Nat) : Int := signedOf 24 (bitsOf data 63 40)
/-- The destination shift of P (R193). -/
def paramD (data : Nat) : Int := signedOf 24 (bitsOf data 39 16)

/-- The cause that one lane's copy meets at issue (R196). -/
def State.copyCause (s : State) (x : Group) (data : Nat) : Option Cause :=
  match s.template x.ctx (data % 2 ^ 16) with
  | none => some cCOPY_TPL
  | some bs =>
    let v := leNat bs
    if tpRefused v || (tpBaren v && decide ((s.launchOf x).hdr.bars ≤ bitsOf v 271 264)) then some cCOPY_TPL
    else
      let sp := (srcSide v (paramS data)).span (tpEsize v)
      let dp := (dstSide v (paramD data)).span (tpEsize v)
      if spanOverflow sp || spanOverflow dp then some cCOPY_ADDR_OVF
      else
        let cross (z : Option (Int × Int × Bool)) : Option Cause := z.bind (fun q => s.spanCause x q.1.toNat q.2.1.toNat)
        match cross sp, cross dp with
        | some c, some c' => some (if c' = cSCR_BOUNDS then c' else c)
        | some c, none => some c
        | none, some c => some c
        | none, none => if s.overlaps x sp dp then some cCOPY_OVERLAP else none

/-! ### Issue (R193) -/

/-- The channel of an aperture offset (R193). -/
def apChannel (o : Nat) : Nat := bitsOf o 10 8

/-- An aperture offset that a copy-issuing store may name (R193). -/
def apOk (o : Nat) : Bool := bitsOf o 15 11 == 0 && bitsOf o 7 0 == 0

/-- A channel of a core. -/
def State.chan (s : State) (core c : Nat) : Chan := cget {} (s.core core).chans c

/-- Changes a channel of a core. -/
def State.modChan (s : State) (core c : Nat) (f : Chan → Chan) : State :=
  s.modCore core (fun k => { k with chans := cput {} k.chans c (f (cget {} k.chans c)) })

/-- Some channel has no room for the copies of an instruction (R193). -/
def State.chansFull (s : State) (core : Nat) (ls : List (Nat × Nat)) : Bool :=
  (List.range 8).any (fun c =>
    let n := (ls.filter (fun q => apChannel q.2 == c)).length
    decide (0 < n) && decide (64 < (s.chan core c).q.length + n))

/-- A lane's copy enters its channel's queue as one of the lane's open copies (R193). -/
def State.enqueueCopy (s : State) (g : Nat) (x : Group) (lane o data : Nat) : State :=
  match s.template x.ctx (data % 2 ^ 16) with
  | none => s
  | some bs =>
    let y : Copy := { id := s.nextId, g := g, lane := lane, ctx := x.ctx, team := x.team, num := x.num,
                      tplIdx := data % 2 ^ 16, tpl := bs, sshift := paramS data, dshift := paramD data,
                      pdie := (x.lane lane).pdie, pmod := (x.lane lane).pmod }
    (({ s with nextId := s.nextId + 1 }).modChan x.core (apChannel o) (fun ch => { ch with q := ch.q ++ [y] })).modGroup g
      (fun x => x.modLane lane (fun r => { r with openN := r.openN + 1 }))

end Sys2Proof.Machine
end

