-- ==== Sys2Proof/Machine/Clock.lean ====
section
/-! DEFINITION. Waits on live objects (R254, R300, R429, R430), and the passing of cycles (R1, R175, R429 to R431). -/

namespace Sys2Proof.Machine

/-! ### Waits on live objects (R254, R300, R429, R430) -/

/-- A copy with BAREN for a barrier of a team is outstanding (R254). -/
def State.barCopy (s : State) (t b : Nat) : Bool :=
  s.copies.any (fun y => let v := leNat y.tpl; y.team == t && tpBaren v && bitsOf v 271 264 == b)

/-- The barrier that a group awaits, if it waits on one. -/
def Group.awaits (x : Group) : Option Nat :=
  match x.wait with
  | some { kind := .barrier b _ _ none, .. } => some b
  | _ => none

/-- A barrier wait is dead: every group of the team that has not ended waits in BARW or BARRW, and no copy will arrive
(R430). -/
def State.deadWait (s : State) (x : Group) : Bool :=
  match x.awaits with
  | none => false
  | some b => (s.teamGroups x.team).all (fun p => p.2.awaits.isSome) && !s.barCopy x.team b

/-- A wait on a barrier is one on a live object: a group of the team is not waiting on that barrier, or a copy will arrive at it (R254). -/
def State.barLive (s : State) (x : Group) (b : Nat) : Bool :=
  (s.teamGroups x.team).any (fun p => p.2.awaits != some b) || s.barCopy x.team b

/-- The group waits on a live object: an MWAIT is not one (R190), nor a barrier at which nothing can arrive any more (R254). -/
def State.liveWait (s : State) (x : Group) : Bool :=
  x.st == .draining || x.held || (match x.wait with
    | none => false
    | some w => match w.kind with
      | .barrier b _ _ none => s.barLive x b
      | .mwait .. => false
      | _ => true)

/-! ### The passing of cycles -/

/-- The number of the issue port CTL (R308). -/
def portCTL : Nat := 5
/-- Channel c's arrivals take the place `portCopy + c` in a cycle (R255). -/
def portCopy : Nat := 8

/-- The arithmetic clock in MHz (R443). -/
def State.mhz (s : State) : Nat := max 1 (bitsOf s.host.thstat.toNat 63 48)

/-- The time that n cycles take at the present rate, in parts of a tick (R1, R175, R443). -/
def State.partsOf (s : State) (n : Nat) : Nat := n * (1000 * Config.parts / s.mhz)

/-- A group's watchdog after n cycles (R429 to R431). -/
def State.watchAfter (s : State) (x : Group) (n : Nat) : Watch :=
  let w := x.wd
  let runs := w.armed && !w.expired && x.canResume && !s.liveWait x
  -- the cycles of a sleep are not counted (R162)
  let m := match x.sleepEnd with
    | some t => s.cycle + n - max t s.cycle
    | none => n
  { w with
    w := if runs then min w.interval (w.w + m) else w.w,
    dead := if s.deadWait x then w.dead + n else 0,
    second := if x.st = .saved then w.second else w.second.map (fun t => t - n) }

/-- WATCHDOG becomes pending when the count reaches the interval (R429). -/
def Group.watchdogDue (x : Group) : Group :=
  if x.wd.armed && !x.wd.expired && decide (x.wd.interval ≤ x.wd.w) then
    { x with wd := { x.wd with expired := true }, asyncWd := some (x.asyncWd.getD { cause := cWATCHDOG }) }
  else x

/-- A group whose barrier wait has been dead for 65,536 cycles is given WATCHDOG with the barrier's number (R430). -/
def State.deadDue (s : State) (x : Group) : Group :=
  if s.deadWait x && decide (65536 ≤ x.wd.dead) then
    { x with wd := { x.wd with dead := 0 },
             asyncWd := some { cause := cWATCHDOG, info := BitVec.ofNat 64 (1 + 256 * (x.awaits.getD 0)) } }
  else x

/-- A sleep whose cycles have passed is over (R162); a saved group holds what remains of its sleep. -/
def Group.sleepBy (x : Group) (cycle : Nat) : Group :=
  match x.sleepEnd with
  | some t => if t ≤ cycle ∧ x.st ≠ .saved then { x with sleepEnd := none } else x
  | none => x

/-- The merge window that ends at a cycle closes; the groups that were held look at their instructions again (R306, R341). -/
def State.closeAt (s : State) (cycle : Nat) : State := ({ s with cycle := cycle } : State).closeWindow.unholdAll

/-- The ends of merge windows among the cycles up to one: the first window's, and the last one's for what was sent again (R341). -/
def State.closeUpTo (s : State) (cycle : Nat) : State :=
  if cycle < s.windowEnd then { s with cycle := cycle }
  else
    let t := s.closeAt s.windowEnd
    { (if cycle < t.windowEnd then t else t.closeAt (cycle / 64 * 64)) with cycle := cycle }

/-- n cycles pass (R1): what a watchdog's count or a dead wait's then asks for becomes pending with them (R429, R430), and the merge
windows that end with them are granted (R341); nothing has issued in the new cycle yet (R308). -/
def State.passCycles (s : State) (n : Nat) : State :=
  State.closeUpTo { s with
    issued := if n = 0 then s.issued else [],
    groups := s.groups.map (fun p => (p.1, ((s.deadDue { p.2 with wd := s.watchAfter p.2 n }).watchdogDue).sleepBy (s.cycle + n))),
    timebase := s.timebase + BitVec.ofNat 64 ((s.subTick + s.partsOf n) / Config.parts),
    subTick := (s.subTick + s.partsOf n) % Config.parts } (s.cycle + n)

end Sys2Proof.Machine
end

