-- ==== Sys2Proof/Machine/Hub.lean ====
section
/-! DEFINITION. The hub's shared parts: virtual dies (R28, R29), distances (R263), the compute links'
bias (R262, R392), queues (R279 to R281) and dependence counters (R284, R285). -/

namespace Sys2Proof.Machine

/-! ### Virtual dies (R28, R29) -/

/-- The entry of a virtual die: physical module and die; none for a rejected entry (R29). -/
def State.vdie (s : State) (d : CtxDesc) (n : Nat) : Option (Nat × Nat) :=
  let pa := d.vdtb + 4 * n
  let e := leNat (s.memBytes pa 4)
  if n % 16 ≥ 8 ∨ d.vdtlen ≤ n ∨ populated pa 4 = false ∨ s.memPoison pa 4 then none
  else if e.testBit 31 = false ∨ bitsOf e 18 0 ≠ 0 ∨ 432 ≤ bitsOf e 30 22 then none
  else some (bitsOf e 30 22, bitsOf e 21 19)

/-! ### Distances (R263) -/

/-- DHOP's distance between two mapped dies (R263); `n` numbers the free value that a lane may take. -/
def State.dieHops (s : State) (a b : Nat × Nat) (n : Nat) : Nat :=
  if a = b then 0
  else if a.1 = b.1 then 2
  else match s.moduleHops a.1 b.1 n with
    | some h => h + 2
    | none => 0xFFFFFFFF

/-! ### The bias of a compute link (R262, R392) -/

/-- The bundles of a link: 20 on a compute link, 40 on a memory link (R21, R385). -/
def linkBundles (k : Nat) : Nat := if k < 8 then 20 else if k < 12 then 40 else 0

/-- The bundles in service, in ascending number (R390). -/
def Link.inService (x : Link) (k : Nat) : List Nat := (List.range (linkBundles k)).filter (fun b => !x.out.contains b)

/-- The resident teams of a context on a die. -/
def State.teamsOnDie (s : State) (c die : Nat) : Nat :=
  (s.teams.filter (fun p => p.2.st == .running && dieOf p.2.core == die
    && ((s.launch? p.2.launch).map (fun l => l.ctx)) == some c)).length

/-- Whether the first of two bids for the bias wins: more teams, then the present owner, then the lower number (R262). -/
def bidWins (cur : Option Nat) (a b : Nat × Nat) : Bool :=
  decide (b.2 < a.2) || (a.2 == b.2 && (cur == some a.1 || (cur != some b.1 && decide (a.1 < b.1))))

/-- The context that owns a die's link: the one with the most resident teams (R262). -/
def State.biasOwner (s : State) (die : Nat) : Option Nat :=
  let cur := (s.link die).owner
  let bids := (s.ctxs.map (fun p => (p.1, s.teamsOnDie p.1 die))).filter (fun b => decide (0 < b.2))
  (bids.foldl (fun (acc : Option (Nat × Nat)) b => match acc with
    | none => some b
    | some a => if bidWins cur b a then some b else some a) none).map (fun b => b.1)

/-- A turn of one bundle begins its drain (R391). -/
def Turn.start (bundle : Nat) (toSpoke : Bool) (now : Nat) : Turn :=
  { bundle := bundle, toSpoke := toSpoke, dead := false, due := now }

/-- The next bundle to turn toward the target, if the split is not there yet: raising turns the lowest bundle that carries
toward the hub, lowering the highest that carries toward the spoke (R390). -/
def Link.nextTurn (x : Link) (k : Nat) : Option (Nat × Bool) :=
  if x.spoke < x.target then ((x.inService k)[x.spoke]?).map (fun b => (b, true))
  else if x.target < x.spoke then ((x.inService k)[x.spoke - 1]?).map (fun b => (b, false))
  else none

/-- With no turn under way, the next queued turn begins unless its bundle is in its dwell; with none queued the link returns
to the state it came from (R387, R391). -/
def Link.advance (x : Link) (k now : Nat) : Link :=
  if x.turn.isSome ∨ x.st ≠ .turning then x
  else match x.nextTurn k with
    | none => { x with st := x.home }
    | some (b, up) => if now < cget 0 x.dwell b then x else { x with turn := some (Turn.start b up now) }

/-- Turns toward a split are queued; the state becomes TURNING (R387, R392). -/
def Link.request (x : Link) (k target now : Nat) : Link :=
  let x := { x with target := target }
  let x := if x.st = .full ∨ x.st = .half then { x with home := x.st, st := .turning } else x
  x.advance k now

/-- The bias moves to its present owner: turns not begun are discarded and the split stays (R392), but for those that keep 4 bundles in each
direction after bundles have left service (R394). -/
def State.settleBias (s : State) (die : Nat) : State :=
  let o := s.biasOwner die
  let x := s.link die
  if x.owner = o then s
  else
    let n := match x.turn with
      | some t => if t.toSpoke then x.spoke + 1 else x.spoke - 1
      | none => x.spoke
    s.modLink die (fun x => ({ x with owner := o, target := min ((x.inService die).length - 4) (max 4 n) } : Link).advance die s.now)

/-- The bias of every compute link after teams have come or gone (R392). -/
def State.settleBiases (s : State) : State := (List.range 8).foldl State.settleBias s

/-! ### Queues (R279 to R281) -/

/-- A queue. -/
def State.queue (s : State) (q : Nat) : Queue := cget {} s.queues q

/-- The state code of R279. -/
def QState.code : QState → Nat
  | .disabled => 0
  | .enabled => 1
  | .error => 2

/-- Bytes 12 to 19 of a queue's entry, which the dispatcher maintains (R279). -/
def Queue.entry (x : Queue) : List Byte :=
  leBytes 8 (packFields [(x.head.toNat, 0), (x.tail.toNat, 16), (x.ecause.toNat, 38), (if x.esrc then 1 else 0, 47), (x.eidx.toNat, 48)])

/-- Writes a queue, and in the queue table the fields that the dispatcher maintains; those of the host stay, CTXN beside STATE in byte 9
among them (R279). -/
def State.setQueue (s : State) (q : Nat) (x : Queue) : State :=
  let a := s.host.qtbase.toNat + 64 * q
  let st := (leNat (s.memBytes (a + 9) 1)) % 64 + 64 * x.st.code
  (({ s with queues := cput {} s.queues q x }).homeWrite (a + 9) (leBytes 1 st) false).homeWrite (a + 12) x.entry false

/-- Changes a queue. -/
def State.modQueue (s : State) (q : Nat) (f : Queue → Queue) : State := s.setQueue q (f (s.queue q))

/-- The records that a queue holds (R279). -/
def Queue.held (x : Queue) : Nat := (x.tail - x.head).toNat
/-- A queue is full (R279). -/
def Queue.full (x : Queue) : Bool := decide (2 ^ x.logn ≤ x.held)
/-- The address of record i of the ring (R279). -/
def Queue.recAddr (x : Queue) (i : Nat) : Nat := x.ring + 256 * (i % 2 ^ x.logn)

/-- Enables a queue: HEAD and TAIL 0, error fields cleared (R281). -/
def Queue.enable (x : Queue) : Queue :=
  { x with st := .enabled, head := 0, tail := 0, ecause := 0, esrc := false, eidx := 0, fired := [], headRec := none, prev := none }

/-- Disables a queue: ring and fired tasks abandoned (R281). -/
def Queue.disable (x : Queue) : Queue := { x with st := .disabled, fired := [], headRec := none }

/-- The record of a refusal (R281, R425). -/
def refusalRec (c : Nat) (cause : Cause) : ErrRec := { cause := cause, sev := sevCONTAINED, scope := 1, unit := 14, die := 12, ctxn := c }

/-- A refusal puts the queue into ERROR and writes a record (R281, R288). -/
def State.refuse (s : State) (q : Nat) (cause : Cause) (esrc : Bool) (eidx : BitVec 16) : State :=
  let x := s.queue q
  (s.setQueue q { x with st := .error, ecause := cause, esrc := esrc, eidx := eidx }).writeErr (refusalRec x.ctx cause)

/-! ### Dependence counters and tasks (R284, R285) -/

/-- A counter. -/
def State.ctr (s : State) (k : Nat) : Ctr := cget {} s.ctrs k
/-- Writes a counter. -/
def State.setCtr (s : State) (k : Nat) (x : Ctr) : State := { s with ctrs := cput {} s.ctrs k x }

/-- A decrement of a counter: below zero it stays at zero and `r` is written with cause DEP_UNDERFLOW; at zero its task fires
(R260, R285). -/
def State.decCtr (s : State) (k n : Nat) (r : ErrRec) : State :=
  let x := s.ctr k
  if n = 0 then s
  else if x.value < n then (s.setCtr k { x with value := 0 }).writeErr { r with cause := cDEP_UNDERFLOW, sev := sevCONTAINED }
  else if x.value = n then
    match x.task with
    | some t => (s.setCtr k { x with value := 0, task := none }).modQueue t.queue (fun q => { q with fired := q.fired ++ [t] })
    | none => s.setCtr k { x with value := 0 }
  else s.setCtr k { x with value := x.value - n }

/-- The decrement of a completion: a counter of another context is left and DEP_RANGE is written (R284). -/
def State.decCompletion (s : State) (c k : Nat) (r : ErrRec) : State :=
  if (s.ctr k).owner = some c then s.decCtr k 1 r else s.writeErr { r with cause := cDEP_RANGE, sev := sevCONTAINED }

/-- QPUSH's append: the record at TAIL, TAIL advanced; false for a full queue (R261, R280). -/
def State.append (s : State) (q : Nat) (bs : List Byte) : State × Bool :=
  let x := s.queue q
  if x.full then (s, false)
  else ((s.homeWrite (x.recAddr x.tail.toNat) bs false).modQueue q (fun x => { x with tail := x.tail + 1 }), true)

end Sys2Proof.Machine
end

