-- ==== Sys2Proof/Machine/Control.lean ====
section
/-! DEFINITION. Control flow, traps and system (R152 to R176). -/

namespace Sys2Proof.Machine

/-! ### Moving lanes (R153 to R155) -/

/-- The signed offset of the branch form (R83). -/
def brOffset : Opnd → Int
  | .raw f => f.toInt
  | _ => 0

/-- A priority field of the branch form (R83). -/
def brPrio : Opnd → BitVec 12
  | .raw f => f.setWidth 12
  | _ => 0

/-- Where a lane goes. -/
structure Move where
  lane : Nat
  pc : Int
  prio : BitVec 12
  deriving DecidableEq, Repr

/-- Inserts each lane at its destination. -/
def Group.insertMoves (x : Group) (ms : List Move) : Group :=
  ms.foldl (fun x v => x.setFront (insertLanes x.front (BitVec.ofInt 24 v.pc) v.prio ((1#32) <<< v.lane))) x

/-- Lanes move to their destinations and the rest of the entry to the next instruction; a destination outside 0 to 2^24 − 1
raises FETCH_BOUNDS for its lanes before any lane moves (R153, R154). Lanes join an entry that stands at their destination, those of a
uniform branch too (R155, log 102). -/
def State.branch (s : State) (c : Iss) (ms : List Move) (rest : Mask) (restPrio : BitVec 12) : Except Stop State :=
  let bad := maskWhere ms (fun v => v.lane) (fun v => decide (v.pc < 0) || decide ((2 ^ 24 : Int) ≤ v.pc))
  if bad ≠ 0 then .error (.plain cFETCH_BOUNDS bad)
  else .ok (s.modGroup c.g (fun x =>
    let x := (x.setFront (removeLanes x.front c.m)).insertMoves ms
    x.setFront (insertLanes x.front (c.ent.pc + 1) restPrio rest)))

/-- A branch with UNI is uniform: `act` is empty, or `act` is the whole entry and every lane chooses one destination
(R155). -/
def uniform (e : Enc) (c : Iss) (dests : List Int) : Bool :=
  !e.uni || c.act == 0 || (c.act == c.m && dests.all (fun d => some d == dests.head?))

/-- UNIFORMITY for all of m (R155). -/
def notUniform (c : Iss) : Stop := .plain cUNIFORMITY c.m

/-- No operand needs a check. -/
def noUses (_ : State) (_ : Iss) : List Use := []

/-- The value and poison of a uniform operand (R152: U). -/
def uniRead (s : State) (c : Iss) (o : Opnd) (t : Ty) : Nat × Bool :=
  let r := s.readSrc c.x [] { o := o, ty := t } (lowLane c.act)
  (r.1, r.2.1)

/-- The checks of uniform source operands. -/
def uniUses (os : List Opnd) (_ : State) (c : Iss) : List Use := os.map (fun o => { o := o, n := 8, lanes := c.act })

/-- The scalar register that an operand names. -/
def scalIdx : Opnd → Nat
  | .scal k => k.toNat
  | _ => 0

/-- A value that capture logs and replay supplies (kind 5 of R432). -/
def State.observed (s : State) (c : Iss) (v : Nat) : State × Nat :=
  let r := s.capRead s c.g 5 c.ent.pc.toNat 8 [(lowLane c.act, v, false)]
  (r.1, (r.2.head?.map (fun p => p.2.1)).getD v)

/-- Writes a scalar destination. -/
def State.putScal (s : State) (c : Iss) (d : Opnd) (v bits : Nat) : State :=
  s.modGroup c.g (fun x => x.setScal (scalIdx d) v bits false)

/-- An instruction that does nothing if `act` is empty. -/
def ifAct (c : Iss) (s : State) (f : Except Stop State) : Except Stop State := if c.act = 0 then .ok s else f

/-! ### Branches (R156) -/

/-- NOP (R152). -/
def execNop (e : Enc) (s : State) : Host.Outcome State Fault Refusal :=
  runInstr false noUses false e s (fun s _ => .ok s)

/-- BRA (R156). -/
def execBra (e : Enc) (s : State) : Host.Outcome State Fault Refusal :=
  runInstr false noUses true e s (fun s c =>
    let t := (c.ent.pc.toNat : Int) + brOffset e.d
    if !uniform e c ((lanesOf c.act).map (fun _ => t)) then .error (notUniform c)
    else s.branch c ((lanesOf c.act).map (fun l => { lane := l, pc := t, prio := brPrio e.a }))
      (c.m &&& ~~~c.act) (brPrio e.b))

/-- BRI (R156): a target per lane from an operand-file entry. -/
def execBri (e : Enc) (s : State) : Host.Outcome State Fault Refusal :=
  let k : BitVec 3 := e.x.setWidth 3
  runInstr false (fun _ c => [{ o := .opf k, n := 4, lanes := c.act }]) true e s (fun s c =>
    let vs := (lanesOf c.act).map (fun l => (l, s.readSrc c.x [] { o := .opf k, ty := .i32 } l))
    let bad := maskWhere vs (fun v => v.1) (fun v => v.2.2.1)
    if bad ≠ 0 then .error (.plain cPOISON_CONSUMED bad)
    else
      let ts := vs.map (fun v => (v.1, (c.ent.pc.toNat : Int) + brOffset e.d + signedOf 32 v.2.1))
      if !uniform e c (ts.map (fun t => t.2)) then .error (notUniform c)
      else s.branch c (ts.map (fun t => { lane := t.1, pc := t.2, prio := brPrio e.a })) (c.m &&& ~~~c.act) (brPrio e.b))

/-- BEOS (R156): lanes at the end of a stream are taken; `.clr` clears their bits. -/
def execBeos (e : Enc) (s : State) : Host.Outcome State Fault Refusal :=
  runInstr false noUses true e s (fun s c =>
    let t := (c.ent.pc.toNat : Int) + brOffset e.d
    let tk := c.act &&& c.x.sr.eos
    if !uniform e c ((lanesOf c.act).map (fun l => if tk.getLsbD l then t else (c.ent.pc.toNat : Int) + 1)) then
      .error (notUniform c)
    else match s.branch c ((lanesOf tk).map (fun l => { lane := l, pc := t, prio := brPrio e.a })) (c.m &&& ~~~tk) (brPrio e.b) with
      | .error x => .error x
      | .ok s => .ok (if e.mod.getLsbD 0 then
          s.modGroup c.g (fun x => { x with sr := { x.sr with eos := x.sr.eos &&& ~~~tk } }) else s))

/-! ### Calls and returns (R157, R158) -/

/-- The return stack in force of a lane (R157). -/
def Group.stack (x : Group) (l : Nat) : List Ret := if x.handler then (x.lane l).hstk else (x.lane l).rstk

/-- Writes the return stack in force of a lane. -/
def Group.setStack (x : Group) (l : Nat) (k : List Ret) : Group :=
  x.modLane l (fun r => if x.handler then { r with hstk := k } else { r with rstk := k })

/-- The depth of the stack in force (R158). -/
def Group.stackLimit (x : Group) : Nat := if x.handler then 4 else 16

/-- Some lane of `act` has a full stack (R158). -/
def Iss.stackFull (c : Iss) : Bool := (lanesOf c.act).any (fun l => decide (c.x.stackLimit ≤ (c.x.stack l).length))

/-- Pushes a return entry in every lane of `act`. -/
def State.pushRet (s : State) (c : Iss) (r : Ret) : State :=
  s.modGroup c.g (fun x => (lanesOf c.act).foldl (fun x l => x.setStack l (r :: x.stack l)) x)

/-- CALL (R158): a full stack names every lane of `act` (log 103). -/
def execCall (e : Enc) (s : State) : Host.Outcome State Fault Refusal :=
  runInstr false noUses true e s (fun s c =>
    let t := (c.ent.pc.toNat : Int) + brOffset e.d
    if c.stackFull then .error (.plain cCALL_DEPTH c.act)
    else if !uniform e c ((lanesOf c.act).map (fun _ => t)) then .error (notUniform c)
    else match s.branch c ((lanesOf c.act).map (fun l => { lane := l, pc := t, prio := brPrio e.a }))
        (c.m &&& ~~~c.act) (brPrio e.b) with
      | .error x => .error x
      | .ok s => .ok (s.pushRet c { pc := c.ent.pc + 1, prio := brPrio e.b }))

/-- The priority of CALLI: its B immediate (R152). -/
def immPrio : Opnd → BitVec 12
  | .imm k => k.setWidth 12
  | _ => 0

/-- CALLI (R158). -/
def execCalli (e : Enc) (s : State) : Host.Outcome State Fault Refusal :=
  let q : Src := { o := e.a, ty := .b32 }
  runInstr false (fun _ c => [{ o := e.a, n := 4, lanes := c.act }]) true e s (fun s c =>
    let vs := (lanesOf c.act).map (fun l => (l, s.readSrc c.x [] q l))
    let bad := maskWhere vs (fun v => v.1) (fun v => v.2.2.1)
    if bad ≠ 0 then .error (.plain cPOISON_CONSUMED bad)
    else if c.stackFull then .error (.plain cCALL_DEPTH c.act)
    else if !uniform e c (vs.map (fun v => (v.2.1 : Int))) then .error (notUniform c)
    else match (s.modGroup c.g (fun x => x.skip ((vs.map (fun v => v.2.2.2)).foldl (· + ·) 0))).branch c
        (vs.map (fun v => { lane := v.1, pc := ((v.2.1 % 2 ^ 24 : Nat) : Int), prio := immPrio e.b }))
        (c.m &&& ~~~c.act) c.ent.prio with
      | .error x => .error x
      | .ok s => .ok (s.pushRet c { pc := c.ent.pc + 1, prio := c.ent.prio }))

/-- RET (R158). -/
def execRet (e : Enc) (s : State) : Host.Outcome State Fault Refusal :=
  runInstr false noUses true e s (fun s c =>
    let tops := (lanesOf c.act).map (fun l => (l, (c.x.stack l).head?))
    if tops.any (fun t => t.2.isNone) then .error (.plain cRET_EMPTY c.act)
    else
      let ms : List Move := tops.filterMap (fun t => t.2.map (fun r => { lane := t.1, pc := (r.pc.toNat : Int), prio := r.prio }))
      -- the whole top entry must agree: PC and priority
      if !uniform e c (ms.map (fun v => v.pc * 4096 + v.prio.toNat)) then .error (notUniform c)
      else match s.branch c ms (c.m &&& ~~~c.act) c.ent.prio with
        | .error x => .error x
        | .ok s => .ok (s.modGroup c.g (fun x => (lanesOf c.act).foldl (fun x l => x.setStack l (x.stack l).tail) x)))

/-! ### EXIT and refill (R159, R160, R299, R310) -/

/-- The lanes of the quads that hold a lane of a mask. -/
def quadsOf (m : Mask) : Mask :=
  maskOf ((List.range 32).filter (fun l => (List.range 4).any (fun k => m.getLsbD (l / 4 * 4 + k))))

/-- A lane takes an item at the refill point (R159). -/
def Group.refill (x : Group) (l item : Nat) : Group :=
  let x := x.modLane l (fun r => { r with item := BitVec.ofNat 32 item, age := r.age + 1, rstk := [] })
  { x with sr := { x.sr with eos := x.sr.eos &&& ~~~((1#32) <<< l) },
           ports := x.ports.map (fun p => (p.1, p.2.map (fun q =>
             { q with steps := cput 0 q.steps l 0, ahead := q.ahead.filter (fun a => a.1 != l) }))) }

/-- The lanes of `act` of an EXIT, with `taken` items from `next` on: live lanes take items in ascending order; the others
exit, to become helpers or empty; quads left with no live lane lose their helpers (R159). -/
def Group.exitLanes (x : Group) (act m : Mask) (next avail : Nat) (pc : BitVec 24) (prio : BitVec 12) (rpc : BitVec 24)
    (rprio : BitVec 12) : Group :=
  let live := lanesOf (act &&& x.live)
  let filled := live.take avail
  let fm := maskOf filled
  let x := (filled.zip (List.range filled.length)).foldl (fun x p => x.refill p.1 (next + p.2)) x
  let liveAfter := (x.live &&& ~~~act) ||| fm
  let inLiveQuad := quadsOf liveAfter
  let exiting := act &&& ~~~fm
  let toHelper := exiting &&& inLiveQuad
  -- exiting lanes and the helpers of quads with no live lane become empty
  let toEmpty := (exiting &&& ~~~inLiveQuad) ||| (x.helpers &&& ~~~inLiveQuad)
  let x := (lanesOf toHelper).foldl (fun x l => x.modLane l (fun r => { r with st := .helper, item := 0xFFFFFFFF, rstk := [] })) x
  let x := (lanesOf toEmpty).foldl (fun x l => x.modLane l (fun r => { r with st := .empty })) x
  let f := removeLanes (removeLanes x.frontier m) toEmpty
  let f := insertLanes f (pc + 1) prio (m &&& ~~~act &&& ~~~toEmpty)
  { x with frontier := insertLanes f rpc rprio (fm ||| toHelper) }

/-- EXIT (R159, R160, R299): held while a port is locked (R235) or a batch must complete first (R205). -/
def execExit (e : Enc) (s : State) : Host.Outcome State Fault Refusal :=
  runInstr false noUses true e s (fun s c =>
    if c.x.handler then .error (.plain cHANDLER_EXIT c.fault)
    else
      let sealing := (lanesOf c.real).filter (fun l => decide (0 < (c.x.lane l).openN))
      if s.portLocked c.g c.x.core || sealing.any (fun l => decide (8 ≤ (c.x.lane l).outstanding)) then .error .hold
      else
        let s := sealing.foldl (fun s l => s.seal c.g l) s
        let t := s.teamOf c.x
        let avail := t.first + t.count - t.next
        let n := min avail (lanesOf c.real).length
        let h := (s.launchOf c.x).hdr
        let items := ((lanesOf c.real).take n).zip ((List.range n).map (fun i => t.next + i))
        -- items taken are logged, and under replay come from the log (R432, R433)
        let first := s.capRead s c.g 6 c.ent.pc.toNat 8 (items.map (fun p => (p.1, p.2, false)))
        let s := first.1.modTeam c.x.team (fun q => { q with next := q.next + n })
        let start := (first.2.head?.map (fun v => v.2.1)).getD t.next
        let s := s.modGroup c.g (fun x => x.exitLanes c.act c.m start avail c.ent.pc c.ent.prio h.refill h.refPrio)
        let s := if c.real = 0 then s else s.progress c.g
        .ok (s.modGroup c.g (fun x => if x.empties = ~~~0 then { x with st := .draining } else x)))

/-! ### Yield, sleep, heartbeat (R161 to R163) -/

/-- YIELD (R161). -/
def execYield (e : Enc) (s : State) : Host.Outcome State Fault Refusal :=
  runInstr false noUses false { e with yld := e.yld || !guardNever e } s (fun s c =>
    .ok (s.modGroup c.g (fun x => { x with yieldEnd := some (s.cycle + 64) })))

/-- YIELD_MARK_EXPIRY: the mark of YIELD ends after 64 cycles (R161). -/
def execYieldMarkExpiry (g : Nat) (s : State) : Host.Outcome State Fault Refusal :=
  .next (s.modGroup g (fun x => match x.yieldEnd with
    | some t => if t ≤ s.cycle then { x with yieldEnd := none } else x
    | none => x))

/-- SLEEP (R162). -/
def execSleep (e : Enc) (s : State) : Host.Outcome State Fault Refusal :=
  runInstr false (uniUses [e.a]) false e s (fun s c => ifAct c s (
    let (n, p) := uniRead s c e.a .b32
    if p then .error (.plain cPOISON_CONSUMED c.act)
    else if n = 0 then .ok s
    else .ok (s.modGroup c.g (fun x => { x with sleepEnd := some (s.cycle + min n (2 ^ 24)) }))))

/-- SLEEP_EXPIRY: the group is no longer asleep once the count has passed (R162). -/
def execSleepExpiry (g : Nat) (s : State) : Host.Outcome State Fault Refusal :=
  .next (s.modGroup g (fun x => match x.sleepEnd with
    | some t => if t ≤ s.cycle ∧ x.st ≠ .saved then { x with sleepEnd := none } else x
    | none => x))

/-- HBEAT (R163). -/
def execHbeat (e : Enc) (s : State) : Host.Outcome State Fault Refusal :=
  runInstr false noUses false e s (fun s c => .ok (if c.real = 0 then s else s.progress c.g))

/-! ### Traps and the handler (R164 to R168) -/

/-- TRAP (R164). -/
def execTrap (e : Enc) (s : State) : Host.Outcome State Fault Refusal :=
  runInstr false noUses false e s (fun s c => ifAct c s
    (.error (.trap cTRAP c.act ((immPrio e.a).setWidth 64) 0)))

/-- BRK (R164): BREAKPOINT, or a stop for the host when the context's debug enable is 1. -/
def execBrk (e : Enc) (s : State) : Host.Outcome State Fault Refusal :=
  runInstr false noUses false e s (fun s c => ifAct c s (
    if (s.ctx c.x.ctx).desc.dbg then
      .error (.done ((s.modGroup c.g (fun x => { x with st := .stopped })).notify))
    else .error (.plain cBREAKPOINT c.act)))

/-- A suspended matrix operation of a group goes on at its failing step (R243); one whose cause is still held waits for the
return from the handler of that cause (R240, log 18). -/
def State.resumeMatrix (s : State) (g core : Nat) : State :=
  if ((s.group? g).bind (fun x => x.asyncMat)).isSome then s
  else s.modCore core (fun c => { c with mq := c.mq.map (fun o => if o.g == g then { o with suspended := false } else o) })

/-- RFT (R166, R243). -/
def execRft (e : Enc) (s : State) : Host.Outcome State Fault Refusal :=
  runInstr true noUses true e s (fun s c =>
    if c.act = 0 then .ok (s.modGroup c.g (fun x => x.moveLanes c.m (c.ent.pc + 1) c.ent.prio))
    else .ok (((s.modGroup c.g (fun x => x.returnFromTrap (e.mod.getLsbD 0))).resumeMatrix c.g c.x.core).resumeWait c.g))

/-- ENDG (R167). -/
def execEndg (e : Enc) (s : State) : Host.Outcome State Fault Refusal :=
  runInstr true noUses true e s (fun s c =>
    if c.act = 0 then .ok (s.modGroup c.g (fun x => x.moveLanes c.m (c.ent.pc + 1) c.ent.prio))
    else .ok (s.endGroup c.g))

/-! ### System registers (R169, R170) -/

/-- A write-pointer register. -/
def isWp : Opnd → Bool
  | .sys (.wp _) => true
  | _ => false

/-- A register whose reads capture logs: `%wpc` and `%step` (R432). -/
def isLogged : Opnd → Bool
  | .sys (.wp _) => true
  | .sys .step => true
  | _ => false

/-- Writes that a core's channels have delivered are not performed yet. -/
def State.undelivered (s : State) (core : Nat) : Bool := (List.range 8).any (fun k => s.unperformed (chanAgent core k))

/-- SRD (R169); of a write pointer it is an acquire: the delivered positions are performed (R204). -/
def execSrd (e : Enc) (s : State) : Host.Outcome State Fault Refusal :=
  runInstr false (opUses [] e.d (Ty.bytes e.ty)) false e s (fun s c =>
    if isWp e.a ∧ c.act ≠ 0 ∧ (s.grantUpTo (whoCore c.x.core)).undelivered c.x.core then .error .hold
    else
    let s := if isWp e.a && c.act != 0 then (s.grantUpTo (whoCore c.x.core)).acquire c.g scTeam else s
    let own := if c.act = 0 then 0 else (s.readSrc c.x [] (tySrc e e.a) (lowLane c.act)).1
    let r := if isLogged e.a && c.act != 0 then s.observed c own else (s, own)
    laneBody e.d [tySrc e e.a] (Ty.bytes e.ty) (Ty.bits e.ty) none none none
      (fun _ vs rs => { v := if isLogged e.a then r.2 else srcVal vs 0, p := false, rs := rs }) r.1 c)

/-- A destination register is privileged for writing (R69, R165). -/
def privDest : Opnd → Bool
  | .sys r => match r with
    | .tvec | .split | .tcause | .tpc | .tprio | .tmask | .tinfo => true
    | _ => false
  | _ => false

/-- A lane's rounding state after a seed (R50). -/
def seedState (seed : Word32) (l : Nat) : Word32 :=
  let v := seed ^^^ BitVec.ofNat 32 l
  if v = 0 then 0xFFFFFFFF else v

/-- Seeds the rounding states of all lanes (R50, R53). -/
def Group.reseed (x : Group) (seed : Word32) : Group :=
  let x := (List.range 32).foldl (fun x l => x.modLane l (fun r => { r with rstate := seedState seed l })) x
  { x with sr := { x.sr with seed := seed } }

/-- The effect of a write to a system register of a group (R4, R52, R53, R62, R69, R165, R268): a register that only reads
ignores it. -/
def Group.sysWrite (x : Group) (r : SysReg) (v : Word64) : Group :=
  match r with
  | .eos => { x with sr := { x.sr with eos := x.sr.eos &&& ~~~(v.setWidth 32) } }
  | .vw k => { x with rf := { x.rf with vw := cput 0 x.rf.vw k.toNat (v &&& ~~~0xF000) } }
  | .fstat => { x with sr := { x.sr with fstat := x.sr.fstat &&& ~~~(v &&& 0x1F) } }
  | .seed => x.reseed (v.setWidth 32)
  | .tvec => { x with sr := { x.sr with tvec := v &&& 0x007FFFFFFFFFF000 } }
  | .tpc => { x with sr := { x.sr with trap := { x.sr.trap with pc := v.setWidth 24 } } }
  | .tprio => { x with sr := { x.sr with trap := { x.sr.trap with prio := v.setWidth 12 } } }
  | .lane | .item | .age | .helper | .live | .cdepth | .zskip | .place | .step | .scrbase | .clubase | .prvbase | .capbase
  | .wp _ | .team | .group | .clu | .cluteam | .trange | .split | .tcause | .tmask | .tinfo => x

/-- A bit that the matrix unit set in the cycle of a write of 1 to it ends set (R4, R170). -/
def Group.hwTie (x y : Group) (cycle : Nat) (r : SysReg) : Group :=
  match x.hwSet with
  | none => y
  | some h =>
    if h.cycle ≠ cycle then y
    else match r with
      | .fstat => { y with sr := { y.sr with fstat := y.sr.fstat ||| (x.sr.fstat &&& h.fstat) } }
      | .eos => { y with sr := { y.sr with eos := y.sr.eos ||| (x.sr.eos &&& h.eos) } }
      | _ => y

/-- SWR (R170). `%split` belongs to the context (R434). -/
def execSwr (e : Enc) (s : State) : Host.Outcome State Fault Refusal :=
  runInstr (privDest e.d) (uniUses [e.a]) false e s (fun s c => ifAct c s (
    let (v, p) := uniRead s c e.a e.ty
    if p then .error (.plain cPOISON_CONSUMED c.act)
    else match e.d with
      | .sys .split => .ok (s.modCtx c.x.ctx (fun q => { q with split := BitVec.ofNat 2 v }))
      | .sys r => .ok (s.modGroup c.g (fun x => x.hwTie (x.sysWrite r (BitVec.ofNat 64 v)) s.cycle r))
      | _ => .ok s))

/-! ### Translation, replay, errors, watchdog (R171 to R174) -/

/-- TLBI (R171): the group waits for the acknowledgements. -/
def execTlbi (e : Enc) (s : State) : Host.Outcome State Fault Refusal :=
  runInstr true (uniUses [e.a, e.b]) false e s (fun s c => ifAct c s (
    let a := uniRead s c e.a .b64
    let b := uniRead s c e.b .b64
    if a.2 || b.2 then .error (.plain cPOISON_CONSUMED c.act)
    else
      let die := if e.x.toNat % 8 = 3 then some (dieOf c.x.core) else none
      let s := s.tlbi die (tlbiHit (e.mod.toNat % 4) (BitVec.ofNat 16 a.1) (b.1 % 2 ^ 55))
      .error (.done (s.waitOn c e .tlbi))))

/-- A wait of a kind ends. -/
def State.ackWait (s : State) (g : Nat) (k : WaitKind) : State :=
  s.modGroup g (fun x => match x.wait with
    | some w => if w.kind = k then x.endWait w else x
    | none => x)

/-- TLBI_ACK: every targeted unit has acknowledged (R171). -/
def execTlbiAck (g : Nat) (s : State) : Host.Outcome State Fault Refusal := .next (s.ackWait g .tlbi)

/-- RPLY (R172); poison of its operands is not looked at (log 95). -/
def execRply (e : Enc) (s : State) : Host.Outcome State Fault Refusal :=
  runInstr true (fun s c => { o := e.d, n := 8, lanes := c.act, dest := true } :: uniUses [e.a, e.b] s c) false e s
    (fun s c => ifAct c s (
      let a := (uniRead s c e.a .b64).1
      let b := (uniRead s c e.b .b64).1
      let key : ParkKey := if e.mod.getLsbD 0 then .token a else .page (BitVec.ofNat 16 a) ((b % 2 ^ 55) >>> 16)
      let r := s.reply (dieOf c.x.core) key
      .ok (r.1.resumeAll.putScal c e.d r.2 64)))

/-- The oldest record of a context's error queue, or 64 zero bytes (R173). -/
def State.oldestErr (s : State) (c : Nat) : List Byte :=
  let x := s.ctx c
  if x.errq.count = 0 then List.replicate 64 0
  else s.memBytes (x.desc.errqb + 64 * (x.errq.head % x.desc.errqn)) 64

/-- Removes the oldest record (R173, R422). -/
def ErrQ.pop (q : ErrQ) (cap : Nat) : ErrQ :=
  if q.count = 0 then q else { q with head := (q.head + 1) % cap, count := q.count - 1 }

/-- ERRD (R173). -/
def execErrd (e : Enc) (s : State) : Host.Outcome State Fault Refusal :=
  runInstr true (fun _ c => [{ o := e.d, n := 64, lanes := c.act, dest := true }]) false e s (fun s c => ifAct c s (
    match e.d with
    | .rs a =>
      let bs := s.oldestErr c.x.ctx
      let s := s.modGroup c.g (fun x => x.rswrite a.toNat 64 (leNat bs) false)
      .ok (if e.mod.getLsbD 0 then s.modCtx c.x.ctx (fun q => { q with errq := q.errq.pop q.desc.errqn }) else s)
    | _ => .ok s))

/-- The watchdog after WDSET (R174, R429, R431). -/
def Watch.set (w : Watch) (a : Nat) (clr : Bool) : Watch :=
  { w with armed := a != 0, w := 0, interval := min a (2 ^ 20) * 1024, expired := false,
           second := if clr then none else w.second }

/-- WDSET (R174). -/
def execWdset (e : Enc) (s : State) : Host.Outcome State Fault Refusal :=
  runInstr true (uniUses [e.a]) false e s (fun s c => ifAct c s (
    let (a, p) := uniRead s c e.a .b64
    if p then .error (.plain cPOISON_CONSUMED c.act)
    else .ok (s.modGroup c.g (fun x => { x with wd := x.wd.set a (e.mod.getLsbD 0) }))))

/-! ### Time and counters (R175, R176) -/

/-- TIME (R175). -/
def execTime (e : Enc) (s : State) : Host.Outcome State Fault Refusal :=
  runInstr false (fun _ c => [{ o := e.d, n := 8, lanes := c.act, dest := true }]) false e s (fun s c => ifAct c s
    (let r := s.observed c (if e.mod.getLsbD 0 then s.cycle % 2 ^ 64 else s.timebase.toNat)
     .ok (r.1.putScal c e.d r.2 64)))

/-- The counter of an index (R176): an index that the table does not list reads as zero. -/
def State.counterOf (s : State) (core i : Nat) : Nat := if i < 10 then (cget 0 (s.core core).pmc i).toNat else 0

/-- PMCRD (R176). -/
def execPmcrd (e : Enc) (s : State) : Host.Outcome State Fault Refusal :=
  runInstr false (fun s c => { o := e.d, n := 8, lanes := c.act, dest := true } :: uniUses [e.a] s c) false e s
    (fun s c => ifAct c s (
      let (a, p) := uniRead s c e.a .b64
      if p then .error (.plain cPOISON_CONSUMED c.act)
      else
        let r := s.observed c (s.counterOf c.x.core a)
        .ok (r.1.putScal c e.d r.2 64)))

end Sys2Proof.Machine
end

