-- ==== Sys2Proof/Machine/Memory.lean ====
section
/-! DEFINITION. Loads, stores, atomics, MWAIT, spill and fill (R177 to R192). -/

namespace Sys2Proof.Machine

/-! ### Scalar forms, effective addresses -/

/-- An operand that a scalar form may have (R68). -/
def uniformOpnd : Opnd → Bool
  | .nil | .scal _ | .imm _ | .wide _ => true
  | .sys r => !r.perLane
  | _ => false

/-- A memory instruction whose operands are all uniform makes one access (R68). -/
def scalarForm (e : Enc) : Bool := uniformOpnd e.d && uniformOpnd e.a && uniformOpnd e.b

/-- The lanes that make an access: the live lanes of `act`, or one for all of them in a scalar form (R68, R182). -/
def accLanes (e : Enc) (c : Iss) : List Nat := if scalarForm e then (lanesOf c.real).take 1 else lanesOf c.real

/-- A stop of a scalar form's one access stands for every live lane of `act`. -/
def Stop.widen (e : Enc) (c : Iss) : Stop → Stop
  | .trap cause m info addr => .trap cause (if scalarForm e then c.real else m) info addr
  | .portTrap k cause m addr => .portTrap k cause m addr
  | .diverge m l => .diverge m l
  | .park ks => .park (if scalarForm e then ks.map (fun q => { q with mask := c.real }) else ks)
  | .hold => .hold
  | .pause => .pause
  | .holdAnd f => .holdAnd f
  | .done s => .done s

/-- The address operand (R177: AD). -/
def adSrc (e : Enc) : Src := { o := e.a, ty := .b64 }
/-- The offset operand: its low 32 bits as i32 (R177: OF). -/
def ofSrc (e : Enc) : Src := { o := e.b, ty := .b32, raw := true }

/-- A lane's effective address, its poison, and the words skipped in reading it (R177). -/
def State.effAddr (s : State) (c : Iss) (e : Enc) (offset : Bool) (l : Nat) : Nat × Bool × Nat :=
  let a := s.readSrc c.x [] (adSrc e) l
  if offset then
    let b := s.readSrc c.x [] (ofSrc e) l
    (wrapBits 64 ((a.1 : Int) + signedOf 32 b.1), a.2.1 || b.2.1, a.2.2 + b.2.2)
  else (a.1, a.2.1, a.2.2)

/-- The checks of the address operands. -/
def addrUses (e : Enc) (offset : Bool) (c : Iss) : List Use :=
  { o := e.a, n := 8, lanes := c.act, exact := true } :: (if offset then [{ o := e.b, n := 4, lanes := c.act }] else [])

/-- The addresses of the lanes that make an access. -/
def State.effAddrs (s : State) (c : Iss) (e : Enc) (offset : Bool) (ls : List Nat) : List (Nat × Nat × Bool × Nat) :=
  ls.map (fun l => (l, s.effAddr c e offset l))

/-- The accesses of lanes, n bytes each. -/
def accsOf (eas : List (Nat × Nat × Bool × Nat)) (n : Nat) : List LaneAcc :=
  eas.map (fun q => { lane := q.1, ea := q.2.1, n := n })

/-- The lanes with a poisoned address. -/
def poisAddrs (eas : List (Nat × Nat × Bool × Nat)) : Mask := maskWhere eas (fun q => q.1) (fun q => q.2.2.1)

/-- The words skipped in reading addresses. -/
def skipsOf (eas : List (Nat × Nat × Bool × Nat)) : Nat := eas.foldl (fun n q => n + q.2.2.2) 0

/-- A load's lateness: pending when it has a window or missed the L1 (R88, R307, log 14). -/
def loadLate (e : Enc) (miss : Bool × Bool) : Option (Nat × Bool × Bool) :=
  if e.la ≠ 0 ∨ miss.1 then some (e.la.toNat, miss.1, miss.2) else none

/-- The allocation policy of an access (R86): 0 .ca, 1 .cg, 2 .cf. -/
def polOf (e : Enc) : Nat := e.mod.toNat % 4
/-- The memory scope of an access (R86). -/
def scopeOf (e : Enc) : Nat := e.x.toNat % 8
/-- An ordering field with acquire: codes 1 and 3 of MOD[3:2] (R86). -/
def acquires (e : Enc) : Bool := e.mod.getLsbD 2
/-- An ordering field with release: codes 2 and 3 of MOD[3:2] (R86). -/
def releases (e : Enc) : Bool := e.mod.getLsbD 3

/-- Reads every lane's place in ascending lane order. -/
def State.readPlaces (s : State) (x : Group) (k : AccKind) (pol : Nat) (n : Nat) (pls : List (LaneAcc × Place)) :
    State × List (Nat × Nat × Bool) :=
  pls.foldl (fun (acc : State × List (Nat × Nat × Bool)) p =>
    let (s, v, po) := acc.1.readPlace x x.agent k pol p.2 n
    (s, acc.2 ++ [(p.1.lane, v, po)])) (s, [])

/-- The results of a load: the values read, one for every lane in a scalar form, and +0 in helper lanes (R182). -/
def loadResults (e : Enc) (c : Iss) (vals : List (Nat × Nat × Bool)) : List LaneRes :=
  if isScalOp e.d then
    match vals.head? with
    | some v => [{ lane := v.1, v := v.2.1, p := v.2.2 }]
    | none => if c.act = 0 then [] else [{ lane := lowLane c.act, v := 0, p := false }]
  else
    (lanesOf c.act).map (fun l => match (if scalarForm e then vals.head? else vals.find? (fun v => v.1 == l)) with
      | some v => if c.real.getLsbD l then { lane := l, v := v.2.1, p := v.2.2 } else { lane := l, v := 0, p := false }
      | none => { lane := l, v := 0, p := false })

/-! ### LD and ST (R184, R185) -/

/-- LD (R184). -/
def execLd (e : Enc) (s : State) : Host.Outcome State Fault Refusal :=
  let n := Ty.bytes e.ty
  runInstr false (fun _ c => { o := e.d, n := n, lanes := c.act, dest := true } :: addrUses e true c) false e s (fun s c =>
    let eas := s.effAddrs c e true (accLanes e c)
    match s.checkLanes c.x .read (poisAddrs eas) n (accsOf eas n) with
    | .error st => .error (st.widen e c)
    | .ok pls =>
      let s := s.modGroup c.g (fun x => x.skip (skipsOf eas))
      let r := s.readPlaces c.x .read (polOf e) n pls
      let r := s.capRead r.1 c.g 2 c.ent.pc.toNat 8 r.2
      let s' := if acquires e && c.real != 0 then r.1.acquire c.g (s.scopeOver (scopeOf e) (pls.map (fun p => p.2))) else r.1
      s'.putResults c e.d n (Ty.bits e.ty) (loadResults e c r.2) (loadLate e (s.missOf c.x pls)))

/-- A lane's store data with its poison (R184): a predicate supplies 1 or 0. -/
def State.storeData (s : State) (c : Iss) (e : Enc) (l : Nat) : Nat × Bool × Nat :=
  let r := s.readSrc c.x [] { o := e.d, ty := e.ty } l
  (r.1 % 2 ^ Ty.bits e.ty, r.2.1, r.2.2)

/-- Whether an address lies in the copy aperture, as the first window that holds it (R178). -/
def State.inAperture (s : State) (x : Group) (ea n : Nat) : Option Nat :=
  match s.reach x ea n with
  | .aper o => some o
  | _ => none

/-- The lanes, among stores, whose check an aperture or window meets: their cause in the order of checks 4 to 6 of R180. -/
def State.apertureStop (s : State) (c : Iss) (e : Enc) (aps : List (Nat × Nat × Nat)) (bnd : List (Nat × Cause)) :
    Option Stop :=
  let bad := aps.filter (fun q => e.ty != .b64 || !apOk q.2.1)
  let good := aps.filter (fun q => e.ty == .b64 && apOk q.2.1)
  let cs := good.filterMap (fun q => (s.copyCause c.x q.2.2).map (fun k => (q.1, k)))
  -- the lanes that fail one check, with the first of its causes that a lane meets
  let hit (ks : List Cause) (l : List (Nat × Cause)) : Option Stop :=
    let l := l.filter (fun q => ks.contains q.2)
    (ks.find? (fun k => l.any (fun q => q.2 == k))).map (fun k => .plain k (maskOf (l.map (fun q => q.1))))
  firstSome id [hit [cSCR_BOUNDS, cCLU_RANGE] (bnd ++ cs),
    if bad.isEmpty then none else some (.plain cCOPY_APERTURE (maskOf (bad.map (fun q => q.1)))),
    hit [cCOPY_TPL, cCOPY_ADDR_OVF, cCOPY_OVERLAP] cs]

/-- The checks of a store whose lanes may reach the aperture (R180, R193, R196): the places of the other lanes and the copies
to issue (lane, aperture offset, data). -/
def State.checkStore (s : State) (c : Iss) (e : Enc) (pois : Mask) (n : Nat) (accs : List LaneAcc) (data : Nat → Nat) :
    Except Stop (List (LaneAcc × Place) × List (Nat × Nat × Nat)) :=
  let aps := accs.filterMap (fun a => (s.inAperture c.x a.ea n).map (fun o => (a.lane, o, data a.lane)))
  if aps.isEmpty then (s.checkLanes c.x .write pois n accs).map (fun p => (p, []))
  else if pois ≠ 0 then .error (.trap cPOISON_CONSUMED pois 0 ((accs.find? (fun a => pois.getLsbD a.lane)).map (fun a => a.ea) |>.getD 0))
  else
    let far := maskWhere accs (fun a => a.lane) (fun a => decide (2 ^ 55 ≤ a.ea))
    -- a store to the aperture is aligned to 8 bytes, whatever its type (check 3)
    let odd := maskWhere accs (fun a => a.lane) (fun a => a.ea % n != 0 || ((s.inAperture c.x a.ea n).isSome && a.ea % 8 != 0))
    if far ≠ 0 then .error (.plain cADDR_RANGE far)
    else if odd ≠ 0 then .error (.plain cMISALIGNED odd)
    else
      let bnd := accs.filterMap (fun a => match s.reach c.x a.ea n with | .bad k => some (a.lane, k) | _ => none)
      match s.apertureStop c e aps bnd with
      | some st => .error st
      | none =>
        let rest := accs.filter (fun a => (s.inAperture c.x a.ea n).isNone)
        match s.checkLanes c.x .write 0 n rest with
        | .error st => .error st
        | .ok pls => if s.chansFull c.x.core (aps.map (fun q => (q.1, q.2.1))) then .error .hold else .ok (pls, aps)

/-- ST (R184, R185), and the issue of copies by a store to the aperture (R193): a release toward the copy (R342). -/
def execSt (e : Enc) (s : State) : Host.Outcome State Fault Refusal :=
  let n := Ty.bytes e.ty
  runInstr false (fun _ c => { o := e.d, n := n, lanes := c.act } :: addrUses e true c) false e s (fun s c =>
    if c.real = 0 then .ok s
    else
      let first := s.effAddrs c e true (accLanes e c)
      let toAper := first.any (fun q => (s.inAperture c.x q.2.1 n).isSome)
      -- a store to the aperture acts for every live lane (R193)
      let ls := if toAper then lanesOf c.real else accLanes e c
      let eas := s.effAddrs c e true ls
      let dat := ls.map (fun l => (l, s.storeData c e l))
      let val (l : Nat) : Nat × Bool × Nat := ((dat.find? (fun q => q.1 == l)).map (fun q => q.2)).getD (0, false, 0)
      let pois := poisAddrs eas ||| maskWhere eas (fun q => q.1) (fun q => (s.inAperture c.x q.2.1 n).isSome && (val q.1).2.1)
      match s.checkStore c e pois n (accsOf eas n) (fun l => (val l).1) with
      | .error st => .error (if toAper then st else st.widen e c)
      | .ok (pls, aps) =>
        let s := s.modGroup c.g (fun x => x.skip (skipsOf eas + dat.foldl (fun m q => m + q.2.2.2) 0))
        let at_ := pls.map (fun p => p.2)
        -- a store to the aperture has neither ordering nor scope (R193): it is a release toward its copy (R342)
        let s1 := if releases e && !pls.isEmpty then s.release c.x (s.scopeOver (scopeOf e) at_) else s
        let s1 := if aps.isEmpty then s1 else s1.publish c.x.agent c.x.core scTeam
        if !aps.isEmpty && s1.unperformed c.x.agent then .error .pause else
        match s1.orderWrites c.x at_ with
        | .error st => .error st
        | .ok s1 =>
        let s2 := pls.foldl (fun s p => s.writePlace c.x c.x.agent .write (polOf e) p.2 n (val p.1.lane).1 (val p.1.lane).2.1) s1
        let s2 := aps.foldl (fun s q => s.enqueueCopy c.g c.x q.1 q.2.1 q.2.2) s2
        let s3 := s.capWrite s2 c.g 4 c.ent.pc.toNat 16 (eas.map (fun q => (q.1, q.2.1 + 2 ^ 64 * (val q.1).1, (val q.1).2.1)))
        .ok (s3.progress c.g))

/-! ### Packed blocks (R186) -/

/-- N of LDPK and STPK (R183). -/
def packBytes (e : Enc) : Nat := 8 * 2 ^ (e.mod.toNat / 4)

/-- The poison of each byte of a place: of its sector, or of its scratchpad word (R185). -/
def State.placePoisons (s : State) (agent core : Nat) (p : Place) (n : Nat) : List Bool :=
  match p with
  | .scr t off => let v := s.ownView agent; (List.range n).map (fun i => (v.scrRead t (off + i) 1).2)
  | .mem segs => let v := s.ownView agent; segs.flatMap (fun q => (List.range q.n).map (fun i =>
      (v.cacheRead core (q.pa + i) 1 1 (s.cohOf q.pa (bitsOf q.pte 6 5))).2))

/-- The pieces of n bytes from window byte a that lie in one register word each: (offset, length). -/
def wordPieces (a n : Nat) : List (Nat × Nat) :=
  (wordsOf a n).map (fun w =>
    let lo := max a (4 * w)
    let hi := min (a + n) (4 * w + 4)
    (lo - a, hi - lo))

/-- The bytes off .. off+n−1 of a place. -/
def Place.sub (p : Place) (off n : Nat) : Place :=
  match p with
  | .scr t o => .scr t (o + off)
  | .mem segs => .mem ((segs.foldl (fun (acc : List Seg × Nat) q =>
      let lo := max off acc.2
      let hi := min (off + n) (acc.2 + q.n)
      (if lo < hi then acc.1 ++ [{ q with va := q.va + (lo - acc.2), pa := q.pa + (lo - acc.2), n := hi - lo }] else acc.1,
       acc.2 + q.n)) ([], 0)).1)

/-- The first window byte of a lane's block (R63, R186). -/
def blockAddr (c : Iss) (d : Opnd) (l : Nat) : Nat :=
  match d with
  | .view k i => vwAddr (c.x.view k.toNat) i.toNat l
  | _ => 0

/-- The window checks of a block: the view's width asks for one byte, its bounds for all (R186). -/
def blockUse (e : Enc) (dest : Bool) (c : Iss) : Use := { o := e.d, n := packBytes e, lanes := c.act, dest := dest, block := true }

/-- LDPK (R186): per register word, the poison of the sectors it comes from (R185). -/
def execLdpk (e : Enc) (s : State) : Host.Outcome State Fault Refusal :=
  let n := packBytes e
  runInstr false (fun _ c => blockUse e true c :: addrUses e true c) false e s (fun s c =>
    let eas := s.effAddrs c e true (lanesOf c.real)
    match s.checkLanes c.x .read (poisAddrs eas) 1 (accsOf eas n) with
    | .error st => .error st
    | .ok pls =>
      let s := s.modGroup c.g (fun x => x.skip (skipsOf eas))
      let late := loadLate e (s.missOf c.x pls)
      let r0 := s.readPlaces c.x .read (polOf e) n pls
      let r := s.capRead r0.1 c.g 2 c.ent.pc.toNat n r0.2
      -- a replayed value has one poison bit a lane (R432)
      let pois := if s.replaysTeam c.x.team then r.2.map (fun v => (v.1, List.replicate n v.2.2))
        else pls.map (fun p => (p.1.lane, r0.1.placePoisons c.x.agent c.x.core p.2 n))
      let blocks := (lanesOf c.act).map (fun l =>
        ((l, ((r.2.find? (fun v => v.1 == l)).map (fun v => v.2.1)).getD 0,
          ((pois.find? (fun q => q.1 == l)).map (fun q => q.2)).getD []) : Nat × Nat × List Bool))
      let ws := blocks.flatMap (fun b => (wordPieces (blockAddr c e.d b.1) n).map (fun p =>
        RWrite.rs (blockAddr c e.d b.1 + p.1) p.2 ((b.2.1 >>> (8 * p.1)) % 2 ^ (8 * p.2)) ((b.2.2.drop p.1).take p.2 |>.any id)))
      let le := blocks.foldl (fun (t : Cells PW) b => cput {} t b.1
        { v := BitVec.ofNat 64 b.2.1, p := (if (b.2.2.take 4).any id then 1 else 0) ||| (if ((b.2.2.drop 4).take 4).any id then 2 else 0) }) []
      .ok (r.1.modGroup c.g (fun x => match late with
        | none => (ws.foldl Group.applyWrite x).shiftLast le
        | some (w, m1, m2) =>
          let x := x.shiftLast []
          { x with pend := x.pend ++ [{ window := w, writes := ws, lvals := le, lpos := some 0, missL1 := m1, missL2 := m2 }] })))

/-- STPK (R186): a poisoned register word poisons the sectors it is written into. -/
def execStpk (e : Enc) (s : State) : Host.Outcome State Fault Refusal :=
  let n := packBytes e
  runInstr false (fun _ c => blockUse e false c :: addrUses e true c) false e s (fun s c =>
    if c.real = 0 then .ok s
    else
      let eas := s.effAddrs c e true (lanesOf c.real)
      match s.checkLanes c.x .write (poisAddrs eas) 1 (accsOf eas n) with
      | .error st => .error st
      | .ok pls =>
        let dat (l : Nat) := readWords c.x.rf.win (blockAddr c e.d l) n
        let s := s.modGroup c.g (fun x => x.skip (skipsOf eas + (lanesOf c.real).foldl (fun m l => m + (dat l).2.2) 0))
        match s.orderWrites c.x (pls.map (fun p => p.2)) with
        | .error st => .error st
        | .ok s =>
        let s2 := pls.foldl (fun s p =>
          let v := (dat p.1.lane).1
          let a := blockAddr c e.d p.1.lane
          let s := s.writePlace c.x c.x.agent .write (polOf e) p.2 n v false
          (wordPieces a n).foldl (fun s q =>
            if (c.x.rf.word ((a + q.1) / 4)).p then
              s.writePlace c.x c.x.agent .write (polOf e) (p.2.sub q.1 q.2) q.2 ((v >>> (8 * q.1)) % 2 ^ (8 * q.2)) true
            else s) s) s
        let s3 := s.capWrite s2 c.g 4 c.ent.pc.toNat (8 + n) (eas.map (fun q => (q.1, q.2.1 + 2 ^ 64 * (dat q.1).1, (dat q.1).2.1)))
        .ok (s3.progress c.g))

/-- PREF (R187): checks 1, 2 and 7; a fault drops the prefetch. -/
def execPref (e : Enc) (s : State) : Host.Outcome State Fault Refusal :=
  runInstr false (fun _ c => addrUses e true c) false e s (fun s c =>
    let eas := s.effAddrs c e true (accLanes e c)
    let far := maskWhere eas (fun q => q.1) (fun q => decide (2 ^ 55 ≤ q.2.1))
    if poisAddrs eas ≠ 0 then
      .error ((Stop.trap cPOISON_CONSUMED (poisAddrs eas) 0 ((eas.find? (fun q => q.2.2.1)).map (fun q => q.2.1) |>.getD 0)).widen e c)
    else if far ≠ 0 then .error ((Stop.plain cADDR_RANGE far).widen e c)
    else
      let d := (s.ctx c.x.ctx).desc
      let outs := eas.filterMap (fun q => match s.reach c.x q.2.1 1 with
        | .virt va => some (q.1, va, s.xlate c.x.core d .pref va)
        | _ => none)
      let tier := maskWhere outs (fun o => o.1) (fun o => o.2.2 == .tier)
      if tier ≠ 0 then .error ((Stop.plain cTIER_ACCESS tier).widen e c)
      else .ok (outs.foldl (fun s o => match o.2.2 with
        | .ok pa pte level addr =>
          -- the request for a line that is promised to another die fails at once (R347): the prefetch is dropped
          if s.cohOf pa (bitsOf pte 6 5) = 0 ∧ s.promised (dieOf c.x.core) (lineOf pa) then s else
          (s.touchRead c.x.core pa 1 (polOf e) (s.cohOf pa (bitsOf pte 6 5))).useLeaf c.x.core d .pref o.2.1 pte level addr
        | _ => s) (s.modGroup c.g (fun x => x.skip (skipsOf eas)))))

/-! ### Atomics (R188, R189, R329) -/

/-- The new value of an atomic operation (R188). -/
def atomOp (t : Ty) (op old b : Nat) : Nat :=
  if Ty.isFloat t then
    match op with
    | 0 => (round t .rne 1 (sumVals .rne [valOf t old, valOf t b]).v).code
    | 1 => fpPick t false old b
    | _ => fpPick t true old b
  else
    match op with
    | 0 => wrapBits (Ty.bits t) (intOf t old + intOf t b)
    | 1 => if intOf t b < intOf t old then b else old
    | 2 => if intOf t old < intOf t b then b else old
    | 3 => old &&& b
    | 4 => old ||| b
    | _ => old ^^^ b

/-- Before an atomic reads its old value (R329): on a page of COH 00 with a narrow scope the issuing die gathers the line's tokens; a remote
atomic invalidates every copy of the line, which wakes the waits on it (R330); COH 10 takes no coherence action. -/
def State.atomPrepare (s : State) (x : Group) (scope : Nat) (p : Place) : State :=
  match p with
  | .scr _ _ => s
  | .mem segs => segs.foldl (fun (s : State) q =>
      let ln := lineOf q.pa
      match s.cohOf q.pa (bitsOf q.pte 6 5) with
      | 0 => if scope < 3 then ((s.countMiss x.core ln 0 1).modLine ln (fun z => z.gatherBy (dieOf x.core) x.core false)).makeRoom x.core ln
        else (s.noteWrite none q.pa q.n (some (dieOf x.core))).recallLine ln
      | 1 => s.flushLine ln
      | _ => s.countMiss x.core ln 2 1) s

/-- An atomic's lanes have been served in this window: a request of a lower number on the same bytes comes later (R341). -/
def State.atomServed (s : State) (core : Nat) (p : Place) (n : Nat) : State :=
  { s with served := s.served ++ (match p with
      | .scr t off => [(pointOf (some t) off, n, whoCore core)]
      | .mem segs => segs.map (fun q => (q.pa, q.n, whoCore core))) }

/-- A write to a line that a die holds with all its tokens makes it dirty there (R344). -/
def LineSt.wroteHere (x : LineSt) : LineSt := { x with dirty := x.dirty || x.owner.isSome }

/-- A requester of a higher number has been served in this window on the bytes of an atomic, which comes before it: the atomic is refused,
and is sent again in a later window (R341). -/
def State.atomLate (s : State) (core : Nat) (n : Nat) (pls : List Place) : Bool :=
  pls.any (fun p => (match p with
    | .scr t off => [(pointOf (some t) off, n)]
    | .mem segs => segs.map (fun (q : Seg) => (q.pa, q.n))).any (fun (r : Nat × Nat) =>
      s.served.any (fun z => rangesMeet z.1 z.2.1 r.1 r.2 && decide (whoCore core < z.2.2))))

/-- Writes an atomic's new value at its coherence point, indivisibly with its read (R189, R329, R341). -/
def State.atomWrite (s : State) (x : Group) (p : Place) (n v : Nat) : State :=
  let d := (s.ctx x.ctx).desc
  match p with
  | .scr t off => (s.noteWrite (some t) off n none).applyReq
      { who := whoCore x.core, agent := x.agent, scr := some t, pa := off, bytes := leBytes n v, pois := false }
  | .mem segs =>
    (segs.foldl (fun (acc : State × Nat) (q : Seg) =>
      let s := acc.1.useLeaf x.core d .atomic q.va q.pte q.level q.addr
      let bs := leBytes q.n acc.2
      (if s.cohOf q.pa (bitsOf q.pte 6 5) = 2 then s.cacheWrite x.core q.pa bs false 1 2
       else ((s.noteWrite none q.pa q.n (some (dieOf x.core))).modLine (lineOf q.pa) LineSt.wroteHere).memWrite q.pa bs false,
       acc.2 >>> (8 * q.n))) (s, v)).1

/-- The translations of an atomic that writes nothing are used as a read's: D is not set (R358). -/
def State.atomSeen (s : State) (x : Group) (p : Place) : State :=
  match p with
  | .scr _ _ => s
  | .mem segs => segs.foldl (fun (s : State) q => s.useLeaf x.core (s.ctx x.ctx).desc .read q.va q.pte q.level q.addr) s

/-- The old value of an atomic. -/
def State.atomRead (s : State) (core : Nat) (p : Place) (n : Nat) : Nat :=
  match p with
  | .scr t off => (s.scrRead t off n).1
  | .mem segs => segs.foldr (fun (q : Seg) acc =>
      leNat (s.cacheRead core q.pa q.n 1 (if s.cohOf q.pa (bitsOf q.pte 6 5) = 2 then 2 else 0)).1 + 2 ^ (8 * q.n) * acc) 0

/-- The state in which an atomic's places are read: what comes before it in the merge window is granted, and the copies of its lines are
where R329 has them. -/
def State.atomReady (s : State) (x : Group) (scope : Nat) (releasing : Bool) (pls : List (LaneAcc × Place)) : State :=
  let s := if releasing then s.release x scope else s
  pls.foldl (fun (s : State) p => s.atomPrepare x scope p.2) (s.grantUpTo (whoCore x.core))

/-- ATOM, RED, CAS and XCHG (R189): `f old b c` gives the value to write, if any. -/
def atomic (e : Enc) (s : State) (result cas : Bool) (f : Nat → Nat → Nat → Option Nat) : Host.Outcome State Fault Refusal :=
  let n := Ty.bytes e.ty
  let dst := if result then [({ o := e.d, n := n, lanes := 0, dest := true } : Use)] else []
  runInstr false (fun _ c => dst.map (fun u => { u with lanes := c.act })
      ++ (if cas then [{ o := e.d, n := n, lanes := c.act }] else [])
      ++ { o := e.b, n := n, lanes := c.act } :: addrUses e false c) false e s (fun s c =>
    let ls := accLanes e c
    let eas := s.effAddrs c e false ls
    let bs := ls.map (fun l => (l, s.readSrc c.x [] { o := e.b, ty := e.ty } l))
    let ds := ls.map (fun l => (l, if cas then s.readSrc c.x [] { o := e.d, ty := e.ty } l else (0, false, 0)))
    let at_ (t : List (Nat × Nat × Bool × Nat)) (l : Nat) : Nat := ((t.find? (fun q => q.1 == l)).map (fun q => q.2.1)).getD 0
    let pois := poisAddrs eas ||| poisAddrs bs ||| poisAddrs ds
    match s.checkLanes c.x .atomic pois n (accsOf eas n) with
    | .error st => .error (st.widen e c)
    | .ok pls =>
      let inMem := pls.any (fun p => match p.2 with | .mem _ => true | .scr _ _ => false)
      let s0 := s.modGroup c.g (fun x => x.skip (skipsOf eas + skipsOf bs + skipsOf ds))
      let scope := s.scopeOver (scopeOf e) (pls.map (fun p => p.2))
      let s1 := s0.atomReady c.x scope (releases e) pls
      -- an earlier write of the group that was refused is sent again first; so is an atomic that comes too late (R341)
      if c.real ≠ 0 ∧ (s1.unperformed c.x.agent ∨ s0.atomLate c.x.core n (pls.map (fun p => p.2))) then .error .pause
      else
        let badOld := maskWhere pls (fun p => p.1.lane) (fun p => s1.placePoison c.x.agent c.x.core p.2 n)
        if badOld ≠ 0 then
          .error ((Stop.trap cPOISON_CONSUMED badOld 0 ((eas.find? (fun q => badOld.getLsbD q.1)).map (fun q => q.2.1) |>.getD 0)).widen e c)
        else
          let r := pls.foldl (fun (acc : State × List (Nat × Nat × Bool)) p =>
            let old := acc.1.atomRead c.x.core p.2 n
            let s := match f old (at_ bs p.1.lane) (at_ ds p.1.lane) with
              | some v => acc.1.atomWrite c.x p.2 n v
              | none => acc.1.atomSeen c.x p.2
            (s.atomServed c.x.core p.2 n, acc.2 ++ [(p.1.lane, old, false)])) (s1, [])
          let r' := if result then s0.capRead r.1 c.g 3 c.ent.pc.toNat 8 r.2
            else (s0.capWrite r.1 c.g 4 c.ent.pc.toNat 16 (eas.map (fun q => (q.1, q.2.1 + 2 ^ 64 * at_ bs q.1, false))), r.2)
          let s3 := if acquires e && c.real != 0 then r'.1.acquire c.g scope else r'.1
          let s3 := if c.real = 0 then s3 else s3.progress c.g
          if result then
            s3.putResults c e.d n (Ty.bits e.ty) (loadResults e c r'.2) (loadLate e (inMem, false))
          else .ok s3)

/-- ATOM (R188, R189). -/
def execAtom (e : Enc) (s : State) : Host.Outcome State Fault Refusal :=
  atomic e s true false (fun old b _ => some (atomOp e.ty (atomOpOf e.mod e.x) old b))

/-- RED (R188, R189). -/
def execRed (e : Enc) (s : State) : Host.Outcome State Fault Refusal :=
  atomic e s false false (fun old b _ => some (atomOp e.ty (atomOpOf e.mod e.x) old b))

/-- CAS (R189). -/
def execCas (e : Enc) (s : State) : Host.Outcome State Fault Refusal :=
  atomic e s true true (fun old b c => if old = b then some c else none)

/-- XCHG (R189). -/
def execXchg (e : Enc) (s : State) : Host.Outcome State Fault Refusal :=
  atomic e s true false (fun _ b _ => some b)

/-! ### MWAIT (R190, R330) -/

/-- The value of MWAIT's access (R190), with its checks. -/
def State.mwaitRead (s : State) (c : Iss) (va n pol : Nat) : Except Stop (State × Nat × Bool × Place) :=
  match s.checkLanes c.x .read 0 n [{ lane := lowLane c.real, ea := va, n := n }] with
  | .error (.trap k _ i a) => .error (.trap k c.real i a)
  | .error (.park ks) => .error (.park (ks.map (fun q => { q with mask := c.real })))
  | .error st => .error st
  | .ok pls =>
    let p := (pls.head?.map (fun q => q.2)).getD (.mem [])
    let r := s.readPlace c.x c.x.agent .read pol p n
    .ok (r.1, r.2.1, r.2.2, p)

/-- The target of a wait: the block of a scratchpad, or the line of memory, and the one die whose writes count on a page that
is not hardware coherent or that another module holds (R190, R330). -/
def State.waitTarget (s : State) (core : Nat) : Place → Option Nat × Nat × Option Nat
  | .scr t off => (some t, off / 128, none)
  | .mem segs => match segs.head? with
    | some q => (none, lineOf q.pa, if s.cohOf q.pa (bitsOf q.pte 6 5) = 0 then none else some (dieOf core))
    | none => (none, 0, none)

/-- MWAIT (R190). -/
def execMwait (e : Enc) (s : State) : Host.Outcome State Fault Refusal :=
  let n := Ty.bytes e.ty
  runInstr false (fun s c => { o := e.d, n := n, lanes := c.act, dest := true } :: uniUses [e.a, e.b] s c) false e s (fun s c =>
    if c.real = 0 then .ok s
    else
      let l := lowLane c.real
      let a := s.readSrc c.x [] (adSrc e) l
      let b := s.readSrc c.x [] { o := e.b, ty := e.ty } l
      if a.2.1 then .error (.trap cPOISON_CONSUMED c.real 0 a.1)
      else match s.mwaitRead c a.1 n (polOf e) with
        | .error st => .error st
        | .ok (s', v, p, pl) =>
          if v = b.1 then
            let t := s'.waitTarget c.x.core pl
            .error (.done (s'.waitOn c e (.mwait (BitVec.ofNat 6 (scalIdx e.d)) a.1 n c.act e.mod (scopeOf e) (s.cycle + 65536)
              t.1 t.2.1 t.2.2 false)))
          else
            let r := s.capRead s' c.g 3 c.ent.pc.toNat 8 [(l, v, p)]
            let v := (r.2.head?).getD (l, v, p)
            let s2 := r.1.modGroup c.g (fun x => x.setScal (scalIdx e.d) v.2.1 (8 * n) v.2.2)
            .ok (if acquires e then s2.acquire c.g (s.scopeAt (scopeOf e) pl) else s2))

/-- The end of an MWAIT (R190): it reads again with its ordering and policy, for the lanes that it acts for, and writes what it finds. -/
def State.endMwait (s : State) (g : Nat) (x : Group) (w : Wait) (sd : BitVec 6) (va n : Nat) (act : Mask) (mod : BitVec 4) (scope : Nat) : State :=
  let c : Iss := { g := g, x := x, ent := { pc := w.pc, prio := w.prio, mask := w.m }, m := w.m, act := act }
  match s.mwaitRead c va n (mod.toNat % 4) with
  -- an access that waits is made again: the wait goes on until it has read
  | .error .hold => s.modGroup g (fun x => { x with wait := some w.wake })
  | .error .pause => s.modGroup g (fun x => { x with wait := some w.wake })
  | .error (.holdAnd f) => (f s).modGroup g (fun x => { x with wait := some w.wake })
  | .error st => s.unlessBusy g x (s.unlessPushing g x ((s.setGroup g { x with wait := none }).stopped c st))
  | .ok (s', v, p, pl) =>
    let r := s.capRead s' g 3 w.pc.toNat 8 [(lowLane c.real, v, p)]
    let v := (r.2.head?).getD (lowLane c.real, v, p)
    let s2 := r.1.modGroup g (fun x => (x.setScal sd.toNat v.2.1 (8 * n) v.2.2).endWait w)
    if mod.getLsbD 2 then s2.acquire g (s.scopeAt scope pl) else s2

/-- A group's MWAIT ends if a test of the wait holds. -/
def State.wakeMwait (s : State) (g : Nat) (p : Nat → Bool → Bool) : State :=
  match s.group? g with
  | none => s
  | some x =>
    match x.wait with
    | none => s
    | some w =>
      match w.kind with
      | .mwait sd va n act mod scope deadline _ _ _ woken =>
        if p deadline woken && x.canResume then s.endMwait g x w sd va n act mod scope else s
      | _ => s

/-- MWAIT_WAKE: a write to the line has reached the die's L2 (R190, R330). -/
def execMwaitWake (g : Nat) (s : State) : Host.Outcome State Fault Refusal := .next (s.wakeMwait g (fun _ woken => woken))

/-- MWAIT_TIMEOUT: 65,536 cycles have passed (R190). -/
def execMwaitTimeout (g : Nat) (s : State) : Host.Outcome State Fault Refusal :=
  .next (s.wakeMwait g (fun deadline _ => decide (deadline ≤ s.cycle)))

/-! ### Spill and fill (R75, R76, R191, R192) -/

/-- The byte of the slot that holds lane l's data (R76, R192). -/
def fillByte (fmt l : Nat) : Nat :=
  let w := spillWidth fmt
  if fmt = 0x00 then 4 * l else if l = 0 ∨ w = 0 then 0 else 4 + w * (l - 1) / 8

/-- The spill slot named by a (R75, R180): poison, then range; else the addresses of the slot and of its format byte. -/
def State.spillSlot (s : State) (c : Iss) (e : Enc) : Except Stop (Nat × Nat) :=
  let a := s.readSrc c.x [] { o := e.a, ty := .b32 } (lowLane c.real)
  let base := (s.ctx c.x.ctx).desc.prvb
  if a.2.1 then .error (.trap cPOISON_CONSUMED c.real 0 (base + 128 * a.1))
  else if 2 ^ 24 ≤ a.1 then .error (.plain cADDR_RANGE c.real)
  else .ok (base + 128 * a.1, base + 0x80000000 + a.1)

/-- One access of an instruction that acts once for its live lanes. -/
def State.checkOnce (s : State) (c : Iss) (k : AccKind) (accs : List (Nat × Nat)) : Except Stop (List Place) :=
  match s.checkLanes c.x k 0 1 (accs.map (fun a => { lane := lowLane c.real, ea := a.1, n := a.2 })) with
  | .error (.trap cause _ i a) => .error (.trap cause c.real i a)
  | .error (.park ks) => .error (.park (ks.map (fun q => { q with mask := c.real })))
  | .error st => .error st
  | .ok pls => .ok (pls.map (fun p => p.2))

/-- VSPILL (R191). -/
def execVspill (e : Enc) (s : State) : Host.Outcome State Fault Refusal :=
  runInstr false (fun s c => { o := e.d, n := 4, lanes := if c.real = 0 then 0 else ~~~0 } :: uniUses [e.a] s c) false e s (fun s c =>
    if c.real = 0 then .ok s
    else
      let ws := (List.range 32).map (fun l => s.readSrc c.x [] { o := e.d, ty := .b32 } l)
      let pois := ws.map (fun w => w.2.1)
      let (fmt, body) := spillFormat (ws.map (fun w => w.1)) (pois.any id)
      match s.spillSlot c e with
      | .error st => .error st
      | .ok (ea, fea) =>
        match s.checkOnce c .write ((if body.isEmpty then [] else [(ea, body.length)]) ++ [(fea, 1)]) with
        | .error st => .error st
        | .ok pls =>
          match s.orderWrites c.x pls with
          | .error st => .error st
          | .ok s0 =>
          let s1 := s0.modGroup c.g (fun x => x.skip ((ws.map (fun w => w.2.2)).foldl (· + ·) 0))
          let slot := (pls.head?).getD (.mem [])
          let s2 := if body.isEmpty then s1
            else if fmt = 0 then
              -- the poisoned words' sectors are written as poisoned
              (List.range 4).foldl (fun s k => s.writePlace c.x c.x.agent .write (polOf e) (slot.sub (32 * k) 32) 32
                (leNat ((body.drop (32 * k)).take 32)) (((pois.drop (8 * k)).take 8).any id)) s1
            else s1.writePlace c.x c.x.agent .write (polOf e) slot body.length (leNat body) false
          let s3 := s2.writePlace c.x c.x.agent .write (polOf e) ((pls.getLast?).getD (.mem [])) 1 fmt false
          let s4 := s1.capWrite s3 c.g 4 c.ent.pc.toNat (16 + 128) [(lowLane c.real, ea + 2 ^ 64 * fmt + 2 ^ 128 * leNat body, pois.any id)]
          .ok (s4.progress c.g))

/-- The lowest poisoned byte of a slot that a lane's value comes from: of the base's sector, which every difference is added to, else of its own
(R421). -/
def slotOrigin (base : Bool) (ps : List Bool) (own : Nat) : Option Nat :=
  let first (b : Nat) : Option Nat := ((List.range 32).find? (fun i => (ps[b / 32 * 32 + i]?).getD false)).map (fun i => b / 32 * 32 + i)
  if base then first 0 else first own

/-- VFILL (R192): the format byte first, then the bytes it names. -/
def execVfill (e : Enc) (s : State) : Host.Outcome State Fault Refusal :=
  runInstr false (fun s c => { o := e.d, n := 4, lanes := c.act, dest := true } :: uniUses [e.a] s c) false e s (fun s c =>
    let zeros (s : State) := s.putResults c e.d 4 32 ((lanesOf c.act).map (fun l => { lane := l, v := 0, p := false })) (loadLate e (false, false))
    if c.real = 0 then zeros s
    else match s.spillSlot c e with
      | .error st => .error st
      | .ok (ea, fea) =>
        match s.checkOnce c .read [(fea, 1)] with
        | .error st => .error st
        | .ok fp =>
          let rf := s.readPlace c.x c.x.agent .read (polOf e) ((fp.head?).getD (.mem [])) 1
          if rf.2.2 then .error (.trap cPOISON_CONSUMED c.real 0 fea)
          else match spillLen rf.2.1 with
            | none => .error (.plain cSPILL_FORMAT c.real)
            | some n =>
              match (if n = 0 then .ok [] else s.checkOnce c .read [(ea, n)]) with
              | .error st => .error st
              | .ok bp =>
                let slot := (bp.head?).getD (.mem [])
                let rb := if n = 0 then (rf.1, 0, false) else rf.1.readPlace c.x c.x.agent .read (polOf e) slot n
                let ps := rb.1.placePoisons c.x.agent c.x.core slot n
                let secPois (b : Nat) : Bool := ((ps.drop (b / 32 * 32)).take 32).any id
                let vals := (lanesOf c.real).map (fun l =>
                  (l, fillWord rf.2.1 rb.2.1 l,
                   n != 0 && (secPois (fillByte rf.2.1 l) || (spillWidth rf.2.1 != 0 && secPois 0))))
                let miss := s.missOf c.x (bp.map (fun p => ({ lane := 0, ea := 0, n := n }, p)))
                -- the delivery to the highest lane that received poison, and its lowest sector (R421)
                let from_ := ((vals.filter (fun v => v.2.2)).getLast?).bind (fun v =>
                  slotOrigin (spillWidth rf.2.1 != 0 && secPois 0) ps (fillByte rf.2.1 v.1))
                let t := match from_ with
                  | some b => rb.1.deliverPoison c.x ((s.ownView c.x.agent).originOf c.x.core (polOf e) (slot.sub b 1) 1)
                  | none => rb.1
                let r := s.capRead t c.g 2 c.ent.pc.toNat 8 vals
                r.1.putResults c e.d 4 32 (loadResults e c r.2) (loadLate e miss))

end Sys2Proof.Machine
end

