-- ==== Sys2Proof/Machine/CopyStream.lean ====
section
/-! DEFINITION. Copy templates, batches and stream ports: CTPL to SPREL (R199, R205 to R216), and the engines' read-ahead
(R213). -/

namespace Sys2Proof.Machine

/-! ### CTPL (R199) -/

/-- Writes a template into the context's table, in sectors that carry the poison of the register words. -/
def State.writeTemplate (s : State) (x : Group) (i a : Nat) : State :=
  let pa := (s.ctx x.ctx).desc.tplb + 256 * i
  let s := (List.range 8).foldl (fun s k =>
    let r := readWords x.rf.win (a + 32 * k) 32
    s.homeWrite (pa + 32 * k) (leBytes 32 r.1) r.2.1) s
  s.modCtx x.ctx (fun c => if c.tplWritten.contains i then c else { c with tplWritten := c.tplWritten ++ [i] })

/-- The window address of a `rs[x]` operand. -/
def rsAddr : Opnd → Nat
  | .rs a => a.toNat
  | _ => 0

/-- CTPL (R199): the template is written at issue (log 105) and the group waits until it is visible. -/
def execCtpl (e : Enc) (s : State) : Host.Outcome State Fault Refusal :=
  runInstr false (fun s c => { o := e.b, n := 256, lanes := c.act } :: uniUses [e.a] s c) false e s (fun s c =>
    if c.real = 0 then .ok s
    else
      let i := (uniRead s c e.a .b64).1
      let r := readWords c.x.rf.win (rsAddr e.b) 256
      if 4096 ≤ i ∨ tpRefused r.1 then .error (.plain cCOPY_TPL c.real)
      else
        let s := s.modGroup c.g (fun x => x.skip r.2.2)
        .error (.done ((s.writeTemplate c.x i (rsAddr e.b)).waitOn c e .template)))

/-- TEMPLATE_VISIBLE: CTPL completes (R199). -/
def execTemplateVisible (g : Nat) (s : State) : Host.Outcome State Fault Refusal := .next (s.ackWait g .template)

/-! ### Batches (R205 to R207) -/

/-- BSEAL (R205). -/
def execBseal (e : Enc) (s : State) : Host.Outcome State Fault Refusal :=
  runInstr false (opUses [] e.d 4) false e s (fun s c =>
    if (lanesOf c.real).any (fun l => decide (8 ≤ (c.x.lane l).outstanding)) then .error .hold
    else
      let res := (computeLanes e.d c.act).map (fun l =>
        let l' := if isScalOp e.d then (lanesOf c.real).getLast?.getD l else l
        ({ lane := l, v := if c.real.getLsbD l' then (c.x.lane l').bctr.toNat else 0, p := false } : LaneRes))
      let s := (lanesOf c.real).foldl (fun s l => s.seal c.g l) s
      s.putResults c e.d 4 32 res none)

/-- A lane's batch operand: its number modulo 16 (R206). -/
def State.batchOf (s : State) (c : Iss) (e : Enc) (l : Nat) : Nat := (s.readSrc c.x [] { o := e.a, ty := .b32 } l).1 % 16

/-- The words skipped in reading the batch operands of lanes (R61). -/
def State.batchSkips (s : State) (c : Iss) (e : Enc) : Nat :=
  (lanesOf c.real).foldl (fun n l => n + (s.readSrc c.x [] { o := e.a, ty := .b32 } l).2.2) 0

/-- BWAIT (R206). -/
def execBwait (e : Enc) (s : State) : Host.Outcome State Fault Refusal :=
  runInstr false (fun _ c => [{ o := e.a, n := 4, lanes := c.act }]) false e s (fun s c =>
    let waits (l : Nat) : Bool :=
      if e.mod.getLsbD 0 then (c.x.lane l).outstanding != 0 else (c.x.lane l).bout.getLsbD (s.batchOf c e l)
    if (lanesOf c.real).any waits then .error .hold
    else .ok (if e.mod.getLsbD 0 then s else s.modGroup c.g (fun x => x.skip (s.batchSkips c e))))

/-- BTEST (R207): its bits are results that capture logs (R432). -/
def execBtest (e : Enc) (s : State) : Host.Outcome State Fault Refusal :=
  runInstr false (fun _ c => [{ o := e.a, n := 4, lanes := c.act }]) false e s (fun s c =>
    let test (l : Nat) : Bool :=
      let r := c.x.lane l
      let b := s.batchOf c e l
      !r.bout.getLsbD b && (!e.mod.getLsbD 0 || r.bfail.getLsbD b)
    let s := s.modGroup c.g (fun x => x.skip (s.batchSkips c e))
    let r := s.capRead s c.g 5 c.ent.pc.toNat 8 ((lanesOf c.real).map (fun l => (l, if test l then 1 else 0, false)))
    let v := maskWhere r.2 (fun q => q.1) (fun q => q.2.1 != 0)
    .ok (r.1.modGroup c.g (fun x => x.setPred (predIdxOf e.d).toNat c.act v)))

/-! ### Stream ports (R208 to R216) -/

/-- The port that an operand names. -/
def portIdx : Opnd → Nat
  | .port k => k.toNat
  | _ => 0

/-- The pushes of a group's ports are performed (R215); the core's pending requests are granted with them (R341). -/
def State.pushesDone (s : State) (x : Group) : State := s.grantUpTo (whoCore x.core)

/-- Unbinds a port whose pushes are performed: read-ahead discarded, engine freed, counters discarded (R215). -/
def State.releasePort (s : State) (g k : Nat) : State :=
  (s.modGroup g (fun x => { x with ports := cput none x.ports k none })).unholdAll

/-- Discards the read-ahead of a port (R213). -/
def Group.discardAhead (x : Group) (k : Nat) : Group :=
  { x with ports := cput none x.ports k ((x.port? k).map (fun p => { p with ahead := [] })) }

/-- SPBIND (R210): the checks in their order; a bound port is released first; without a free engine of the core's 64 the group
waits. -/
def execSpbind (e : Enc) (s : State) : Host.Outcome State Fault Refusal :=
  runInstr false (uniUses [e.a]) false e s (fun s c => ifAct c s (
    let k := portIdx e.d
    let (a, p) := uniRead s c e.a .b64
    if p then .error (.plain cPOISON_CONSUMED c.act)
    else if s.scratchOf c.x ≤ a then .error (.plain cSCR_BOUNDS c.act)
    else if a % 64 ≠ 0 then .error (.plain cSTREAM_DESC c.act)
    else
      let r := (s.ownView c.x.agent).scrRead c.x.team a 64
      if r.2 then .error (.plain cPOISON_CONSUMED c.act)
      else if sdRefused r.1 then .error (.plain cSTREAM_DESC c.act)
      else
        let bound := (c.x.port? k).isSome
        let s := if bound then (s.pushesDone c.x).releasePort c.g k else s
        if bound ∧ s.unperformed c.x.agent then .error .pause
        else if 64 ≤ s.enginesUsed c.x.core then .error .hold
        else .ok (s.modGroup c.g (fun x => { x with
          ports := cput none x.ports k (some { desc := leBytes 64 r.1, dpois := false, steps := [], ahead := [] }) }))))

/-- SPSEEK (R215). -/
def execSpseek (e : Enc) (s : State) : Host.Outcome State Fault Refusal :=
  runInstr false (fun _ c => [{ o := e.a, n := 4, lanes := c.act }]) false e s (fun s c => ifAct c s (
    let k := portIdx e.d
    match c.x.port? k with
    | none => .error (.plain cSTREAM_UNBOUND c.act)
    | some p =>
      let len := sdLength (leNat p.desc)
      let vs := (lanesOf c.real).map (fun l => (l, s.readSrc c.x [] { o := e.a, ty := .b32 } l))
      let steps := vs.foldl (fun (t : Cells Nat) v => cput 0 t v.1 (min v.2.1 len)) p.steps
      .ok (s.modGroup c.g (fun x => { x.skip ((vs.map (fun v => v.2.2.2)).foldl (· + ·) 0) with
        ports := cput none x.ports k (some { p with steps := steps, ahead := [] }) }))))

/-- SPDRN (R215): every push of a writing port is performed; the read-ahead of a reading one is discarded. -/
def execSpdrn (e : Enc) (s : State) : Host.Outcome State Fault Refusal :=
  runInstr false noUses false e s (fun s c => ifAct c s (
    let k := portIdx e.d
    match c.x.port? k with
    | none => .error (.plain cSTREAM_UNBOUND c.act)
    | some p =>
      if (leNat p.desc).testBit 453 then
        let s := s.pushesDone c.x
        if s.unperformed c.x.agent then .error .pause else .ok s
      else .ok (s.modGroup c.g (fun x => x.discardAhead k))))

/-- SPREL (R215). -/
def execSprel (e : Enc) (s : State) : Host.Outcome State Fault Refusal :=
  runInstr false noUses false e s (fun s c => ifAct c s (
    let k := portIdx e.d
    match c.x.port? k with
    | none => .error (.plain cSTREAM_UNBOUND c.act)
    | some _ =>
      let s := s.pushesDone c.x
      if s.unperformed c.x.agent then .error .pause else .ok (s.releasePort c.g k)))

/-- The next element of a lane's pattern that the engine has not read yet. -/
def Port.nextAhead (p : Port) (lane : Nat) : Nat :=
  p.ahead.foldl (fun n a => if a.1 = lane then max n (a.2.1 + 1) else n) (cget 0 p.steps lane)

/-- STREAM_READ_AHEAD: an engine bound for reading reads a live lane's next element (R213). A fault is held until a pop needs
the element, so nothing is read then. -/
def execStreamReadAhead (g : Nat) (port : BitVec 4) (lane : Nat) (s : State) : Host.Outcome State Fault Refusal :=
  .next (match s.group? g with
    | none => s
    | some x =>
      match x.port? port.toNat with
      | none => s
      | some p =>
        let v := leNat p.desc
        let st := p.nextAhead lane
        let a := sdAddr v (x.lane lane).item.toNat st
        if x.slot.isNone ∨ x.engineWait ∨ v.testBit 453 ∨ (x.lane lane).st ≠ .live ∨ sdLength v ≤ st ∨ a < 0 ∨ (2 ^ 55 : Int) ≤ a then s
        else match s.checkLanes x .pop 0 1 [{ lane := lane, ea := a.toNat, n := sdSize v }] with
          | .error _ => s
          | .ok pls =>
            let r := s.readPlace { x with slot := none } x.agent .pop (sdPol v) ((pls.head?.map (fun q => q.2)).getD (.mem [])) (sdSize v)
            r.1.modGroup g (fun x => { x with
              ports := cput none x.ports port.toNat (some { p with ahead := p.ahead ++ [(lane, st, r.2.1, r.2.2)] }) }))

end Sys2Proof.Machine
end

