-- ==== Sys2Proof/Machine/Delivery.lean ====
section
/-! DEFINITION. Copy delivery and completion (R195, R197, R198, R200 to R203), the write-back queues (R382, R383, R402, R403),
and the erasure groups' parity (R405, R406). -/

namespace Sys2Proof.Machine

/-! ### The storage-class tier and its queues (R382, R383) -/

/-- The memory die of an SCM physical address (R382). -/
def scmDie (pa : Nat) : Nat := bitsOf pa 15 12 / 4

/-- The entries that all queues hold, in acceptance order within each die. -/
def State.wbEntries (s : State) : List WbEnt := s.wbqs.flatMap (fun p => p.2)

/-- A sector of the tier reads as poisoned: as it will once the queued entries have drained in their order (R185, R383). -/
def State.scmPoison (s : State) (sec : Nat) : Bool :=
  s.wbEntries.foldl (fun (p : Bool) e =>
    if e.par || !rangesMeet e.pa e.bytes.length (32 * sec) 32 then p
    else if e.pois then true
    else if e.pa ≤ 32 * sec ∧ 32 * sec + 32 ≤ e.pa + e.bytes.length then false else p) (s.memPoison (32 * sec) 1)

/-- A byte of the tier with its sector's poison: of the last entry that holds it, else of the tier (R383). -/
def State.scmByte (s : State) (a : Nat) : Byte × Bool :=
  (s.wbEntries.foldl (fun (b : Byte) e =>
    if !e.par && decide (e.pa ≤ a) && decide (a < e.pa + e.bytes.length) then (e.bytes[a - e.pa]?).getD 0 else b) (cget 0 s.mem a),
   s.scmPoison (a / 32))

/-- The pieces of n bytes at an SCM address, split at 128-byte boundaries (R383). -/
def scmPieces (pa n : Nat) : List (Nat × Nat) :=
  let first := min n (128 - pa % 128)
  if first = n then [(pa, n)] else [(pa, first), (pa + first, n - first)]

/-! ### Parity (R405, R406) -/

/-- The logical module at a position of this module's erasure group (R405). -/
def State.egrpAt (s : State) (p : Nat) : Nat :=
  if p < 5 then bitsOf s.host.egrp0.toNat (9 * p + 8) (9 * p) else bitsOf s.host.egrp1.toNat (9 * (p - 5) + 8) (9 * (p - 5))

/-- The position of a logical module in the group, if it is a member. -/
def State.egrpPos (s : State) (m : Nat) : Option Nat :=
  if s.host.egrp0.getLsbD 63 then (List.range 10).find? (fun p => s.egrpAt p == m) else none

/-- The stripe of the k-th data chunk of position p (R406). -/
def stripeOf (p k : Nat) : Nat :=
  10 * (k / 8) + ((((List.range 10).filter (fun r => r != p && r != (p + 9) % 10))[k % 8]?).getD 0)

/-- The data positions of a stripe in ascending order (R406). -/
def dataPositions (t : Nat) : List Nat := (List.range 10).filter (fun p => p != t % 10 && p != (t + 1) % 10)

/-- The number of the chunk in the parity partition of a position that holds its share of a stripe (R406). -/
def parityChunk (p t : Nat) : Nat :=
  2 * (t / 10) + ((((List.range 10).filter (fun r => r == p || (r + 1) % 10 == p)).takeWhile (fun r => r != t % 10)).length)

/-- Multiplication by 2 over GF(2^8) with 0x11D (R406). -/
def gfDouble (b : Byte) : Byte := if b.getLsbD 7 then (b <<< 1) ^^^ 0x1D else b <<< 1

/-- Multiplication by 2^i. -/
def gfShift : Nat → Byte → Byte
  | 0, b => b
  | i + 1, b => gfDouble (gfShift i b)

/-- The key of a byte of a module's parity or manifest partition. -/
def partKey (m off : Nat) : Nat := m * 2 ^ 40 + off

/-- Adds bytes to a parity partition. -/
def State.parityAdd (s : State) (k : Nat) (bs : List Byte) : State :=
  { s with parity := cputs 0 s.parity k (((cgets 0 s.parity k bs.length).zip bs).map (fun z => z.1 ^^^ z.2)) }

/-- The memory die of a place in the parity partition (log 98). -/
def parDie (k : Nat) : Nat := scmDie (k % 2 ^ 40)

/-- The parity deltas of an entry for a position of the group: the holder, the place in its parity partition, the bytes to add (R402, R406). -/
def State.deltasOf (s : State) (e : WbEnt) : List (Nat × Nat × List Byte) :=
  match s.egrpPos (e.pa >>> 43) with
  | none => []
  | some p =>
    let off := e.pa % 2 ^ 42
    let t := stripeOf p (off / 65536)
    let i := ((dataPositions t).takeWhile (fun q => q != p)).length
    let ds := (List.range e.bytes.length).map (fun j => (s.scmByte (e.pa + j)).1 ^^^ (e.bytes[j]?).getD 0)
    let at_ (q : Nat) : Nat := partKey (s.egrpAt q) (65536 * parityChunk q t + off % 65536)
    [(s.egrpAt (t % 10), at_ (t % 10), ds), (s.egrpAt ((t + 1) % 10), at_ ((t + 1) % 10), ds.map (gfShift i))]

/-- An entry enters the queue of a memory die. -/
def State.enqueueWb (s : State) (die : Nat) (e : WbEnt) : State := { s with wbqs := cput [] s.wbqs die (cget [] s.wbqs die ++ [e]) }

/-- A delta is written into its holder's queue: this module's own, or that of another module, whose parity holds it from then on (R402). -/
def State.putDelta (s : State) (d : Nat × Nat × List Byte) : State :=
  if d.1 = s.modnum.toNat then s.enqueueWb (parDie d.2.1) { pa := d.2.1, bytes := d.2.2, pois := false, par := true }
  else s.parityAdd d.2.1 d.2.2

/-- An entry is accepted: deltas first, then the entry into its die's queue; the tier of another module takes it there
(R402). -/
def State.accept (s : State) (e : WbEnt) : State :=
  let s := (s.deltasOf e).foldl State.putDelta s
  if e.pa >>> 43 = s.modnum.toNat then s.enqueueWb (scmDie e.pa) e else s.memWrite e.pa e.bytes e.pois

/-- An entry drains to its channel. -/
def State.drainEntry (s : State) (e : WbEnt) : State :=
  if e.par then s.parityAdd e.pa e.bytes else s.memWrite e.pa e.bytes e.pois

/-- A queue can accept an entry: it has room, the supply is up, and while the hold-up store recharges, the energy held can
drain what it holds: the store's level is an input (R383, R404). -/
def State.canAccept (s : State) (die : Nat) : Bool :=
  !s.power.failed && decide ((cget [] s.wbqs die).length < 131072) && (s.power.full || (cget [] s.wbqs die).isEmpty)

/-- The dies of this module whose queues take an entry at an address, its deltas included (R383, R402). -/
def State.wbDies (s : State) (pa : Nat) : List Nat :=
  (if pa >>> 43 = s.modnum.toNat then [scmDie pa] else [])
    ++ ((s.deltasOf { pa := pa, bytes := [0], pois := false }).filter (fun d => d.1 == s.modnum.toNat)).map (fun d => parDie d.2.1)

/-- The queues have room for entries at some addresses, all of them together (R383, R404). -/
def State.roomFor (s : State) (pas : List Nat) : Bool :=
  let ds := pas.flatMap s.wbDies
  (List.range 4).all (fun d =>
    let n := (ds.filter (fun k => k == d)).length
    n == 0 || (s.canAccept d && decide ((cget [] s.wbqs d).length + n ≤ 131072)))

/-- A byte of the tier lies in a chunk of a lost module that still waits to be rebuilt on its spare (R416). -/
def State.unbuilt (s : State) (pa : Nat) : Bool :=
  let m := pa >>> 43
  if pa.testBit 42 && decide (7 ≤ s.recov.stage) && s.recov.lost.contains m then
    match s.egrpPos m with
    | some p => !s.recov.rebuilt.contains (m, stripeOf p (pa % 2 ^ 42 / 65536))
    | none => false
  else false

/-- The parity holders of a byte of the program partition of a module of this module's group (R402, R406). -/
def State.holdersOf (s : State) (pa : Nat) : List Nat :=
  match s.egrpPos (pa >>> 43) with
  | some p => let t := stripeOf p (pa % 2 ^ 42 / 65536); [s.egrpAt (t % 10), s.egrpAt ((t + 1) % 10)]
  | none => []

/-- The deltas of an entry cannot be written into a holder's queue yet: no route leads to it, or its share of the stripe waits to be rebuilt on
the spare (R402, R416). -/
def State.deltasWait (s : State) (pa : Nat) : Bool :=
  (s.holdersOf pa).any (fun h => (h != s.modnum.toNat && !s.reaches (s.physMod h))
    || (decide (7 ≤ s.recov.stage) && s.recov.lost.contains h && (match s.egrpPos (pa >>> 43) with
      | some p => !s.recov.rebuilt.contains (h, stripeOf p (pa % 2 ^ 42 / 65536))
      | none => false)))

/-! ### Where an element of a copy lies -/

/-- What an access of a copy meets: a place, a failure with the address that an error record names, or a wait under keys
(level of the absent entry or 0, tag, address), or modules to which its requests are held (R400), or lines
whose tokens are promised to another die (R347). -/
inductive CopyAt where
  | at (p : Place)
  | bad (c : Cause) (va : Nat)
  | wait (ks : List (Nat × Nat × Nat))
  | noRoute (ms : List Nat)
  | tokens (ls : List Nat)

/-- An access of a copy that a group issued, through the TLB of the channel's core (R178, R196, R202, R361). -/
def State.copyPlace (s : State) (x : Group) (c : Nat) (k : AccKind) (ea n : Nat) : CopyAt :=
  match s.reach x ea n with
  | .aper _ => .bad cCOPY_APERTURE ea
  | .bad c => .bad c ea
  | .scr t o => if k.scm then .bad cTIER_ACCESS ea else .at (.scr t o)
  | .virt va =>
    let outs := (pagePieces va n).map (fun p => (p.1, p.2, s.xlate x.core (s.ctx x.ctx).desc k p.1))
    match firstSome (fun (t : Cause × (XOut → Bool)) => (outs.find? (fun o => t.2 o.2.2)).map (fun _ => CopyAt.bad t.1 ea)) xTraps with
    | some b => b
    | none =>
      let ks := outs.filterMap (fun o => o.2.2.parks.map (fun level => (level, o.1 >>> lvlShift (max level 1), o.1)))
      let ms := (outs.filterMap (fun o => match o.2.2 with | .ok pa _ _ _ => some (pa >>> 43) | _ => none)).eraseDups.filter
        (fun m => s.pathHeld (chanAgent x.core c) m)
      -- a chunk of a lost module is decoded first (R416); a link that carries nothing is waited for (R386)
      if ks.isEmpty && outs.any (fun o => match o.2.2 with | .ok pa _ _ _ => s.unbuilt pa || s.linkBlocked x.core pa | _ => false) then .noRoute []
      -- tokens promised to another die: the request is sent again (R347)
      else
      let ws := if k.posts then [] else s.awaitedLines x.core { acc := { lane := 0, ea := ea, n := n }, outs := outs }
      if ks.isEmpty && !ws.isEmpty then .tokens ws
      else if ks.isEmpty && !ms.isEmpty then .noRoute ms
      else if ks.isEmpty then .at (.mem (outs.map (fun o => match o.2.2 with
        | .ok pa pte level addr => { va := o.1, n := o.2.1, pa := pa, pte := pte, level := level, addr := addr }
        | _ => { va := o.1, n := 0, pa := 0, pte := 0, level := 0, addr := noEntry })))
      else .wait ks

/-- Reads n bytes for a copy: of the scratchpad as it stood at the start if there is such an image (R197), of the tier with
its queued entries (R383), else of memory as it stands (R197, log 105). -/
def State.copyRead (s : State) (x : Group) (c : Nat) (snap : Option (Cells WP)) (k : AccKind) (p : Place) (n : Nat) : State × Nat × Bool :=
  match p, snap with
  | .scr _ off, some t => let r := readWords t off n; (s, r.1, r.2.1)
  | .mem segs, _ =>
    if k.scm then
      let bs := segs.flatMap (fun q => (List.range q.n).map (fun i => s.scmByte (q.pa + i)))
      (segs.foldl (fun s q => s.useLeaf x.core (s.ctx x.ctx).desc k q.va q.pte q.level q.addr) s,
       leNat (bs.map (fun b => b.1)), bs.any (fun b => b.2))
    else s.readPlace x (chanAgent x.core c) k 1 p n
  | p, _ => s.readPlace x (chanAgent x.core c) k 1 p n

/-! ### The copy in service -/

/-- Rewrites the copy in service. -/
def State.setHead (s : State) (core c : Nat) (y : Copy) : State := s.modChan core c (fun ch => { ch with q := y :: ch.q.tail })

/-- The sides of a copy. -/
def Copy.src (y : Copy) : Side := srcSide (leNat y.tpl) y.sshift
/-- The destination side. -/
def Copy.dst (y : Copy) : Side := dstSide (leNat y.tpl) y.dshift
/-- All positions are delivered or dropped. -/
def Copy.allDone (y : Copy) : Bool := y.pending.isEmpty && decide (tpPositions (leNat y.tpl) ≤ y.pos)

/-- A copy fails (R202): one COPY_FAULT record; PSYNC learns of a persist-class failure (R258). -/
def State.failCopy (s : State) (core c : Nat) (x : Group) (y : Copy) (cause : Cause) (va : Nat) : State :=
  let r := s.groupRec x cCOPY_FAULT ((1#32) <<< y.lane) 0
  let s := ((s.critOver cause).setHead core c { y with fail := some (cause, va), pending := [] }).writeErr
    { r with sev := sevCONTAINED, unit := 6, scause := cause, addr := va, die := dieOf core, gcore := s.gcore core }
  let s := if (leNat y.tpl).testBit 261 then s.modGroup y.g (fun g => g.modLane y.lane (fun r => { r with psf := true })) else s
  s.unholdAll

/-- Registers the channel under a key and writes the record of an absent entry; a second translation that no longer meets the
outcome takes the registration back (R363, R367). Whether it stays. -/
def State.copyRegister (s : State) (core c : Nat) (x : Group) (y : Copy) (k : AccKind) (q : Nat × Nat × Nat) : State × Bool :=
  let d := (s.ctx x.ctx).desc
  let r := if q.1 = 0 then s.register (dieOf core) (.page d.asid q.2.1) (.chan core c)
    else s.absentFault (dieOf core) d.asid
      { va := q.2.2, level := q.1, kind := k.code, ctx := x.ctx, gcore := s.gcore x.core, group := x.num,
        mask := (1#32) <<< y.lane, copy := some (c, y.tplIdx, y.pos) } (.chan core c)
  if (r.1.xlate core d k q.2.2).parks = some q.1 then (r.1, true) else (r.1.withdraw (dieOf core) r.2 (.chan core c), false)

/-- The channel waits at a position under page or table keys (R200, R361 to R367); with no registration left it tries the position
again. -/
def State.copyWait (s : State) (core c : Nat) (x : Group) (y : Copy) (k : AccKind) (ks : List (Nat × Nat × Nat)) : State :=
  let r := ks.foldl (fun (acc : State × Bool) q => let t := acc.1.copyRegister core c x y k q; (t.1, acc.2 || t.2)) (s, false)
  r.1.setHead core c { y with waiting := r.2 }

/-- The channel's requests to modules without a route are held; the position is tried again (R400). -/
def State.copyHeld (s : State) (core c : Nat) (x : Group) (ms : List Nat) : State :=
  ms.foldl (fun (s : State) m => s.holdPath (chanAgent core c) m { s.groupRec x cPATH_LOST 0 0 with unit := 6, die := dieOf core }) s

/-- The channel's request for tokens fails; the position is tried again (R347). -/
def State.copyTokens (s : State) (core c : Nat) (ls : List Nat) : State :=
  ls.foldl (fun (s : State) ln => s.tokenFail (dieOf core) (chanAgent core c) ln) s

/-- A copy starts (R203): SERIAL counts it, LEN is 0; a copy within one scratchpad keeps its image (R197). -/
def State.startCopy (s : State) (core c : Nat) (x : Group) (y : Copy) : State × Copy :=
  let lo (z : Side) : Option (Nat × Nat) := (z.span (tpEsize (leNat y.tpl))).bind (fun q => s.scrPlace x q.1.toNat)
  let snap := match lo y.src, lo y.dst with
    | some (t, _), some (t', _) => if t = t' then (s.team? t).map (fun q => q.scr) else none
    | _, _ => none
  let y := { y with started := true, snap := snap }
  ((s.modChan core c (fun ch => { ch with serial := ch.serial + 1, len := 0, idle := false })).setHead core c y, y)

/-- A position has been delivered or dropped (R203); at the end of a selected row the next row is looked for (R198). -/
def State.stepCopy (s : State) (core c : Nat) (y : Copy) : State :=
  let v := leNat y.tpl
  let ends := tpGather v && (y.pos + 1) % tpCount v 0 == 0
  let s := s.setHead core c { y with pos := y.pos + 1, pending := [], rows := if ends then y.rows + 1 else y.rows,
                                     cur := if ends then none else y.cur }
  (s.modChan core c (fun ch => { ch with len := ch.len + BitVec.ofNat 48 (tpEsize v) })).tokensUsed (chanAgent core c)

/-- The coordinates of the destination at a position: in gather mode dimension 1 is the count of selected rows (R198). -/
def Copy.dstFor (y : Copy) (rows p : Nat) : List Int :=
  let cs := posCoords y.dst.dims p
  if tpGather (leNat y.tpl) then
    (cs.take 1) ++ ((y.dst.dims[1]?).map (fun d => d.2.1 + (rows : Int))).toList ++ cs.drop 2
  else cs

/-- The coordinates of the destination where the copy stands. -/
def Copy.dstCoords (y : Copy) : List Int := y.dstFor y.rows y.pos

/-- The write of one element: a persist-class one is offered to the write-back queues, another is performed (R195, R201). -/
def State.copyWrite (s : State) (core c : Nat) (x : Group) (y : Copy) (p : Place) (n v : Nat) (pois : Bool) : State :=
  let scm := (leNat y.tpl).testBit 261
  match p with
  | .scr _ _ => (s.writePlace x (chanAgent core c) (.copyWrite false) (tpPol (leNat y.tpl)) p n v pois).stepCopy core c y
  | .mem segs =>
    if scm then
      let s := segs.foldl (fun s q => s.useLeaf x.core (s.ctx x.ctx).desc (.copyWrite true) q.va q.pte q.level q.addr) s
      let bs := leBytes n v
      let ps := (segs.foldl (fun (acc : List (Nat × List Byte × Bool) × Nat) q =>
        (acc.1 ++ (scmPieces q.pa q.n).map (fun z => (z.1, (bs.drop (acc.2 + (z.1 - q.pa))).take z.2, pois)), acc.2 + q.n)) ([], 0)).1
      s.setHead core c { y with pending := ps }
    else (s.writePlace x (chanAgent core c) (.copyWrite false) (tpPol (leNat y.tpl)) p n v pois).stepCopy core c y

/-- Delivers the position that the copy stands at (R195). -/
def State.deliverAt (s : State) (core c : Nat) (x : Group) (y : Copy) : State :=
  let v := leNat y.tpl
  let n := tpEsize v
  let kr : AccKind := .copyRead (v.testBit 260)
  let kw : AccKind := .copyWrite (v.testBit 261)
  let sc := posCoords y.src.dims y.pos
  let dc := y.dstCoords
  let value : Except CopyAt (State × Nat × Bool) :=
    if y.src.inBox sc then
      match s.copyPlace x c kr (y.src.addr sc).toNat n with
      | .at p => .ok (s.copyRead x c y.snap kr p n)
      | r => .error r
    else .ok (s, tpFill v, false)
  let stop (k : AccKind) : CopyAt → State
    | .bad cause va => s.failCopy core c x y cause va
    | .wait ks => s.copyWait core c x y k ks
    | .noRoute ms => s.copyHeld core c x ms
    | .tokens ls => s.copyTokens core c ls
    | .at _ => s
  match value with
  | .error r => stop kr r
  | .ok (s', val, pois) =>
    if y.dst.inBox dc then
      match s.copyPlace x c kw (y.dst.addr dc).toNat n with
      | .at p => s'.copyWrite core c x y p n val pois
      | r => stop kw r
    else s'.stepCopy core c y

/-- Finds the next selected row of a gather from the copy's position on (R198): its bit is read, a row that is not selected is
passed over. -/
def State.gatherRow (s : State) (core c : Nat) (x : Group) : Nat → Copy → State × Option Copy
  | 0, y => (s.setHead core c y, none)
  | k + 1, y =>
    let v := leNat y.tpl
    let w := tpCount v 0
    let row := y.pos / w
    if tpPositions v ≤ y.pos then (s.setHead core c y, none)
    else if y.cur = some row then (s, some y)
    else
      let ea := (bitsOf v 255 192 + row / 8) % 2 ^ 55
      match s.copyPlace x c (.copyRead false) ea 1 with
      | .bad cause va => (s.failCopy core c x y cause va, none)
      | .wait ks => (s.copyWait core c x y (.copyRead false) ks, none)
      | .noRoute ms => (s.copyHeld core c x ms, none)
      | .tokens ls => (s.copyTokens core c ls, none)
      | .at p =>
        let r := s.copyRead x c none (.copyRead false) p 1
        if r.2.2 then (s.failCopy core c x y cPOISON_CONSUMED ea, none)
        else if r.2.1.testBit (row % 8) then (r.1, some { y with cur := some row })
        else r.1.gatherRow core c x k { y with pos := (row + 1) * w }

/-- The copy in service of a channel, with the group that issued it. -/
def State.inService (s : State) (core c : Nat) : Option (Copy × Group) :=
  ((s.chan core c).q.head?).bind (fun y => (s.group? y.g).map (fun x => (y, { x with core := core, slot := none })))

/-- COPY_DELIVERY: the channel delivers the next position of its copy in service (R200). -/
def execCopyDelivery (core : Nat) (chan : BitVec 3) (s : State) : Host.Outcome State Fault Refusal :=
  let c := chan.toNat
  .next (match s.inService core c with
    | none => s
    | some (y, x) =>
      if y.waiting || y.fail.isSome || !y.pending.isEmpty || (y.started && y.allDone) then s
      else
        let (s, y) := if y.started then (s, y) else s.startCopy core c x y
        if tpGather (leNat y.tpl) then
          match s.gatherRow core c x (tpCount (leNat y.tpl) 1 + 1) y with
          | (s, some y) => s.deliverAt core c x y
          | (s, none) => s
        else s.deliverAt core c x y)

/-- The coordinates that the elements a copy has left may take at its destination (R195, R198): a gather selects at most every row that
it has not looked at. -/
def Copy.leftDst (z : Copy) : List (List Int) :=
  let w := tpCount (leNat z.tpl) 0
  ((List.range (tpPositions (leNat z.tpl) - z.pos)).map (fun i => z.dstFor (z.rows + ((z.pos + i) / w - z.pos / w)) (z.pos + i))).filter
    (fun cs => z.dst.inBox cs)

/-- Whether an earlier copy still has an element to write that a later write waits for (R257, R403): one to this module's tier
(`die` none), or one through the given memory die of it. An address that does not translate now is taken to be one. -/
def State.ahead (s : State) (z : Copy) (die : Option Nat) : Bool :=
  match s.group? z.g with
  | none => false
  | some x =>
    let n := tpEsize (leNat z.tpl)
    z.leftDst.any (fun cs =>
      let va := (z.dst.addr cs).toNat
      (pagePieces va n).any (fun p =>
        match s.xlate x.core (s.ctx z.ctx).desc (.copyWrite true) p.1 with
        | .ok pa _ _ _ => pa >>> 43 == s.modnum.toNat && (match die with
          | none => true
          | some d => scmDie pa == d || scmDie (pa + (p.2 - 1)) == d)
        | _ => true))

/-- A persist-class piece of a copy is held behind an earlier copy of its lane by a PBAR: `.pmod` orders it behind every earlier write to
the module's tier, `.pdie` behind those through its own memory die; writes to other modules' tiers are not ordered (R257, R403). -/
def State.pbarHolds (s : State) (y : Copy) (pa : Nat) : Bool :=
  pa >>> 43 == s.modnum.toNat && s.copies.any (fun z => z.g == y.g && z.lane == y.lane && (leNat z.tpl).testBit 261
    && !z.allDone && z.fail.isNone && ((decide (z.pmod < y.pmod) && s.ahead z none)
      || (decide (z.pdie < y.pdie) && s.ahead z (some (scmDie pa)))))

/-- WRITE_BACK_ACCEPT: the waiting position of the channel's persist-class copy is accepted, its deltas before it (R402); it waits behind a
PBAR, for room, for a chunk that is being rebuilt, and for its parity holders. -/
def execWriteBackAccept (core : Nat) (chan : BitVec 3) (s : State) : Host.Outcome State Fault Refusal :=
  let c := chan.toNat
  .next (match s.inService core c with
    | none => s
    | some (y, _) =>
      if y.pending.isEmpty || y.pending.any (fun q => s.pbarHolds y q.1 || s.unbuilt q.1 || s.deltasWait q.1)
          || s.power.failed || !s.roomFor (y.pending.map (fun q => q.1)) then s
      else ((y.pending.foldl (fun s q => s.accept { pa := q.1, bytes := q.2.1, pois := q.2.2 }) s).stepCopy core c y).unholdAll)

/-- WRITE_BACK_DRAIN: a queue drains its oldest entry to its channel (R383); entries that drain while the supply is down are
counted (R404). -/
def execWriteBackDrain (die : BitVec 2) (s : State) : Host.Outcome State Fault Refusal :=
  let d := die.toNat
  .next (match cget [] s.wbqs d with
    | [] => s
    | e :: r =>
      let s := State.drainEntry { s with wbqs := cput [] s.wbqs d r } e
      if s.power.failed then { s with power := { s.power with drained := cput 0 s.power.drained d (cget 0 s.power.drained d + 1) } }
      else s)

/-! ### Completion (R201, R202, R205) -/

/-- A copy's arrival at its barrier; at one that is not initialised a record is written instead (R201, R252, R253). -/
def State.copyArrive (s : State) (x : Group) (y : Copy) (b : Nat) : State :=
  match s.team? y.team with
  | none => s
  | some t =>
    if (t.bar b).exp = 0 then
      s.writeErr { s.groupRec x cBAR_UNINIT ((1#32) <<< y.lane) 0 with sev := sevCONTAINED, unit := 6 }
    else (s.arrive y.team b 1).1

/-- The batch of a completed copy: complete once none of its copies is left; FAIL if one failed (R205, R207). -/
def State.batchDone (s : State) (y : Copy) : State :=
  match y.batch with
  | none => s.modGroup y.g (fun x => x.modLane y.lane (fun r => { r with openFail := r.openFail || y.fail.isSome }))
  | some b =>
    let more := s.copies.any (fun z => z.g == y.g && z.lane == y.lane && z.batch == some b)
    s.modGroup y.g (fun x => x.modLane y.lane (fun r => r.batchStep b more y.fail.isSome))

/-- Copies arrive at barriers before the group instructions of a cycle, and in ascending channel number: an arrival that comes later falls in the
next cycle (R255). The instructions are those of the core that the team is on now, and the channels those of every core that serves a copy of the team.
The arrival takes its place in the cycle. -/
def State.arriveTurn (s : State) (core c team : Nat) : State :=
  let home := ((s.team? team).map (fun (q : Team) => q.core)).getD core
  let late := s.issued.any (fun q => (q.1 == home && q.2.1 == portCTL) || (q.2.2 == team && decide (portCopy + c < q.2.1)))
  let s := if late then s.passCycles 1 else s
  { s with issued := s.issued ++ [(core, portCopy + c, team)] }

/-- COPY_COMPLETE: gather count, arrival, decrement and batch, in order (R201, R202, R255). -/
def execCopyComplete (core : Nat) (chan : BitVec 3) (s : State) : Host.Outcome State Fault Refusal :=
  let c := chan.toNat
  .next (match s.inService core c with
    | none => s
    | some (y, x) =>
      if !y.started || !(y.fail.isSome || y.allDone) then s
      else
        let v := leNat y.tpl
        let b := bitsOf v 271 264
        -- a decrement publishes the destination to what it starts (R335, R342)
        let deep := v.testBit 272 && y.fail.isNone
        let s := s.publish (chanAgent core c) core (if deep then scDom else scTeam)
        -- a write of the copy, or a write-back, was refused and is sent again (R341)
        if s.unperformed (chanAgent core c) || (deep && s.backPending (dieOf core)) then s
        else
        let s := if tpGather v && y.fail.isNone then
            s.modTeam y.team (fun t => { t with bars := cput {} t.bars b { t.bar b with aux := BitVec.ofNat 32 y.rows } }) else s
        let s := if tpBaren v then ((s.arriveTurn core c y.team).copyArrive x y b).mirrorBar y.team b else s
        let s := if v.testBit 272 && y.fail.isNone then
            s.decCompletion y.ctx (bitsOf v 285 273) { s.groupRec x 0 ((1#32) <<< y.lane) 0 with unit := 6 } else s
        let s := s.modChan core c (fun ch => { ch with q := ch.q.tail, idle := true })
        (s.batchDone y).unholdAll)

end Sys2Proof.Machine
end

