-- ==== Sys2Proof/Machine/Sync.lean ====
section
/-! DEFINITION. Barriers, fences, persistence, tasks, the hinge and distances (R249 to R263). -/

namespace Sys2Proof.Machine

/-- The low 32 bits of a uniform operand, and its poison (R250). -/
def uni32 (s : State) (c : Iss) (o : Opnd) : Nat × Bool := let r := uniRead s c o .b64; (r.1 % 2 ^ 32, r.2)

/-- The predicate register of an operand, as a number. -/
def predNum (o : Opnd) : Nat := (predIdxOf o).toNat

/-- Writes a predicate result in the lanes of `act` (R250). -/
def State.putPred (s : State) (c : Iss) (d : Opnd) (b : Bool) : State :=
  s.modGroup c.g (fun x => x.setPred (predNum d) c.act (if b then c.act else 0))

/-- A predicate result that capture logs, with the effect that goes with it (R432). -/
def State.putPredSeen (s0 s : State) (c : Iss) (d : Opnd) (b : Bool) : State :=
  let r := s0.capRead s c.g 5 c.ent.pc.toNat 8 [(lowLane c.act, if b then 1 else 0, false)]
  r.1.putPred c d (((r.2.head?).map (fun q => q.2.1 != 0)).getD b)

/-- A scalar result that capture logs, with the effect that goes with it (R432). -/
def State.putScalSeen (s0 s : State) (c : Iss) (d : Opnd) (v : Nat) : State :=
  let r := s0.capRead s c.g 5 c.ent.pc.toNat 8 [(lowLane c.act, v, false)]
  r.1.putScal c d (((r.2.head?).map (fun q => q.2.1)).getD v) 64

/-- A scalar destination is named. -/
def namesScal : Opnd → Bool
  | .scal _ => true
  | _ => false

/-- The checks of the operands of this range. -/
def syncUses (e : Enc) (s : State) (c : Iss) : List Use :=
  { o := e.d, n := 8, lanes := c.act, dest := true } :: uniUses [e.a, e.b] s c

/-! ### Named barriers (R251 to R255) -/

/-- The barriers of the issuing team (R99). -/
def State.barsOf (s : State) (c : Iss) : Nat := (s.launchOf c.x).hdr.bars

/-- The barrier of the issuing team. -/
def State.barOf (s : State) (c : Iss) (b : Nat) : Bar := (s.teamOf c.x).bar b

/-- Checks 1 and 4 of R252, after the poison of the operands (R250). -/
def State.barCause (s : State) (c : Iss) (a : Nat × Bool) (bPois armed : Bool) : Option Cause :=
  if a.2 || bPois then some cPOISON_CONSUMED
  else if s.barsOf c ≤ a.1 then some cBAR_RANGE
  else if armed && (s.barOf c a.1).exp == 0 then some cBAR_UNINIT
  else none

/-- BARI (R252): helpers alone arm nothing (R250). -/
def execBari (e : Enc) (s : State) : Host.Outcome State Fault Refusal :=
  runInstr false (uniUses [e.a, e.b]) false e s (fun s c => ifAct c s (
    let a := uni32 s c e.a
    let b := uni32 s c e.b
    match s.barCause c a b.2 false with
    | some k => .error (.plain k c.act)
    | none =>
      if b.1 = 0 ∨ 32767 < b.1 then .error (.plain cBAR_COUNT c.act)
      else if (s.teamGroups c.x.team).any (fun p => p.2.waitsOn a.1 || p.2.heldOn a.1) then .error (.plain cBAR_BUSY c.act)
      else if c.real = 0 then .ok s
      else .ok (s.setBar c.x.team a.1 { s.barOf c a.1 with exp := b.1, cnt := b.1, aux := 0 })))

/-- The count of a group's arrival (R253). -/
def arriveCount (e : Enc) (c : Iss) : Nat :=
  if c.real = 0 then 0 else if e.mod.getLsbD 0 then (lanesOf c.real).length else 1

/-- A group's arrival: a release and a progress event (R253); gives the phase arrived in. -/
def State.groupArrive (s : State) (c : Iss) (b n : Nat) : State × Bool :=
  if n = 0 then (s, false) else ((s.publish c.x.agent c.x.core scTeam).progress c.g).arrive c.x.team b n

/-- A write of the group that a release must publish has been refused, or a write-back of its die's L2 (R338): the release waits (R341). -/
def State.mustWait (s : State) (c : Iss) (scope : Nat) : Bool :=
  let t := s.publish c.x.agent c.x.core scope
  t.unperformed c.x.agent || (decide (4 ≤ scope) && t.backPending (dieOf c.x.core))

/-- BARR (R253). -/
def execBarr (e : Enc) (s : State) : Host.Outcome State Fault Refusal :=
  runInstr false (syncUses e) false e s (fun s c => ifAct c s (
    let a := uni32 s c e.a
    match s.barCause c a false true with
    | some k => .error (.plain k c.act)
    | none =>
      let n := arriveCount e c
      if (s.barOf c a.1).cnt < n then .error (.plain cBAR_OVER c.act)
      else if n ≠ 0 ∧ s.mustWait c scTeam then .error .pause
      else
        let r := s.groupArrive c a.1 n
        .ok (if namesScal e.d then s.putScalSeen r.1 c e.d (if r.2 then 1 else 0) else r.1)))

/-- A wait on a barrier's phase ends at once, or the group waits (R254). -/
def State.barWait (s0 s : State) (c : Iss) (e : Enc) (b : Nat) (ph : Bool) : Except Stop State :=
  if s0.replaysTeam c.x.team then .ok (s0.putPredSeen s c e.d false)
  else if (s.teamOf c.x).broken then .ok (s0.putPredSeen s c e.d true)
  else if (s.barOf c b).ph != ph then .ok ((s0.putPredSeen s c e.d false).acquire c.g scTeam)
  else .error (.done (s.waitOn c e (.barrier b (predIdxOf e.d) c.act none)))

/-- BARW (R254). -/
def execBarw (e : Enc) (s : State) : Host.Outcome State Fault Refusal :=
  runInstr false (uniUses [e.a, e.b]) false e s (fun s c => ifAct c s (
    let a := uni32 s c e.a
    let b := uni32 s c e.b
    match s.barCause c a b.2 true with
    | some k => .error (.plain k c.act)
    | none => s.barWait s c e a.1 (b.1.testBit 0)))

/-- BARRW (R254): helpers alone arrive and wait for nothing (R250). -/
def execBarrw (e : Enc) (s : State) : Host.Outcome State Fault Refusal :=
  runInstr false (uniUses [e.a]) false e s (fun s c => ifAct c s (
    let a := uni32 s c e.a
    match s.barCause c a false true with
    | some k => .error (.plain k c.act)
    | none =>
      let n := arriveCount e c
      if (s.barOf c a.1).cnt < n then .error (.plain cBAR_OVER c.act)
      else if n = 0 then .ok (s.putPredSeen s c e.d false)
      else if s.mustWait c scTeam then .error .pause
      else
        let r := s.groupArrive c a.1 n
        s.barWait r.1 c e a.1 r.2))

/-- BART (R254). -/
def execBart (e : Enc) (s : State) : Host.Outcome State Fault Refusal :=
  runInstr false (syncUses e) false e s (fun s c => ifAct c s (
    let a := uni32 s c e.a
    let b := if e.mod.toNat % 4 = 0 then uni32 s c e.b else (0, false)
    match s.barCause c a b.2 true with
    | some k => .error (.plain k c.act)
    | none =>
      let x := s.barOf c a.1
      if e.mod.toNat % 4 = 0 then .ok (s.putPredSeen s c e.d (x.ph != b.1.testBit 0))
      else if e.mod.toNat % 4 = 1 then .ok (s.putPredSeen s c e.d (s.teamOf c.x).broken)
      else .ok ((s.putScalSeen s c e.d x.aux.toNat).acquire c.g scTeam)))

/-! ### Fences, persistence, steps (R256 to R259) -/

/-- The ordering of a FENCE (R249): 0 .sc, 1 .acq, 2 .rel, 3 .ar. -/
def fenceOrd (e : Enc) : Nat := e.mod.toNat / 4

/-- What a FENCE does at a scope (R256, R337): `.rel`, `.ar` and `.sc` write back what is software coherent, `.acq`, `.ar` and `.sc` drop it;
`.sc` has every earlier write of the group performed before any later access; every code discards read-ahead (R213). A group's loads
are performed in issue order and its writes in theirs, so the other pairs are in order. -/
def State.fence (s : State) (c : Iss) (ord scope : Nat) : State :=
  let s := if ord = 1 then s else s.release c.x scope
  let s := if ord = 0 then s.grantUpTo (whoCore c.x.core) else s
  -- a fence that releases orders the pending writes before what is performed at once (R336, R337)
  s.acquire c.g (if ord = 2 then 0 else scope)

/-- FENCE (R256): `.sc` waits while a write of the group is refused (R341). -/
def execFence (e : Enc) (s : State) : Host.Outcome State Fault Refusal :=
  runInstr false noUses false e s (fun s c => ifAct c s (
    if fenceOrd e = 0 ∧ s.mustWait c (scopeOf e) then .error .pause else .ok (s.fence c (fenceOrd e) (scopeOf e))))

/-- PBAR (R257): the lane's later persist-class copies carry a higher count. -/
def execPbar (e : Enc) (s : State) : Host.Outcome State Fault Refusal :=
  runInstr false noUses false e s (fun s c =>
    .ok (s.modGroup c.g (fun x => (lanesOf c.real).foldl (fun x l => x.modLane l (fun r =>
      if e.x.toNat % 8 = 6 then { r with pdie := r.pdie + 1 } else { r with pmod := r.pmod + 1 })) x)))

/-- A persist-class copy of a lane is neither accepted nor failed. -/
def State.persisting (s : State) (g l : Nat) : Bool :=
  s.copies.any (fun y => y.g == g && y.lane == l && (leNat y.tpl).testBit 261 && !(y.started && y.allDone) && y.fail.isNone)

/-- PSYNC (R258). -/
def execPsync (e : Enc) (s : State) : Host.Outcome State Fault Refusal :=
  runInstr false noUses false e s (fun s c => ifAct c s (
    if (lanesOf c.real).any (fun l => s.persisting c.g l) then .error .hold
    else
      let failed := maskWhere (lanesOf c.real) (fun l => l) (fun l => (c.x.lane l).psf)
      let named := (match e.d with | .pred _ => true | _ => false)
      let r := if named then
          s.capRead s c.g 5 c.ent.pc.toNat 8 ((lanesOf c.real).map (fun l => (l, if failed.getLsbD l then 1 else 0, false)))
        else (s, [])
      let v := maskWhere r.2 (fun q => q.1) (fun q => q.2.1 != 0)
      .ok (r.1.modGroup c.g (fun x =>
        let x := (lanesOf c.real).foldl (fun x l => x.modLane l (fun r => { r with psf := false })) x
        if named then x.setPred (predNum e.d) c.act v else x))))

/-- The step flag of a launch's record (R282). -/
def Launch.stepFlag (l : Launch) : Bool := (leNat l.lrec).testBit 25

/-- A write to a page of the set that was translated before has still to be performed (step 4 of R409). -/
def State.setPending (s : State) (pages : List Nat) : Bool :=
  s.mergeQ.any (fun r => r.scr.isNone && r.pa >>> 43 == s.modnum.toNat
    && (pages.contains (r.pa % 2 ^ 43 / 65536) || pages.contains ((r.pa + r.bytes.length - 1) % 2 ^ 43 / 65536)))

/-- STEPADV (R259): in a step group it waits until the etcher has accepted the capture (R408). -/
def execStepadv (e : Enc) (s : State) : Host.Outcome State Fault Refusal :=
  runInstr false (fun _ c => [{ o := e.d, n := 8, lanes := c.act, dest := true }]) false e s (fun s c => ifAct c s (
    let q := s.ctx c.x.ctx
    if !(s.launchOf c.x).stepFlag then .error (.plain cSTEP_PRIV c.act)
    else if c.real = 0 then .ok (s.putScal c e.d 0 64)
    else if s.mustWait c scDom then .error .hold
    else
      let s := (s.fence c 0 scDom).grantDue
      let et : Etch := cget {} s.etches c.x.ctx
      if q.stepGroup.isSome && (et.accepted != some q.step.toNat || s.setPending et.pages) then
        .error (.holdAnd (fun s => { s.fence c 0 scDom with etches := cput {} s.etches c.x.ctx { et with wanted := true } }))
      else
        let s := s.modCtx c.x.ctx (fun z => { z with step := z.step + 1, stepLaunch := if q.stepGroup.isSome then some c.x.launch else z.stepLaunch })
        let s := s.modLaunch c.x.launch (fun l => { l with boundary := if q.stepGroup.isSome then some q.step.toNat else l.boundary })
        let s := { s with etches := cput {} s.etches c.x.ctx { et with wanted := false, accepted := none } }
        .ok (s.putScal c e.d (q.step.toNat + 1) 64)))

/-! ### Tasks and queues (R260, R261) -/

/-- DEPDEC (R260). -/
def execDepdec (e : Enc) (s : State) : Host.Outcome State Fault Refusal :=
  runInstr false (uniUses [e.a, e.b]) false e s (fun s c => ifAct c s (
    let a := uni32 s c e.a
    let b := uni32 s c e.b
    if a.2 || b.2 then .error (.plain cPOISON_CONSUMED c.act)
    else if 8192 ≤ a.1 ∨ (s.ctr a.1).owner ≠ some c.x.ctx then .error (.plain cDEP_RANGE c.act)
    else if b.1 % 2 ^ 16 = 0 ∨ c.real = 0 then .ok s
    else if s.mustWait c scDom then .error .pause
    else .ok ((s.publish c.x.agent c.x.core scDom).decCtr a.1 (b.1 % 2 ^ 16) (s.groupRec c.x 0 c.act c.ent.pc))))

/-- QPUSH (R261): the checks in their order. -/
def execQpush (e : Enc) (s : State) : Host.Outcome State Fault Refusal :=
  runInstr false (fun s c => { o := e.d, n := 8, lanes := c.act, dest := true } :: { o := e.b, n := 256, lanes := c.act }
      :: uniUses [e.a] s c) false e s (fun s c => ifAct c s (
    let a := uniRead s c e.a .b64
    let q := s.queue a.1
    let r := readWords c.x.rf.win (rsAddr e.b) 256
    if a.2 then .error (.plain cPOISON_CONSUMED c.act)
    else if 4096 ≤ a.1 ∨ q.ctx ≠ c.x.ctx ∨ q.dev = false ∨ q.st = .disabled then .error (.plain cQUEUE_RANGE c.act)
    else if r.2.1 then .error (.plain cPOISON_CONSUMED c.act)
    else if c.real = 0 then .ok (s.putScal c e.d 0 64)
    else if s.mustWait c scDom then .error .pause
    else
      let s1 := (s.modGroup c.g (fun x => x.skip r.2.2)).publish c.x.agent c.x.core scDom
      let w := s1.append a.1 (leBytes 256 r.1)
      .ok (s.putScalSeen w.1 c e.d (if w.2 then 0 else 1))))

/-! ### Hinge and distance (R262, R263) -/

/-- LHINGE (R262, R392). -/
def execLhinge (e : Enc) (s : State) : Host.Outcome State Fault Refusal :=
  runInstr false (syncUses e) false e s (fun s c => ifAct c s (
    let a := uni32 s c e.a
    if a.2 then .error (.plain cPOISON_CONSUMED c.act)
    else if c.real = 0 then .ok (s.putScal c e.d 0 64)
    else
      let k := dieOf c.x.core
      let s1 := s.settleBias k
      let x := s1.link k
      if x.owner ≠ some c.x.ctx then .ok (s.putScalSeen s1 c e.d 2)
      else if x.spoke = a.1 then .ok (s.putScalSeen s1 c e.d 0)
      else
        let t := min (max 4 (min 16 a.1)) ((x.inService k).length - 4)
        let s2 := s1.modLink k (fun x => x.request k t s.now)
        .ok (s.putScalSeen s2 c e.d (if 4 ≤ a.1 ∧ a.1 ≤ 16 then 1 else 3))))

/-- DHOP (R263). -/
def execDhop (e : Enc) (s : State) : Host.Outcome State Fault Refusal :=
  runInstr false (opUses [{ o := e.a, ty := .b32 }, { o := e.b, ty := .b32 }] e.d 4) false e s (fun s c =>
    let d := (s.ctx c.x.ctx).desc
    let vs := (computeLanes e.d c.act).map (fun l =>
      (l, s.readSrc c.x [] { o := e.a, ty := .b32 } l, s.readSrc c.x [] { o := e.b, ty := .b32 } l))
    let whole (m : Mask) : Mask := if isScalOp e.d then c.act else m
    let pois := maskWhere vs (fun v => v.1) (fun v => v.2.1.2.1 || v.2.2.2.1)
    let ds := vs.map (fun v => (v.1, s.vdie d (v.2.1.1 % 2 ^ 16), s.vdie d (v.2.2.1 % 2 ^ 16)))
    let absent := maskWhere ds (fun v => v.1) (fun v => v.2.1.isNone || v.2.2.isNone)
    if pois ≠ 0 then .error (.plain cPOISON_CONSUMED (whole pois))
    else if absent ≠ 0 then .error (.plain cVDIE_ABSENT (whole absent))
    else
      let res := ds.map (fun v => (v.1, (match v.2.1, v.2.2 with | some a, some b => s.dieHops a b (s.freeCtr + v.1) | _, _ => 0), false))
      let s' := ({ s with freeCtr := s.freeCtr + 32 } : State).modGroup c.g (fun x => x.skip (vs.foldl (fun n v => n + v.2.1.2.2 + v.2.2.2.2) 0))
      let r := s.capRead s' c.g 5 c.ent.pc.toNat 8 res
      r.1.putResults c e.d 4 32 (r.2.map (fun q => { lane := q.1, v := q.2.1, p := false })) none)

end Sys2Proof.Machine
end

