-- ==== Sys2Proof/Machine/Matrix.lean ====
section
/-! DEFINITION. The matrix unit and the operand buffer (R54 to R57, R218 to R248). -/

namespace Sys2Proof.Machine

/-! ### Operands (R219, R230) -/

/-- The first byte of a lane of a tile, or of fragments of `stride` bytes (R230). -/
def tileAddr (x : Group) (o : Opnd) (stride l : Nat) : Nat :=
  match o with
  | .view k i => vwAddr (x.view k.toNat) i.toNat l
  | .rs a => a.toNat + stride * l
  | _ => 0

/-- The first bytes of the 32 lanes; none for a port. -/
def tileAddrs (x : Group) (o : Opnd) (stride : Nat) : List Nat :=
  match o with
  | .view _ _ | .rs _ => (List.range 32).map (tileAddr x o stride)
  | _ => []

/-- The port that a source names. -/
def portOf : Opnd → Option Nat
  | .port k => some k.toNat
  | _ => none

/-- The pending destinations that byte runs meet, as operands for the checks of R88. -/
def pendUses (x : Group) (rs : List Run) : List Use :=
  let hit (a n : Nat) : Bool := rs.any (fun r => r.hits a n)
  let ws := (x.pend.flatMap Pend.keys).filter (fun w => decide (w < 2 ^ 20) && hit (4 * w) 4)
  let ds := (x.cvts.flatMap (fun q => q.dests)).filter (fun d => hit (d.1 / 4 * 4) (d.1 % 4 + d.2 + (4 - (d.1 + d.2) % 4) % 4))
  ws.map (fun w => { o := .rs (BitVec.ofNat 16 (4 * w)), n := 4, lanes := 0, mat := true })
    ++ ds.map (fun d => { o := .rs (BitVec.ofNat 16 d.1), n := d.2, lanes := 0, mat := true })

/-- The runs of 32 tile rows. -/
def tileRuns (x : Group) (o : Opnd) : List Run :=
  (tileAddrs x o 384).map (fun (a : Nat) => { a := (a : Int), inc := 0, count := 1, n := 384 })

/-- An accumulator operand: its element is 12 bytes wide (R230). -/
def accUse (o : Opnd) (dest : Bool) : Use := { o := o, n := 12, lanes := 0, dest := dest, mat := true }

/-- The bounds of whole tile rows for some lanes, as check 11 of R89 sees them; a raw operand spans its rows up to the highest
lane (R63). -/
def rowUse (o : Opnd) (row : Nat) (lanes : Mask) : Use :=
  let top := ((lanesOf lanes).getLast?).map (fun l => l + 1) |>.getD 1
  { o := o, n := (match o with | .rs _ => row * top | _ => row), lanes := lanes, dest := true, block := true }

/-- The matrix queue, or the group's share of it, is full, or operations of the group have still to enter it again (R218, R244). -/
def State.matrixFull (s : State) (g core : Nat) : Bool :=
  decide (8 ≤ (s.core core).mq.length) || decide (4 ≤ (s.opsOf g core).length) || (s.group? g).any (fun (x : Group) => !x.mats.isEmpty)

/-- A matrix operation enters the queue, or is held until there is room (R218). -/
def State.enqueueMatrix (s : State) (c : Iss) (o : MatOp) : Except Stop State :=
  if s.matrixFull c.g c.x.core then .error .hold
  else .ok ({ s with nextId := s.nextId + 1 }.modCore c.x.core (fun k =>
    { k with mq := k.mq ++ [{ o with id := s.nextId, g := c.g, pc := c.ent.pc.toNat }] }))

/-- `act` holds a live lane (R219). -/
def Iss.hasLive (c : Iss) : Bool := (c.act &&& c.x.live) != 0

/-! ### MLOOP and MSTEP (R229 to R231) -/

/-- The scale bytes per block: 32 rows, or 128 in batched mode (R225). -/
def scaleRows (b16 : Bool) : Nat := if b16 then 128 else 32

/-- The block length along K of a reservation word (R223). -/
def obBlock (w : Nat) : Nat := match bitsOf w 11 10 with | 0 => 0 | 1 => 16 | 2 => 32 | _ => 64

/-- The size of a reservation in bytes (R223). -/
def obSize (w : Nat) : Nat := (bitsOf w 33 25 + 1) * 128

/-- The operation that an MLOOP or MSTEP queues: N steps, increments, first block (R229, R230). -/
def sequenceOp (e : Enc) (x : Group) (w : Nat) (loop : Bool) (steps : Nat) (incA incB : Int) (block : Nat) : MatOp :=
  let b16 := e.mod.getLsbD 3
  let o : MatOp := { id := 0, g := 0, kind := if loop then 1 else 2, ty := e.ty, b16 := b16, res := e.x.toNat }
  { o with
    steps := steps, block := block, portA := portOf e.a, portB := portOf e.b, incA := incA, incB := incB,
    adrD := tileAddrs x e.d 384, adrA := tileAddrs x e.a (o.frag w false), adrB := tileAddrs x e.b (o.frag w true) }

/-- A port source cannot give fragments of n bytes: no block, compacting, or not the smallest block that holds them (R231). -/
def portUnfit (x : Group) (o : Opnd) (n : Nat) : Bool :=
  match o with
  | .port k =>
    match x.port? k.toNat with
    | some p =>
      let v := leNat p.desc
      bitsOf v 461 459 == 0 || v.testBit 454 || ([8, 16, 32, 64].find? (fun b => decide (n ≤ b))) != some (sdSize v)
    | none => true
  | _ => false

/-- The checks of R231 from order 2 on. -/
def State.sequenceCause (s : State) (e : Enc) (c : Iss) (w : Nat) (o : MatOp) : Option Cause :=
  let src := (s.writeLock c.x.team o)
  let acc := bitsOf w 14 12
  let blocks := if obBlock w = 0 then 0 else (o.steps * stepK w + obBlock w - 1) / obBlock w
  let last (off : Nat) : Nat := off * 16 + (o.block + blocks) * scaleRows o.b16
  if w = 0 ∨ (s.launchOf c.x).hdr.obuf = 0 then some cOB_NONE
  else if (e.ty == .a80f) != (acc == 0) then some cOB_FORMAT
  else if src.any (fun r => o.adrD.any (fun a => r.hits a 384)) then some cMATRIX_OVERLAP
  else if o.fullLock.any (fun r => r.leaves c.x.rf.wbytes) || src.any (fun r => r.leaves c.x.rf.wbytes) then some cRS_BOUNDS
  else if blocks ≠ 0 ∧ (obSize w < last (bitsOf w 45 34) ∨ obSize w < last (bitsOf w 57 46)) then some cOB_RANGE
  else if portUnfit c.x e.a (o.frag w false) || portUnfit c.x e.b (o.frag w true) then some cSTREAM_KIND
  else none

/-- The scalars that R229 gives an MLOOP: its steps, increments and first block. -/
structure LoopArgs where
  steps : Nat := 1
  incA : Int := 0
  incB : Int := 0
  block : Nat := 0
  pois : Bool := false

/-- Reads the four scalars of an MLOOP (R229). -/
def loopArgs (e : Enc) (x : Group) : LoopArgs :=
  let r (k bits : Nat) : Nat × Bool := pwRead (cget {} x.rf.scal (8 * (e.mod.toNat % 8) + k)) bits
  { steps := (r 0 32).1, incA := signedOf 64 (r 1 64).1, incB := signedOf 64 (r 2 64).1, block := (r 3 32).1,
    pois := (r 0 32).2 || (r 1 64).2 || (r 2 64).2 || (r 3 32).2 }

/-- The operation as MLOOP or MSTEP would queue it. -/
def State.sequenceOf (s : State) (e : Enc) (c : Iss) (loop : Bool) : MatOp :=
  let a : LoopArgs := if loop then loopArgs e c.x else {}
  sequenceOp e c.x (s.obWord c.x.team e.x.toNat) loop a.steps a.incA a.incB a.block

/-- The operands of a sequence for checks 11 to 13 of R89. -/
def sequenceUses (e : Enc) (loop : Bool) (s : State) (c : Iss) : List Use :=
  let o := s.sequenceOf e c loop
  let scal (k : Nat) : Use := { o := .scal (BitVec.ofNat 6 (8 * (e.mod.toNat % 8) + k)), n := 8, lanes := 0, mat := true }
  let src (o : Opnd) : Use := { o := o, n := 1, lanes := 0, mat := true }
  accUse e.d true :: src e.a :: src e.b :: (if loop then (List.range 4).map scal else [])
    ++ pendUses c.x (tileRuns c.x e.d ++ s.writeLock c.x.team o)

/-- MLOOP and MSTEP at issue (R219, R229 to R231). -/
def runSequence (e : Enc) (loop : Bool) (s : State) : Host.Outcome State Fault Refusal :=
  runInstr false (sequenceUses e loop) false e s (fun s c =>
    if !c.hasLive then .ok s
    else if loop && (loopArgs e c.x).pois then .error (.plain cPOISON_CONSUMED c.act)
    else
      let o := s.sequenceOf e c loop
      match s.sequenceCause e c (s.obWord c.x.team e.x.toNat) o with
      | some k => .error (.plain k c.act)
      | none => s.enqueueMatrix c o)

/-- MLOOP (R229 to R231). -/
def execMloop (e : Enc) (s : State) : Host.Outcome State Fault Refusal := runSequence e true s
/-- MSTEP (R229). -/
def execMstep (e : Enc) (s : State) : Host.Outcome State Fault Refusal := runSequence e false s

/-! ### MZERO, MACC, MCVT at issue (R236 to R238) -/

/-- MZERO (R236). -/
def execMzero (e : Enc) (s : State) : Host.Outcome State Fault Refusal :=
  runInstr false (fun _ c => accUse e.d true :: pendUses c.x (tileRuns c.x e.d)) false e s (fun s c =>
    if !c.hasLive then .ok s
    else if (tileRuns c.x e.d).any (fun r => r.leaves c.x.rf.wbytes) then .error (.plain cRS_BOUNDS c.act)
    else s.enqueueMatrix c { id := 0, g := 0, kind := 3, adrD := tileAddrs c.x e.d 384 })

/-- MACC (R237). -/
def execMacc (e : Enc) (s : State) : Host.Outcome State Fault Refusal :=
  runInstr false (fun _ c =>
      let ls : Mask := if c.hasLive then ~~~0 else 0
      let os := [e.d, e.a, e.b]
      os.map (fun o => accUse o true) ++ os.map (fun o => rowUse o 384 ls) ++ pendUses c.x (os.flatMap (tileRuns c.x)))
    false e s (fun s c =>
    if !c.hasLive then .ok s
    else s.enqueueMatrix c { id := 0, g := 0, kind := 4, ty := e.ty, adrD := tileAddrs c.x e.d 384,
                             adrA := tileAddrs c.x e.a 384, adrB := tileAddrs c.x e.b 384 })

/-- MCVT (R238): its destination stays pending until it has written it (R234). -/
def execMcvt (e : Enc) (s : State) : Host.Outcome State Fault Refusal :=
  let row := 32 * Ty.bytes e.ty
  let dests (x : Group) : List (Nat × Nat) := (tileAddrs x e.d row).map (fun a => (a, row))
  runInstr false (fun _ c =>
      [{ o := e.d, n := Ty.bytes e.ty, lanes := 0, dest := true, mat := true }, accUse e.a false, rowUse e.d row c.act,
        rowUse e.a 384 c.act]
        ++ pendUses c.x (tileRuns c.x e.a ++ (dests c.x).map (fun d => { a := d.1, inc := 0, count := 1, n := d.2 })))
    false e s (fun s c =>
    if c.act = 0 then .ok s
    else
      let id := s.nextId
      match s.enqueueMatrix c { id := 0, g := 0, kind := 5, cTy := e.ty, cMod := e.mod, cX := e.x, acts := c.act, real := c.real,
                                adrD := tileAddrs c.x e.d row, adrA := tileAddrs c.x e.a 384 } with
      | .error st => .error st
      | .ok s => .ok (s.modGroup c.g (fun x => { x with
          cvts := x.cvts ++ [{ op := id, window := e.la.toNat,
                               dests := (lanesOf c.act).map (fun l => (tileAddr c.x e.d row l, row)) }] })))

/-! ### MSYNC and reservations (R223 to R227, R239) -/

/-- MSYNC (R239). -/
def execMsync (e : Enc) (s : State) : Host.Outcome State Fault Refusal :=
  let abort := e.mod.getLsbD 0
  runInstr abort noUses false e s (fun s c => ifAct c s (
    let ops := s.opsOf c.g c.x.core
    if abort then
      if ops.any (fun o => o.running && decide (3 ≤ o.kind)) then .error .hold
      else .ok ((s.dropMatrix c.g c.x.core).unhold c.x.core)
    else if ops.any (fun o => !o.suspended) then .error .hold else .ok s))

/-- The live reservation words of a team. -/
def Team.liveOb (q : Team) : List (Nat × Nat) :=
  ((List.range 16).map (fun n => (n, (cget 0 q.obres n).toNat))).filter (fun p => p.2 != 0)

/-- The formats that a reservation takes (R224). -/
def obFormats : List Nat := [0x08, 0x09, 0x0A, 0x0B, 0x0C, 0x0D, 0x0E, 0x0F, 0x10]
/-- The formats of a80i (R55). -/
def obIntFormats : List Nat := [0x08, 0x09, 0x0A, 0x0B]

/-- The binary point that ACC selects (R223). -/
def accPoint (acc : Nat) : Nat := if acc = 2 then 16 else if acc = 3 then 32 else 0

/-- The number of ts8 formats of a reservation word (R55). -/
def tsCount (w : Nat) : Nat := (if bitsOf w 4 0 = 0x0B then 1 else 0) + (if bitsOf w 9 5 = 0x0B then 1 else 0)

/-- Checks 2 and 3 of R224. -/
def obMalformed (w : Nat) : Bool :=
  let a := bitsOf w 4 0
  let b := bitsOf w 9 5
  let bl := bitsOf w 11 10
  let acc := bitsOf w 14 12
  bitsOf w 63 58 != 0 || w.testBit 15 || decide (4 ≤ acc) || !obFormats.contains a || !obFormats.contains b
    || (a == 0x09 && b == 0x10) || (a == 0x10 && b == 0x09)
    || (bl == 0 && (bitsOf w 45 34 != 0 || bitsOf w 57 46 != 0))
    || (acc != 0 && (!obIntFormats.contains a || !obIntFormats.contains b || bl != 0 || decide (accPoint acc < 6 * tsCount w)))

/-- The range of a reservation in units of 128 bytes: start and length (R223). -/
def obUnits (w : Nat) : Nat × Nat := (bitsOf w 24 16, bitsOf w 33 25 + 1)

/-- The matrix operations of a team that use a reservation and have not completed, parked ones included. -/
def State.obInUse (s : State) (team n : Nat) : Bool :=
  let uses (o : MatOp) : Bool := decide (o.kind ≤ 2) && o.res == n
  s.groups.any (fun p => p.2.team == team && (s.opsOf p.1 p.2.core).any uses)

/-- OBRES (R223, R224). -/
def execObres (e : Enc) (s : State) : Host.Outcome State Fault Refusal :=
  let n := e.x.toNat
  runInstr false (uniUses [e.a]) false e s (fun s c => ifAct c s (
    let (w, p) := uniRead s c e.a .b64
    let q := s.teamOf c.x
    let others := q.liveOb.filter (fun r => r.1 != n)
    let (off, len) := obUnits w
    let onCore := (s.teams.filter (fun t => t.1 != c.x.team && t.2.core == c.x.core && t.2.st == .running)).foldl
      (fun k t => k + t.2.liveOb.length) 0
    if p then .error (.plain cPOISON_CONSUMED c.act)
    else if obMalformed w then .error (.plain cOB_FORMAT c.act)
    else if (s.launchOf c.x).hdr.obuf * 8 < off + len ∨ others.any (fun r => rangesMeet off len (obUnits r.2).1 (obUnits r.2).2) then
      .error (.plain cOB_RANGE c.act)
    else if 16 ≤ onCore + others.length then .error (.plain cOB_FULL c.act)
    else if s.obWord c.x.team n ≠ 0 ∧ s.obInUse c.x.team n then .error .hold
    else .ok (s.modTeam c.x.team (fun q => { q with obres := cput 0 q.obres n (BitVec.ofNat 64 w) }))))

/-- OBREL (R227). -/
def execObrel (e : Enc) (s : State) : Host.Outcome State Fault Refusal :=
  let n := e.x.toNat
  runInstr false noUses false e s (fun s c => ifAct c s (
    if s.obWord c.x.team n = 0 then .error (.plain cOB_NONE c.act)
    else if s.obInUse c.x.team n then .error .hold
    else .ok (s.modTeam c.x.team (fun q => { q with obres := cput 0 q.obres n 0 }))))

/-- OBLD (R226). -/
def execObld (e : Enc) (s : State) : Host.Outcome State Fault Refusal :=
  let n := e.x.toNat
  let len := 64 * 2 ^ (e.mod.toNat % 8)
  runInstr false (fun s c => { o := e.b, n := len, lanes := c.act } :: uniUses [e.a] s c) false e s (fun s c =>
    if !c.hasLive then .ok s
    else
      let w := s.obWord c.x.team n
      let a := (uniRead s c e.a .b64).1
      if w = 0 then .error (.plain cOB_NONE c.act)
      else if a % 64 ≠ 0 ∨ obSize w < a + len then .error (.plain cOB_RANGE c.act)
      else if s.obInUse c.x.team n then .error .hold
      else
        let rd (i : Nat) := readWords c.x.rf.win (rsAddr e.b + 4 * i) 4
        let at_ := (bitsOf w 24 16 * 128 + a) / 4
        let ws := (List.range (len / 4)).map (fun i => (at_ + i, rd i))
        let skips := (readWords c.x.rf.win (rsAddr e.b) len).2.2
        .ok ((s.modTeam c.x.team (fun q => { q with
            ob := ws.foldl (fun (t : Cells WP) r => cput {} t r.1 { v := BitVec.ofNat 32 r.2.1, p := r.2.2.1 }) q.ob })).modGroup c.g
          (fun x => x.skip skips)))

/-! ### The unit: starting operations (R218) -/

/-- A group whose operations the unit may run: it is on the core, and neither frozen nor stopped (R244, R273). -/
def Group.unitRuns (x : Group) : Bool := !x.engineWait && (x.st == .active || x.st == .pending || x.st == .draining)

/-- The first operation of its group in the queue (R218). -/
def firstOfGroup (mq : List MatOp) (o : MatOp) : Bool := (mq.find? (fun p => p.g == o.g)).map (fun p => p.id) == some o.id

/-- An operation that the unit may take up: the first of its group, not suspended (R218, R240). -/
def State.startable (s : State) (mq : List MatOp) (o : MatOp) : Bool :=
  !o.suspended && !o.running && firstOfGroup mq o && ((s.group? o.g).map (fun (x : Group) => x.unitRuns)).getD false

/-- The operation that the unit runs. -/
def Core.runningOp (c : Core) : Option MatOp := c.mq.find? (fun o => o.running)

/-- Changes an operation of a core. -/
def State.setOp (s : State) (core : Nat) (o : MatOp) : State :=
  s.modCore core (fun c => { c with mq := c.mq.map (fun p => if p.id = o.id then o else p) })

/-- A port is starved for a step's pop: its engine has not yet read ahead the element of some lane (R72, R213, R218; log 93). -/
def Group.starved (x : Group) (k : Nat) : Bool :=
  match x.port? k with
  | none => false
  | some p =>
    ((portLanes x (leNat p.desc) (~~~x.empties) (~~~x.empties)).map (portStep (leNat p.desc) p)).any (fun t => match t.elem with
      | some _ => !p.ahead.any (fun a => a.1 == t.lane && a.2.1 == cget 0 p.steps t.lane)
      | none => false)

/-- The next step of a sequence waits on a starved port (R218). -/
def State.starvedOp (s : State) (o : MatOp) : Bool :=
  decide (o.kind ≤ 2) && decide (0 < o.steps)
    && (s.group? o.g).any (fun (x : Group) => o.portA.any (fun k => x.starved k) || o.portB.any (fun k => x.starved k))

/-- MATRIX_OP_START (R218): the oldest operation that can start; a sequence that a starved port holds gives way to the oldest one that is
ready. -/
def execMatrixOpStart (core : Nat) (s : State) : Host.Outcome State Fault Refusal :=
  .next (
    let c := s.core core
    match c.runningOp with
    | none => match c.mq.find? (s.startable c.mq) with
      | some o => s.setOp core { o with running := true }
      | none => s
    | some r =>
      if s.starvedOp r then
        match c.mq.find? (fun o => s.startable c.mq o && !s.starvedOp o) with
        | some o => (s.setOp core { r with running := false }).setOp core { o with running := true }
        | none => s
      else s)

/-- A suspended operation: it keeps its locks and its remaining count; the cause waits for delivery (R240). -/
def State.suspendOp (s : State) (core : Nat) (o : MatOp) (a : Async) : State :=
  ((s.setOp core { o with suspended := true, running := false }).modGroup o.g (fun x => { x with asyncMat := some a })).unhold core

/-- `%tinfo` of a matrix cause (R241). -/
def matInfo (rem col row port : Nat) : Word64 :=
  BitVec.ofNat 64 (packFields [(port, 0), (row, 4), (col, 9), (1, 14), (rem, 32)])

/-! ### One step (R54 to R57, R232) -/

/-- One slice of a fragment: its bits, and whether a source word of it is poisoned. -/
abbrev Slice := Nat × Bool

/-- The slices of a lane's fragment of a register source, each `f` bytes, and the zero words skipped (R221, R222, R232). -/
def regSlices (x : Group) (a f n : Nat) : List Slice × Nat :=
  ((List.range n).map (fun q => let r := readWords x.rf.win (a + q * f) f; (r.1, r.2.1)), (readWords x.rf.win a (f * n)).2.2)

/-- The slices of a block popped from a port: a lane without a pop receives the FILL bytes (R233). -/
def portSlices (pops : List (Nat × Nat × Bool)) (fill f n l : Nat) : List Slice :=
  let (v, p) := ((pops.find? (fun q => q.1 == l)).map (fun q => q.2)).getD (fill, false)
  (List.range n).map (fun q => ((v >>> (8 * f * q)) % 2 ^ (8 * f), p))

/-- The fragments of the 32 lanes of a source. -/
def sourceSlices (x : Group) (port : Option Nat) (adr : List Nat) (pops : List (Nat × Nat × Bool)) (f n : Nat) :
    List (List Slice) × Nat :=
  match port with
  | some k =>
    let fill := ((x.port? k).map (fun p => sdFill (leNat p.desc))).getD 0
    ((List.range 32).map (portSlices pops fill f n), 0)
  | none =>
    let rs := adr.map (fun a => regSlices x a f n)
    (rs.map (fun r => r.1), (rs.map (fun r => r.2)).foldl (· + ·) 0)

/-- A slice of a lane. -/
def sliceAt (fs : List (List Slice)) (l q : Nat) : Slice := ((fs[l]?).bind (fun r => r[q]?)).getD (0, false)

/-- Element k of a slice. -/
def elemAt (t : Ty) (v k : Nat) : Nat := (v >>> (Ty.bits t * k)) % 2 ^ Ty.bits t

/-- The unit value of an element (R55). -/
def unitValue (t : Ty) (v : Nat) : Int := if t = .ts8 then ts8Units v else (smVal (Ty.bits t) v).units 0

/-- Where an output element takes its operands: the slice number, the lane of its B fragment, and the rows of its scales
(R221, R222, R225). -/
structure OutPlace where
  q : Nat
  bLane : Nat
  rowA : Nat
  rowB : Nat

/-- The place of element (i, j) of the tile. -/
def outPlace (b16 : Bool) (i j : Nat) : OutPlace :=
  if b16 then
    let p := 4 * (i / 8) + j / 8
    { q := j / 8, bLane := 8 * (i / 8) + j % 8, rowA := 8 * p + i % 8, rowB := 8 * p + j % 8 }
  else { q := 0, bLane := j, rowA := i, rowB := j }

/-- The factor 2^n mod 255 (R56). -/
def resShift (n : Nat) : Nat := 2 ^ (n % 8)

/-- What a step makes of one element: its code, its poison, and whether its check fails. -/
structure ElemOut where
  row : Nat
  col : Nat
  code : Nat
  pois : Bool
  fails : Bool

/-- An element from its fields (R42). -/
def accPack (value res : Nat) (psn ovf chk : Bool) : Nat :=
  packFields [(value, 0), (res, 80), (psn.toNat, 88), (ovf.toNat, 89), (chk.toNat, 90)]

/-- The scale of a row for element k of a step: its code and poison; the code of 1 without scales (R225). -/
def scaleAt (ob : Cells WP) (w off rows row blk : Nat) : Nat × Bool :=
  let r := readWords ob (bitsOf w 24 16 * 128 + off * 16 + blk * rows + row) 1
  (r.1, r.2.1)

/-- The products of an a80f step, exact, and whether a scale is poisoned (R54, R225). -/
def stepProducts (ob : Cells WP) (w : Nat) (o : MatOp) (pl : OutPlace) (va vb : Nat) : List Val × Bool :=
  let bl := obBlock w
  let one (k : Nat) : Val × Bool :=
    let a := valOf (obFmtA w) (elemAt (obFmtA w) va k)
    let b := valOf (obFmtB w) (elemAt (obFmtB w) vb k)
    if bl = 0 then ((mulVals a b).v, false)
    else
      let blk := o.block + (o.kdone + k) / bl
      let sa := scaleAt ob w (bitsOf w 45 34) (scaleRows o.b16) pl.rowA blk
      let sb := scaleAt ob w (bitsOf w 57 46) (scaleRows o.b16) pl.rowB blk
      ((mulVals (mulVals a (valOf .sx8 sa.1)).v (mulVals b (valOf .sx8 sb.1)).v).v, sa.2 || sb.2)
  let ps := (List.range (stepK w)).map one
  (ps.map (fun p => p.1), ps.any (fun p => p.2))

/-- The bits that a fault inverts in an element's value and in what its check computes (R56, R57). -/
def faultAt (f : StepFault) (t : Ty) (i j : Nat) : Nat × Nat :=
  match f with
  | .none => (0, 0)
  | .shadow r c m k => if t = .a80f ∧ r = i ∧ c = j then (m % 2 ^ 80, k) else (0, 0)
  | .residue r c m k => if t = .a80i ∧ r = i ∧ c = j then (m % 2 ^ 80, k) else (0, 0)

/-- An a80f addition with its shadow check while that is on (R54, R57, R428): the new element's code, and whether the check fails. -/
def floatAdd (protcfg : Word64) (acc sum : Val) (psn ovf chk : Bool) (hit : Nat × Nat) : Nat × Bool :=
  let x := (sumVals .rne [acc, sum]).v
  let code := (round .a80f .rne 0 x).code ^^^ hit.1
  let main := valOf .a80f code
  let inf := main.isInf && !acc.isInf && !sum.isInf
  (accPack code 0 psn (ovf || inf) chk,
   hit != (0, 0) && protcfg.getLsbD 10 && diverges { ty := .a80f, x := x, adds := [acc, sum] } main ((shadowOf .a80f x).struck hit.2))

/-- One element of an a80f step (R54): the exact sum of the products, then one rounded addition. -/
def floatStep (protcfg : Word64) (old : Nat) (ps : List Val) (pois : Bool) (hit : Nat × Nat) : Nat × Bool :=
  floatAdd protcfg (valOf .a80f (old % 2 ^ 80)) (sumVals .rne (.fin false 0 0 :: ps)).v (old.testBit 88 || pois) (old.testBit 89) (old.testBit 90) hit

/-- One element of an a80i step (R55), with its residue check (R56): its code, and whether the check fails. -/
def intStep (w old va vb : Nat) (pois resen : Bool) (hit : Nat × Nat) : Nat × Bool :=
  let sh := accPoint (bitsOf w 14 12) - 6 * tsCount w
  let us := (List.range (stepK w)).map (fun k => (unitValue (obFmtA w) (elemAt (obFmtA w) va k),
    unitValue (obFmtB w) (elemAt (obFmtB w) vb k)))
  let sum := us.foldl (fun (n : Int) u => n + u.1 * u.2) 0
  let res := bitsOf old 87 80
  let rsum := us.foldl (fun n u => n + mod255 u.1 * mod255 u.2 * resShift sh) 0
  let (v0, clamp) := satInt .a80i (signedOf 80 (old % 2 ^ 80) + sum * (2 ^ sh : Nat))
  let v := v0 ^^^ hit.1
  let res' := ((res + rsum) % 255) ^^^ (hit.2 % 256)
  (accPack v (if clamp then mod255 (signedOf 80 v) else res') (old.testBit 88 || pois) (old.testBit 89 || clamp) (old.testBit 90),
   resen && !clamp && (res == 255 || res' != mod255 (signedOf 80 v)))

/-- The elements after a step of a sequence (R232). -/
def State.stepElems (s : State) (x : Group) (o : MatOp) (w : Nat) (fa fb : List (List Slice)) (f : StepFault) : List ElemOut :=
  let ob := (s.teamOf x).ob
  (List.range 32).flatMap (fun i => (List.range 32).map (fun j =>
    let pl := outPlace o.b16 i j
    let a := sliceAt fa i pl.q
    let b := sliceAt fb pl.bLane pl.q
    let old := readWords x.rf.win ((o.adrD[i]?).getD 0 + 12 * j) 12
    let hit := faultAt f o.ty i j
    if o.ty = .a80i then
      let pois := a.2 || b.2 || old.2.1
      let r := intStep w old.1 a.1 b.1 pois (s.host.protcfg.getLsbD 11) hit
      { row := i, col := j, code := r.1, pois := pois, fails := r.2 }
    else
      let ps := stepProducts ob w o pl a.1 b.1
      let pois := a.2 || b.2 || ps.2 || old.2.1
      let r := floatStep s.host.protcfg old.1 ps.1 pois hit
      { row := i, col := j, code := r.1, pois := pois, fails := r.2 }))

/-- Writes the elements of a tile through `rswrite` (R232). -/
def Group.writeElems (x : Group) (adr : List Nat) (es : List ElemOut) : Group :=
  es.foldl (fun x e => x.rswrite ((adr[e.row]?).getD 0 + 12 * e.col) 12 e.code e.pois) x

/-- Sets CHK in the elements that failed (R240). -/
def Group.markFailed (x : Group) (adr : List Nat) (es : List ElemOut) : Group :=
  es.foldl (fun x e => if e.fails then
      let a := (adr[e.row]?).getD 0 + 12 * e.col + 11
      let b := (readWords x.rf.win a 1).1
      x.rswrite a 1 (b ||| 4) false
    else x) x

/-- Suspends an operation whose check failed: SHADOW_DIVERGE for a80f, RESIDUE_FAIL for a80i (R240, R241); the failure counts against its core
(R426). -/
def State.failOp (s : State) (core : Nat) (o : MatOp) (es : List ElemOut) : State :=
  let e := (es.find? (fun e => e.fails)).getD { row := 0, col := 0, code := 0, pois := false, fails := true }
  ((s.checkFailed core).modGroup o.g (fun x => x.markFailed o.adrD es)).suspendOp core o
    { cause := if o.ty = .a80f then cSHADOW_DIVERGE else cRESIDUE_FAIL, info := matInfo o.steps e.col e.row 0 }

/-! ### Pops of a step (R233, R242, R245) -/

/-- The causes of a pop in the order of R180 and R361, the end of a pattern first. -/
def popOrder : List Cause :=
  [cSTREAM_UNBOUND, cSTREAM_END, cADDR_RANGE, cSCR_BOUNDS, cCLU_RANGE, cCOPY_APERTURE, cTIER_ACCESS, cPTE_POISON, cPTE_CRIT, cPTE_INVALID, cPAGE_PERM]

/-- A stop of a pop, by its port. -/
def popCauses (rs : List (Nat × Except Stop (State × List (Nat × Nat × Bool)))) : List (Nat × Cause × Mask × Nat) :=
  rs.filterMap (fun r => match r.2 with | .error (.trap k m _ a) => some (r.1, k, m, a) | .error (.portTrap _ k m a) => some (r.1, k, m, a) | _ => none)

/-- The faults under which the pops of a step park (R361). -/
def popKeys (rs : List (Nat × Except Stop (State × List (Nat × Nat × Bool)))) : List FaultKey :=
  rs.flatMap (fun r => match r.2 with | .error (.park ks) => ks | _ => [])

/-- The effect of a wait that a pop meets on the way to another module (R403). -/
def popHold (rs : List (Nat × Except Stop (State × List (Nat × Nat × Bool)))) : Option (State → State) :=
  firstSome (fun r => match r.2 with | .error (.holdAnd f) => some f | .error .hold => some id | .error .pause => some id | _ => none) rs

/-- The lowest lane whose own pop of a port meets a cause (R242). -/
def State.popLane (s : State) (x : Group) (port : Nat) (k : Cause) (m : Mask) : Nat :=
  match x.port? port with
  | none => lowLane m
  | some p =>
    let v := leNat p.desc
    ((lanesOf m).find? (fun l => match s.portPlaces x port v .pop [portStep v p l] with
      | .error (.trap c _ _ _) => c == k
      | .error (.portTrap _ c _ _) => c == k
      | _ => false)).getD (lowLane m)

/-- A step that a cause of its pops stops: suspended, with the lowest lane that met the cause and its port, A before B
(R240, R242). -/
def State.popSuspend (s : State) (core : Nat) (x : Group) (o : MatOp) (cs : List (Nat × Cause × Mask × Nat)) (k : Cause) : State :=
  let mine := cs.filter (fun q => q.2.1 == k)
  let at_ (q : Nat × Cause × Mask × Nat) := s.popLane x q.1 k q.2.2.1
  let lane := mine.foldl (fun n q => min n (at_ q)) 31
  let q := (mine.find? (fun q => at_ q == lane)).getD (0, k, 0, 0)
  if k = cSTREAM_END then s.suspendOp core o { cause := k, info := matInfo o.steps 0 0 ((mine.head?.map (fun q => q.1)).getD 0) }
  else
    let step := ((x.port? q.1).map (fun p => cget 0 p.steps lane)).getD 0
    s.suspendOp core o { cause := k, info := matInfo o.steps 0 lane q.1, addr := q.2.2.2, stream := some (q.1, step),
                         item := (x.lane lane).item.toNat }

/-- What the matrix unit sets in `%fstat` and `%eos` of a group in a cycle (R4). -/
def Group.hwMark (x y : Group) (cycle : Nat) : Group :=
  let old : HwBits := match x.hwSet with
    | some h => if h.cycle = cycle then h else { cycle := cycle }
    | none => { cycle := cycle }
  { y with hwSet := some { old with fstat := old.fstat ||| (y.sr.fstat &&& ~~~x.sr.fstat), eos := old.eos ||| (y.sr.eos &&& ~~~x.sr.eos) } }

/-- Pops the ports of a step, once each (R233), as they are bound now (R217, log 106); or the state in which the step is stopped: suspended, parked, or waiting as the step
was before. -/
def State.popStep (s : State) (core : Nat) (x : Group) (o : MatOp) : Except State (State × List (Nat × Nat × Nat × Bool)) :=
  let ks := ((o.portA.toList ++ o.portB.toList)).eraseDups
  let m := ~~~x.empties
  let pop (s : State) (k : Nat) :=
    s.popPortAs o.g x k m m 7 (((x.port? k).map (fun p => sdSize (leNat p.desc))).getD 8) o.pc
  let rs := ks.map (fun k => (k, pop s k))
  let cs := popCauses rs
  match popOrder.find? (fun c => cs.any (fun q => q.2.1 == c)) with
  | some k => .error (s.popSuspend core x o cs k)
  | none =>
    if (popKeys rs) ≠ [] then
      .error (s.unlessPushing o.g x ((s.parkOn o.g x (popKeys rs)).capAppend o.g 8 x.pcNow 0 []))
    else match popHold rs with
    | some f => .error (f s)
    | none => .ok (ks.foldl (fun acc k => match pop acc.1 k with
      | .ok (s, vs) => (s, acc.2 ++ vs.map (fun v => (k, v)))
      | .error _ => acc) (s, []))

/-- The granules that an operation touches wake (R74). -/
def State.wakeFor (s : State) (g : Nat) (rs : List Run) : State :=
  s.wakeGranules g ((rs.flatMap (fun r => (List.range ((r.n - 1) / 4096 + 2)).filterMap (fun i =>
    let k := r.a.toNat / 4096 + i
    if r.n ≠ 0 ∧ 4096 * k < r.a.toNat + r.n then some k else none))).eraseDups)

/-- One step of a sequence (R232). -/
def State.stepSequence (s : State) (core : Nat) (x : Group) (o : MatOp) (f : StepFault) : State :=
  let w := s.obWord x.team o.res
  match s.popStep core x o with
  | .error s => s
  | .ok (s', pops) =>
    let s' := s'.modGroup o.g (fun y => x.hwMark y s.cycle)
    let mine (p : Option Nat) := (pops.filter (fun q => some q.1 == p)).map (fun q => q.2)
    let n := if o.b16 then 4 else 1
    let fa := sourceSlices x o.portA o.adrA (mine o.portA) (fragLen (obFmtA w) (stepK w)) n
    let fb := sourceSlices x o.portB o.adrB (mine o.portB) (fragLen (obFmtB w) (stepK w)) n
    let es := s.stepElems x o w fa.1 fb.1 f
    -- a failing step is not applied, and its pops are not consumed (R214, R240)
    if es.any (fun e => e.fails) then s.failOp core o es
    else
      let s := s'.wakeFor o.g (({ o with steps := 1 } : MatOp).fullLock ++ s.writeLock x.team { o with steps := 1 })
      let s := s.modGroup o.g (fun x => x.skip (fa.2 + fb.2))
      let bl := obBlock w
      let kd := o.kdone + stepK w
      (s.modGroup o.g (fun x => x.writeElems o.adrD es)).setOp core { o with
        steps := o.steps - 1,
        block := if bl = 0 then o.block else o.block + kd / bl,
        kdone := if bl = 0 then 0 else kd % bl,
        adrA := o.adrA.map (fun (a : Nat) => ((a : Int) + o.incA).toNat),
        adrB := o.adrB.map (fun (b : Nat) => ((b : Int) + o.incB).toNat) }

/-- MATRIX_STEP (R232): the running sequence applies its next step. -/
def execMatrixStep (core : Nat) (fault : StepFault) (s : State) : Host.Outcome State Fault Refusal :=
  .next (match (s.core core).runningOp with
    | none => s
    | some o =>
      match s.group? o.g with
      | none => s
      | some x => if 2 < o.kind ∨ o.steps = 0 ∨ !x.unitRuns then s else s.stepSequence core x o fault)

/-! ### Completion (R234, R236 to R238) -/

/-- Writes zero to a tile (R236). -/
def Group.zeroTile (x : Group) (adr : List Nat) : Group := adr.foldl (fun x a => x.rswrite a 384 0 false) x

/-- One element of MACC (R237): its code and whether its check fails. -/
def maccElem (t : Ty) (a b : Nat) (pois : Bool) (protcfg : Word64) (hit : Nat × Nat) : Nat × Bool :=
  let psn := a.testBit 88 || b.testBit 88 || pois
  let chk := a.testBit 90 || b.testBit 90
  if t = .a80f then
    floatAdd protcfg (valOf .a80f (a % 2 ^ 80)) (valOf .a80f (b % 2 ^ 80)) psn (a.testBit 89 || b.testBit 89) chk hit
  else
    let (v0, clamp) := satInt .a80i (signedOf 80 (a % 2 ^ 80) + signedOf 80 (b % 2 ^ 80))
    let v := v0 ^^^ hit.1
    let ra := bitsOf a 87 80
    let rb := bitsOf b 87 80
    (accPack v (mod255 (signedOf 80 v)) psn (a.testBit 89 || b.testBit 89 || clamp) chk,
     protcfg.getLsbD 11 && !clamp && (ra == 255 || rb == 255 || ((ra + rb) % 255) ^^^ (hit.2 % 256) != mod255 (signedOf 80 v)))

/-- The elements of a MACC: both tiles are read before any byte is written (R237). -/
def State.maccElems (s : State) (x : Group) (o : MatOp) (f : StepFault) : List ElemOut :=
  (List.range 32).flatMap (fun i => (List.range 32).map (fun j =>
    let rd (adr : List Nat) := readWords x.rf.win ((adr[i]?).getD 0 + 12 * j) 12
    let a := rd o.adrA
    let b := rd o.adrB
    let pois := a.2.1 || b.2.1
    let r := maccElem o.ty a.1 b.1 pois s.host.protcfg (faultAt f o.ty i j)
    { row := i, col := j, code := r.1, pois := pois, fails := r.2 }))

/-- The zero-flagged words that reading a tile skips (R61): 384 bytes in each of the rows. -/
def Group.tileSkips (x : Group) (rows : List Nat) : Nat := (rows.map (fun a => (readWords x.rf.win a 384).2.2)).foldl (· + ·) 0

/-- The value of an element that MCVT converts (R238). -/
def cvtValue (acc code : Nat) : Val :=
  if acc = 0 then valOf .a80f (code % 2 ^ 80)
  else match Val.ofInt (signedOf 80 (code % 2 ^ 80)) with
    | .fin n m e => .fin n m (e - accPoint acc)
    | v => v

/-- A conversion with `.sat`: an overflow gives the largest finite value and sets ST in place of OF (R238). -/
def satConvert (t : Ty) (sat : Bool) (r : Rounded) (v : Val) : Rounded :=
  match Ty.fmt t, v with
  | some f, .fin neg _ _ =>
    if sat && (r.fl &&& flOF) != 0 then { r with code := maxFinite t f neg, fl := (r.fl &&& ~~~flOF) ||| flST } else r
  | _, _ => r

/-- The rounding mode of MCVT's MOD (R228). -/
def cvtMode (m : BitVec 4) : RMode :=
  match m.toNat % 8 with | 0 => .rne | 1 => .rtz | 2 => .rup | 3 => .rdn | _ => .rsto

/-- The row of a lane that MCVT converts, in ascending j: codes with poison, flags, the rounding state after it (R238). -/
def cvtRow (x : Group) (o : MatOp) (a : Nat) (rs : Word32) : List (Nat × Bool) × Flags × Word32 :=
  (List.range 32).foldl (fun (acc : List (Nat × Bool) × Flags × Word32) j =>
    let r := readWords x.rf.win (a + 12 * j) 12
    let v := cvtValue (o.cX.toNat / 4) r.1
    let c := satConvert o.cTy (o.cMod.getLsbD 3) (convert o.cTy (cvtMode o.cMod) acc.2.2 v) v
    (acc.1 ++ [(c.code, r.2.1 || r.1.testBit 88)], acc.2.1 ||| c.fl, c.rs)) ([], 0, rs)

/-- Writes a converted row: each register word with the poison of the elements in it (R238). -/
def Group.writeRow (x : Group) (a tb : Nat) (es : List (Nat × Bool)) : Group :=
  let v := es.foldr (fun e n => e.1 + 2 ^ (8 * tb) * n) 0
  (wordPieces a (tb * es.length)).foldl (fun x p =>
    let pois := ((es.drop (p.1 / tb)).take ((p.1 + p.2 - 1) / tb + 1 - p.1 / tb)).any (fun e => e.2)
    x.rswrite (a + p.1) p.2 ((v >>> (8 * p.1)) % 2 ^ (8 * p.2)) pois) x

/-- MCVT's effect: the whole tile is read before a row is written (R238). -/
def Group.convertTile (x : Group) (o : MatOp) : Group :=
  let rows := (lanesOf o.acts).map (fun l => (l, cvtRow x o ((o.adrA[l]?).getD 0) (x.rstate l)))
  -- the helpers of its issue are not heard (R228, R238)
  let fl := (rows.filter (fun r => o.real.getLsbD r.1)).foldl (fun f r => f ||| r.2.2.1) 0
  let x := x.skip (x.tileSkips ((lanesOf o.acts).map (fun l => (o.adrA[l]?).getD 0)))
  let x := rows.foldl (fun x r => x.writeRow ((o.adrD[r.1]?).getD 0) (Ty.bytes o.cTy) r.2.1) x
  (x.addFlags fl).setStates (rows.map (fun r => (r.1, r.2.2.2)))

/-- An operation leaves the queue and its locks are released (R234). -/
def State.finishOp (s : State) (core : Nat) (o : MatOp) : State :=
  (((s.modCore core (fun c => { c with mq := c.mq.filter (fun p => p.id != o.id) })).modGroup o.g (fun x =>
    { x with cvts := x.cvts.filter (fun q => q.op != o.id) })).refillQueue core).unhold core

/-- The running operation of a core completes (R234): a sequence whose steps are done releases its locks; MZERO, MACC and MCVT
take effect. -/
def State.completeOp (s : State) (core : Nat) (fault : StepFault) : State :=
  match (s.core core).runningOp with
    | none => s
    | some o =>
      match s.group? o.g with
      | none => s.finishOp core o
      | some x =>
        let s' := s.wakeFor o.g (o.fullLock ++ (if o.kind ≤ 2 then [] else s.writeLock x.team o))
        if !x.unitRuns then s
        else if o.kind ≤ 2 then (if o.steps = 0 then s.finishOp core o else s)
        else if o.kind = 3 then (s'.modGroup o.g (fun x => x.zeroTile o.adrD)).finishOp core o
        else if o.kind = 4 then
          let es := s.maccElems x o fault
          if es.any (fun e => e.fails) then s'.failOp core o es
          else (s'.modGroup o.g (fun x => (x.skip (x.tileSkips o.adrA + x.tileSkips o.adrB)).writeElems o.adrD es)).finishOp core o
        else (s'.modGroup o.g (fun x => x.hwMark (x.convertTile o) s'.cycle)).finishOp core o

/-- MATRIX_OP_COMPLETE (R234). -/
def execMatrixOpComplete (core : Nat) (fault : StepFault) (s : State) : Host.Outcome State Fault Refusal := .next (s.completeOp core fault)

end Sys2Proof.Machine
end

