-- ==== Sys2Proof/Machine/Sched.lean ====
section
/-! DEFINITION. Steps of the scheduler of a core: completions, traps, swaps, sketches, parking, granules, the watchdog, words
that are no instruction (R74, R80, R88, R92, R165, R307, R312 to R318, R341, R429, R430). -/

namespace Sys2Proof.Machine

/-! ### Completions, traps, asynchronous causes -/

/-- A sketch whose held load has returned its data ends silently (R314). -/
def State.sketchDue (s : State) (g : Nat) : State :=
  s.modGroup g (fun x => if x.sketch.isSome && !(s.holders x).any (fun p => p.missL2) then { x with sketch := none } else x)

/-- LONG_LATENCY_COMPLETE (R88): the group's oldest pending instruction writes its destinations; a sketch that ran while its load was
awaited ends (R314). -/
def execLongLatencyComplete (g : Nat) (s : State) : Host.Outcome State Fault Refusal :=
  .next (match s.group? g with
    | none => s
    | some x => match x.pend with
      | [] => s
      | p :: r => ((s.wakeGranules g p.granules).modGroup g (fun x => { x.complete p with pend := r, held := false })).sketchDue g)

/-- TRAP_ENTRY (R165): a cause that can be raised is taken for lanes of the chosen entry of a group that runs (R425); a failed check counts
(R426). -/
def execTrapEntry (g : Nat) (cause : BitVec 9) (mask : Mask) (info : Word64) (s : State) : Host.Outcome State Fault Refusal :=
  .next (match s.group? g with
    | none => s
    | some x =>
      match x.chosen with
      | none => s
      | some e =>
        if x.canResume && raisable cause && (mask &&& e.mask) != 0 && (mask &&& ~~~e.mask) == 0 then
          let t := if cause = cSHADOW_DIVERGE ∨ cause = cRESIDUE_FAIL then s.checkFailed x.core else s
          s.unlessBusy g x ((t.takeTrap g cause mask info 0).capAppend g 8 e.pc.toNat mask [])
        else s)

/-- Delivers a pending asynchronous cause at an issue boundary (R240, R316): the matrix cause first. The chosen entry becomes the
handler's; a barrier wait is set aside (log 15); the delivery of WATCHDOG starts the second interval (R431). -/
def State.deliverAsync (s : State) (g : Nat) (x : Group) (e : Ent) (a : Async) (mat : Bool) : State :=
  let wd := if mat then x.wd
    else { x.wd with second := some (if a.info.getLsbD 0 then 65536 else x.wd.interval) }
  let x := { x with
    asyncMat := if mat then none else x.asyncMat, asyncWd := if mat then x.asyncWd else none, wd := wd,
    waitHeld := x.wait, wait := none }
  ((s.setGroup g x).enterTrap g a.cause e.mask a.info (fun r =>
    { r with addr := a.addr, stream := a.stream, item := if a.stream.isSome then a.item else r.item })).capAppend g 8 e.pc.toNat e.mask []

/-- A group can take an asynchronous cause now: it is at an issue boundary outside handler mode; a group in a wait takes one only
when a dead wait has given it WATCHDOG (R316, R430). -/
def Group.takesAsync (x : Group) : Bool :=
  x.st == .active && !x.handler && x.sleepEnd.isNone && (x.wait.isNone || (x.awaits.isSome && x.asyncWd.isSome))

/-- The asynchronous cause that a group would take now, and whether it is a matrix cause. -/
def Group.asyncNow (x : Group) : Option (Async × Bool) :=
  if x.takesAsync then
    match x.asyncMat, x.asyncWd with
    | some a, _ => some (a, true)
    | none, some a => some (a, false)
    | none, none => none
  else none

/-- ASYNC_CAUSE_DELIVERY (R316): at the chosen entry, which a group without lanes has not (R246, log 107). -/
def execAsyncCauseDelivery (g : Nat) (s : State) : Host.Outcome State Fault Refusal :=
  .next (match s.group? g with
    | none => s
    | some x =>
      match x.asyncNow, x.chosen with
      | some (a, mat), some e => if s.mayRun x then s.unlessBusy g x (s.deliverAsync g x e a mat) else s
      | _, _ => s)

/-! ### Swaps (R304, R307) -/

/-- The active groups of a core. -/
def State.activeOn (s : State) (core : Nat) : List (Nat × Group) :=
  s.groups.filter (fun p => p.2.core == core && p.2.st == .active)

/-- The waiting active group that leaves first: the youngest, among equals the higher group number (R307). -/
def State.youngestWait (s : State) (core : Nat) : Option (Nat × Group) :=
  (s.activeOn core).foldl (fun (b : Option (Nat × Group)) p =>
    if s.longWait p.1 p.2 then
      match b with
      | none => some p
      | some q => if q.2.seniority < p.2.seniority ∨ (q.2.seniority = p.2.seniority ∧ q.2.num < p.2.num) then some p else b
    else b) none

/-- GROUP_SWAP (R307): the oldest ready pending group takes a free place, or that of a group in a long-latency wait; only the
exchange counts in SWAPS (R176, log 104). -/
def execGroupSwap (core : Nat) (s : State) : Host.Outcome State Fault Refusal :=
  .next (
    if (s.activeOn core).length < Config.activePlaces then
      match s.nextReady core with
      | some (h, y) => s.promote h y
      | none => s
    else match s.youngestWait core with
      | some p => s.swapOut p.1
      | none => s)

/-! ### Sketch contexts (R312 to R314) -/

/-- The views of a sketch: `v0`–`v7`, `w0`–`w15`; `t` and `c` have COUNT 0 (R313). -/
def sketchViews : Cells Word64 :=
  [(0, BitVec.ofNat 64 (packFields [(8, 0), (3, 16), (8, 20), (256, 32)])),
   (1, BitVec.ofNat 64 (packFields [(16, 0), (2, 16), (4, 20), (128, 32)]))]

/-- The live-in registers that a header names: scalars, and vector registers by view and number, as wide as their elements (R99, R312). -/
def sketchLiveIns (x : Group) (h : Hdr) : List Use :=
  h.sks.map (fun k => { o := .scal k, n := 8, lanes := ~~~0 })
    ++ h.skv.map (fun v => { o := .view v.1 (v.2.setWidth 16), n := min 8 ((vwWidth (x.view v.1.toNat)).getD 8), lanes := ~~~0 })

/-- The groups of a core that run a sketch. -/
def State.sketchesOn (s : State) (core : Nat) : Nat := (s.groups.filter (fun p => p.2.core == core && p.2.sketch.isSome)).length

/-- The start of a group's sketch (R313). -/
def sketchStart (x : Group) (e : Ent) (h : Hdr) : Sketch :=
  let width (k : BitVec 2) : Nat := min 8 ((vwWidth (x.view k.toNat)).getD 1)
  let win := (h.skv.zip (List.range h.skv.length)).foldl (fun (t : Cells WP) v =>
    (List.range 32).foldl (fun (t : Cells WP) l =>
      let r := readWords x.rf.win (vwAddr (x.view v.1.1.toNat) v.1.2.toNat l) (width v.1.1)
      (writeWords t (256 * v.2 + 8 * l) 8 r.1 r.2.1).1) t) []
  { ids := (List.range 32).foldl (fun (t : Cells (Word32 × Word32)) l => cput (0, 0) t l ((x.lane l).item, (x.lane l).age)) [],
    win := win,
    scal := h.sks.foldl (fun (t : Cells PW) k => cput {} t k.toNat (cget {} x.rf.scal k.toNat)) [],
    rstates := (List.range 32).foldl (fun (t : Cells Word32) l => cput 0 t l (x.rstate l)) [],
    frontier := [{ pc := h.skEntry, prio := 0x800, mask := e.mask &&& ~~~x.helpers &&& ~~~x.empties }] }

/-- A group may have a sketch spawned now (R312; dependences as log 24 says). -/
def State.maySketch (s : State) (x : Group) : Bool :=
  let h := (s.launchOf x).hdr
  x.canResume && x.slot.isSome && h.skp && !x.handler && x.sketch.isNone
    && decide (s.sketchesOn x.core < (s.core x.core).sketchSlots)
    && (s.holders x).any (fun p => p.missL2)
    && (dependsOn x (sketchLiveIns x h)).isEmpty

/-- No older group of the core may have a sketch spawned (R312). -/
def State.firstToSketch (s : State) (x : Group) : Bool :=
  !s.groups.any (fun p => p.2.core == x.core && decide (p.2.seniority < x.seniority) && s.maySketch p.2 && p.2.chosen.isSome)

/-- SKETCH_SPAWN (R312, R313): the oldest group that qualifies is served first. -/
def execSketchSpawn (g : Nat) (s : State) : Host.Outcome State Fault Refusal :=
  .next (match s.group? g with
    | none => s
    | some x =>
      match x.chosen with
      | none => s
      | some e =>
        if s.maySketch x && s.firstToSketch x then
          (s.setGroup g { x with sketch := some (sketchStart x e (s.launchOf x).hdr) }).count x.core 3 1
        else s)

/-- The group as its sketch sees it: its own window, files, frontier and flags, `%item` and `%age` as they were at spawn; no pending
instruction, port, last access or handler (R313). -/
def sketchGroup (x : Group) (k : Sketch) : Group :=
  { x with
    slot := none, st := .active, handler := false, frontier := k.frontier, hfrontier := [], ports := [], pend := [], cvts := [],
    wait := none, waitHeld := none, held := false, sleepEnd := none, yieldEnd := none, asyncMat := none, asyncWd := none,
    sketch := none,
    rf := { x.rf with wbytes := 2048, win := k.win, vw := sketchViews, ofile := k.ofile, lf := k.lf, scal := k.scal, preds := k.preds,
                      gran := [] },
    sr := { x.sr with fstat := k.fstat },
    lanes := (List.range 32).foldl (fun (t : Cells Lane) l =>
      cput ({} : Lane) t l { x.lane l with
        item := (cget (0, 0) k.ids l).1, age := (cget (0, 0) k.ids l).2, rstate := cget 0 k.rstates l, rstk := cget [] k.rstks l }) x.lanes }

/-- The sketch after an instruction of it, from the group as the sketch saw it. -/
def sketchAfter (k : Sketch) (y : Group) : Sketch :=
  let y := y.completeAll
  { k with
    win := y.rf.win, ofile := y.rf.ofile, lf := y.rf.lf, scal := y.rf.scal, preds := y.rf.preds, frontier := y.frontier,
    fstat := y.sr.fstat, count := k.count + 1,
    rstates := (List.range 32).foldl (fun (t : Cells Word32) l => cput 0 t l (y.rstate l)) [],
    rstks := (List.range 32).foldl (fun (t : Cells (List Ret)) l => cput [] t l (y.lane l).rstk) [] }

/-- An operand names a port. -/
def isPort : Opnd → Bool
  | .port _ => true
  | _ => false

/-- The instructions that a sketch may execute (R314). -/
def sketchAllows (i : Instr) : Bool :=
  match i.parts with
  | none => false
  | some (op, e) =>
    let ranges := [(0x040, 0x062), (0x0C0, 0x0D3), (0x140, 0x145), (0x180, 0x18A)]
    let names := [0x000, 0x001, 0x002, 0x00F, 0x015, 0x1C0, 0x1C2, 0x1C4]
    (ranges.any (fun r => decide (r.1 ≤ op) && decide (op ≤ r.2)) || names.contains op)
      && !(isPort e.d || isPort e.a || isPort e.b)

/-- The sketch of a group ends, counted in SKILL when an instruction or a cause ended it (R176, R314). -/
def State.endSketch (s : State) (g : Nat) (kill : Bool) : State :=
  match s.group? g with
  | none => s
  | some x =>
    let s := s.setGroup g { x with sketch := none }
    if kill && x.sketch.isSome then s.count x.core 4 1 else s

/-- A sketch's loads are performed as relaxed (R314); LDPK and PREF have no ordering field (R183). -/
def relaxed : Instr → Instr
  | .ld e => .ld { e with mod := e.mod &&& 3 }
  | i => i

/-- The next instruction of a sketch, in the state in which it runs; none if it may not or cannot run (R314). Capture, replay and
the other groups see nothing of it. -/
def State.sketchNext (s : State) (g : Nat) (x : Group) (k : Sketch) : Option (State × Instr) :=
  let y := sketchGroup x k
  let t := { s with groups := [(g, y)], cur := g, caps := [], replays := [] }
  (t.nextInstr y).bind (fun i => if sketchAllows i then some (t, relaxed i) else none)

/-- The state after a sketch's instruction: caches and translations keep what it did; a cause, or a park, ends the sketch with
nothing of it kept; an instruction that is held has not executed: nothing is recorded of it and it does not count (R314). -/
def State.sketchBack (s t : State) (g : Nat) (x : Group) (k : Sketch) : State :=
  match t.group? g with
  | none => s.endSketch g true
  | some y =>
    if y.handler || y.st != .active then s.endSketch g true
    else if y.held then s
    else
      let k' := sketchAfter k y
      { t with
        groups := tput s.groups g { x with sketch := if k'.count < 256 ∧ k'.frontier ≠ [] then some k' else none },
        cur := s.cur, caps := s.caps, replays := s.replays }

/-- SKETCH_END (R314): the reason must hold. A cause that the sketch's own instruction meets ends it in that step; the event's is one that
its hardware meets, such as an error of a structure that it reads, and is taken at its word (log 14). -/
def execSketchEnd (g : Nat) (why : SketchEnd) (s : State) : Host.Outcome State Fault Refusal :=
  .next (match s.group? g with
    | none => s
    | some x =>
      match x.sketch with
      | none => s
      | some k =>
        match why with
        | .forbidden => if (s.sketchNext g x k).isNone then s.endSketch g true else s
        | .cause => s.endSketch g true
        | .count => if 256 ≤ k.count then s.endSketch g false else s
        | .dataReturned => if (s.holders x).any (fun p => p.missL2) then s else s.endSketch g false
        | .parent => if x.canResume && !x.handler then s else s.endSketch g false)

/-! ### Parking (R318) -/

/-- GROUP_PARK (R318): a group whose fetch meets an absent page parks; the frame of a group that is parked or frozen, for which the save area
had no room, is written (log 16). -/
def execGroupPark (g : Nat) (s : State) : Host.Outcome State Fault Refusal :=
  .next (match s.group? g with
    | none => s
    | some x =>
      if x.st = .parked ∨ x.st = .frozen then s.placeFrame g
      else match x.chosen with
        | none => s
        | some e =>
          if x.issuable && s.mayRun x && decide (e.pc.toNat < s.codeEnd x) then
            match s.fetchPlace x e with
            | .error (.park ks) => s.unlessBusy g x (s.unlessPushing g x ((s.parkOn g x ks).capAppend g 8 e.pc.toNat e.mask []))
            | _ => s
          else s)

/-! ### Granules (R74) -/

/-- A granule that a window holds. -/
def Group.hasGranule (x : Group) (k : Nat) : Bool := decide (4096 * k < x.rf.wbytes) && x.st != .ended && x.st != .saved

/-- A granule has had no access for 256 cycles, during which its group was pending, or parked with its window resident (R74). -/
def State.granuleIdle (s : State) (x : Group) (k : Nat) : Bool :=
  (x.st == .pending || x.st == .parked) && decide (max x.restFrom (cget 0 x.rf.touch k) + 256 ≤ s.cycle)

/-- GRANULE_DROWSY (R74): a granule that has been idle for 256 cycles goes drowsy. -/
def execGranuleDrowsy (g granule : Nat) (s : State) : Host.Outcome State Fault Refusal :=
  .next (s.modGroup g (fun x =>
    if x.hasGranule granule && s.granuleIdle x granule && cget GranSt.awake x.rf.gran granule == .awake then
      { x with rf := { x.rf with gran := cput .awake x.rf.gran granule .drowsy } }
    else x))

/-- DROWSY_WAKE (R74): an access wakes the granule, and is counted (R176). -/
def execDrowsyWake (g granule : Nat) (s : State) : Host.Outcome State Fault Refusal := .next (s.wakeGranules g [granule])

/-! ### The watchdog (R429, R430) -/

/-- WATCHDOG (R429): the count has reached the interval. -/
def execWatchdog (g : Nat) (s : State) : Host.Outcome State Fault Refusal :=
  .next (s.modGroup g Group.watchdogDue)

/-- DEAD_WAIT_EXPIRY (R430): a barrier wait has been dead for 65,536 cycles. -/
def execDeadWaitExpiry (g : Nat) (s : State) : Host.Outcome State Fault Refusal :=
  .next (match s.group? g with
    | none => s
    | some x => s.setGroup g (s.deadDue x))

/-! ### Words that are no instruction (R80, R92) -/

/-- The cause of a word that decode rejects (R90). -/
def decodeCause : DecodeCause → Cause
  | .fillOpcode => cFILL_OPCODE
  | .illegalOpcode => cILLEGAL_OPCODE
  | .illegalHint => cILLEGAL_HINT
  | .illegalType => cILLEGAL_TYPE
  | .illegalRounding => cILLEGAL_ROUNDING
  | .illegalMod => cILLEGAL_MOD
  | .illegalClass => cILLEGAL_CLASS
  | .illegalSysreg => cILLEGAL_SYSREG

/-- A cause for the lanes of the current group's chosen entry, if the group can issue (R89, log 13). -/
def State.entryTrap (s : State) (cause : Cause) (p : Group → Ent → Bool) : State :=
  match s.group? s.cur with
  | none => s
  | some x =>
    match x.chosen with
    | none => s
    | some e =>
      if x.issuable && s.mayRun x && p x e then
        let m := e.mask &&& ~~~x.empties
        s.unlessBusy s.cur x ((s.takeTrap s.cur cause m 0 0).capAppend s.cur 8 e.pc.toNat m [])
      else s

/-- ILLEGAL_OPCODE (R92): a fetched word that decode rejects raises its cause. -/
def execIllegalOpcode (why : DecodeCause) (s : State) : Host.Outcome State Fault Refusal :=
  .next (s.entryTrap (decodeCause why) (fun _ _ => true))

/-- FETCH_BOUNDS (R80, R268): a PC at CODELEN or above, or at 32,768 or above in handler mode. -/
def execFetchBounds (s : State) : Host.Outcome State Fault Refusal :=
  .next (s.entryTrap cFETCH_BOUNDS (fun x e => decide (s.codeEnd x ≤ e.pc.toNat)))

/-! ### Merge windows (R341) -/

/-- MERGE_WINDOW_GRANT (R341): the merge window under way runs to its end, and the write requests that have reached the coherence points are
granted in ascending number. -/
def execMergeWindowGrant (s : State) : Host.Outcome State Fault Refusal := .next (s.passCycles (s.windowEnd - s.cycle))

end Sys2Proof.Machine
end

