-- ==== Sys2Proof/Machine/Work.lean ====
section
/-! DEFINITION. Launches: the launch record and its checks (R282, R283, R99), dispatch (R285, R286), clusters, their order and
their placement (R289, R294 to R297, R303), the start of teams (R27, R291 to R293), the end of groups, teams, clusters and
launches (R287, R300, R301). -/

namespace Sys2Proof.Machine

/-! ### Fields of a launch record, given as a number (R282) -/

/-- TEAMS + 1. -/
def lrTeams (v : Nat) : Nat := bitsOf v 207 192 + 1
/-- GRP + 1. -/
def lrGroups (v : Nat) : Nat := bitsOf v 211 208 + 1
/-- CLU + 1. -/
def lrClu (v : Nat) : Nat := bitsOf v 214 212 + 1
/-- VDIE0. -/
def lrVdie0 (v : Nat) : Nat := bitsOf v 231 216
/-- NVDIE. -/
def lrNvdie (v : Nat) : Nat := bitsOf v 239 232
/-- CURVE. -/
def lrCurve (v : Nat) : Nat := bitsOf v 241 240
/-- TILEW. -/
def lrTileW (v : Nat) : Nat := bitsOf v 271 256
/-- TILEH. -/
def lrTileH (v : Nat) : Nat := bitsOf v 287 272
/-- ITEM0. -/
def lrItem0 (v : Nat) : Nat := bitsOf v 159 128
/-- NITEM. -/
def lrNitem (v : Nat) : Nat := bitsOf v 191 160
/-- PRVB. -/
def lrPrvb (v : Nat) : Nat := bitsOf v 383 320
/-- ARGk. -/
def lrArg (v k : Nat) : Nat := bitsOf v (639 + 64 * k) (576 + 64 * k)
/-- WAIT. -/
def lrWait (v : Nat) : Bool := v.testBit 27
/-- WCTR. -/
def lrWctr (v : Nat) : Nat := bitsOf v 44 32
/-- ORD. -/
def lrOrd (v : Nat) : Bool := v.testBit 26
/-- PERS. -/
def lrPers (v : Nat) : Bool := v.testBit 24

/-- A launch's record as a number. -/
def Launch.word (l : Launch) : Nat := leNat l.lrec

/-! ### Checks of a record (R283) -/

/-- Check 1: LCRC is wrong. -/
def lrecCrcWrong (bs : List Byte) : Bool := leNat (bs.drop 252) != (crc32 (bs.take 252)).toNat

/-- The fields that check 2 looks at, without the counters. -/
def lrecMalformed (v ctx : Nat) : Bool :=
  bitsOf v 15 0 != 1
    || bitsOf v 2015 1088 != 0 || bitsOf v 447 414 != 0 || bitsOf v 399 398 != 0 || bitsOf v 255 242 != 0 || v.testBit 215
    || bitsOf v 63 45 != 0 || bitsOf v 31 28 != 0 || v.testBit 23
    || bitsOf v 70 64 != 0 || bitsOf v 450 448 != 0 || bitsOf v 351 320 != 0
    || bitsOf v 22 16 != ctx || lrNitem v == 0 || lrNvdie v == 0
    || decide (2 ^ 32 - 1 < lrItem0 v + lrNitem v)
    || decide (2 ^ 55 < lrPrvb v + lrTeams v * 2 ^ 36)

/-- Check 2's counters: every one that the record uses belongs to the context, and WCTR holds no task. -/
def State.lrecCounters (s : State) (v ctx : Nat) : Bool :=
  let owns (k : Nat) : Bool := (s.ctr k).owner == some ctx
  (!v.testBit 397 || owns (bitsOf v 396 384)) && (!v.testBit 413 || owns (bitsOf v 412 400))
    && (!lrWait v || (owns (lrWctr v) && (s.ctr (lrWctr v)).task.isNone))

/-- Checks 1 and 2 of a record at the head of a queue. -/
def State.headCause (s : State) (bs : List Byte) (ctx : Nat) : Option Cause :=
  if lrecCrcWrong bs then some cLREC_CRC
  else if lrecMalformed (leNat bs) ctx || !s.lrecCounters (leNat bs) ctx then some cLREC_INVALID
  else none

/-! ### The hub's own accesses through a context's tables -/

/-- Translates an address for the hub, which has neither TLB nor walk cache: die 15 names none. -/
def State.hubWalk (s : State) (d : CtxDesc) (k : AccKind) (va : Nat) : XOut := s.walked 15 d k va

/-- Bytes within one page that the hub reads; none if they cannot be read (R99), as where their address is out of range (R177). -/
def State.hubRead (s : State) (d : CtxDesc) (va n : Nat) : Option (List Byte) :=
  if 2 ^ 55 < va + n then none else match s.hubWalk d .read va with
  | .ok pa _ _ _ => if s.memPoison pa n then none else some (s.memBytes pa n)
  | _ => none

/-- An access of the hub waits: the page is migrating, a write meets a page that the etcher has still to copy (R361, R369, R370), or no request
can go to its module (R399, R400). -/
def State.hubWaits (s : State) (d : CtxDesc) (k : AccKind) (va : Nat) : Bool :=
  decide (va < 2 ^ 55) && (match s.hubWalk d k va with
    | .mig | .cw => true
    | .ok pa _ _ _ => s.pathHeld hubAgent (pa >>> 43)
    | _ => false)

/-- The hub holds a request that cannot go to its module (R400). -/
def State.hubHold (s : State) (d : CtxDesc) (k : AccKind) (va : Nat) : State :=
  match s.hubWalk d k va with
  | .ok pa _ _ _ =>
    if s.pathHeld hubAgent (pa >>> 43) then s.holdPath hubAgent (pa >>> 43) { cause := 0, sev := 0, scope := 2, unit := 14, die := 12 } else s
  | _ => s

/-- A read of the hub reaches its memory: the fabric, or the pseudo-channels (R380, R398). -/
def State.hubUse (s : State) (d : CtxDesc) (va n : Nat) : State :=
  match s.hubWalk d .read va with
  | .ok pa _ _ _ => (s.fabSend (pa >>> 43)).hbmTouch pa n false
  | _ => s

/-- The cause of a walk of the hub that a malformed, critical or poisoned entry ends. -/
def State.hubCause (s : State) (d : CtxDesc) (k : AccKind) (va : Nat) : Cause :=
  match s.hubWalk d k va with
  | .bad c => c
  | _ => 0

/-- Bytes within one page that the hub writes: D is set in the leaf (R358); none for a fault, an address out of range among them (R177). -/
def State.hubWrite (s : State) (d : CtxDesc) (va : Nat) (bs : List Byte) : Option State :=
  if 2 ^ 55 < va + bs.length then none else match s.hubWalk d .write va with
  | .ok pa pte _ addr =>
    let s := s.fabSend (pa >>> 43)
    let s := if pte.testBit 9 then s else s.homeWrite addr (leBytes 8 (leNat (s.memBytes addr 8) ||| 2 ^ 9)) (s.memPoison addr 8)
    some (s.homeWrite pa bs false)
  | _ => none

/-! ### The kernel header (R99) -/

/-- The checks of a header. -/
def hdrRefused (bs : List Byte) : Bool :=
  let v := leNat bs
  let len := bitsOf v 151 128
  let nv := bitsOf v 606 604
  bitsOf v 1023 992 != (crc32 (bs.take 124)).toNat || bitsOf v 15 0 != 1
    || bitsOf v 991 760 != 0 || bitsOf v 703 688 != 0 || bitsOf v 639 607 != 0 || bitsOf v 319 286 != 0 || bitsOf v 255 228 != 0
    || bitsOf v 191 188 != 0 || bitsOf v 63 22 != 0
    || bitsOf v 75 64 != 0
    || (List.range 4).any (fun k => bitsOf v (335 + 64 * k) (332 + 64 * k) != 0)
    || decide (len ≤ bitsOf v 175 152) || decide (len ≤ bitsOf v 215 192) || decide (len ≤ bitsOf v 599 576)
    || decide (512 < bitsOf v 269 260) || decide (256 < bitsOf v 278 270) || decide (64 < bitsOf v 285 279)
    || decide (8 < bitsOf v 603 600) || decide (4 < nv)
    || (List.range nv).any (fun i => decide (2 ≤ bitsOf v (717 + 14 * i) (716 + 14 * i)))

/-- A header after its checks; without a declared refill point, refill uses the entry. -/
def hdrOf (v : Nat) : Hdr :=
  let rfp := v.testBit 16
  { codeBase := BitVec.ofNat 64 (bitsOf v 127 64), codeLen := bitsOf v 151 128,
    entry := BitVec.ofNat 24 (bitsOf v 175 152), entryPrio := BitVec.ofNat 12 (bitsOf v 187 176),
    refill := BitVec.ofNat 24 (if rfp then bitsOf v 215 192 else bitsOf v 175 152),
    refPrio := BitVec.ofNat 12 (if rfp then bitsOf v 227 216 else bitsOf v 187 176),
    skp := v.testBit 17, skEntry := BitVec.ofNat 24 (bitsOf v 599 576),
    sks := (List.range (bitsOf v 603 600)).map (fun i => BitVec.ofNat 6 (bitsOf v (645 + 6 * i) (640 + 6 * i))),
    skv := (List.range (bitsOf v 606 604)).map (fun i =>
      (BitVec.ofNat 2 (bitsOf v (717 + 14 * i) (716 + 14 * i)), BitVec.ofNat 12 (bitsOf v (715 + 14 * i) (704 + 14 * i)))),
    wbytes := 4096 * (bitsOf v 259 256 + 1), scratch := bitsOf v 269 260, bars := bitsOf v 278 270, obuf := bitsOf v 285 279,
    views := (List.range 4).filterMap (fun k =>
      if v.testBit (18 + k) then some (k, BitVec.ofNat 64 (bitsOf v (383 + 64 * k) (320 + 64 * k))) else none) }

/-- The header that a record names; none for KHDR_INVALID (check 3). -/
def State.readHdr (s : State) (d : CtxDesc) (v : Nat) : Option Hdr :=
  (s.hubRead d (bitsOf v 127 64) 128).bind (fun bs => if hdrRefused bs then none else some (hdrOf (leNat bs)))

/-! ### Limits (check 5) -/

/-- The enabled cores of a die (R13). -/
def State.enabledOn (s : State) (die : Nat) : List Nat :=
  ((List.range 64).map (fun i => 64 * die + i)).filter (fun c => (s.core c).enabled && !(s.core c).retired)

/-- A power of two. -/
def isPow2 (n : Nat) : Bool := n != 0 && 2 ^ n.log2 == n

/-- Check 5: a limit of R26, a team larger than a core, a curve whose tile is unfit (R294), a cluster larger than a die of this
module. -/
def State.overLimits (s : State) (d : CtxDesc) (v : Nat) (h : Hdr) : Bool :=
  decide (786432 < lrGroups v * h.wbytes)
    || (decide (2 ≤ lrCurve v) && lrTileW v != 0 && lrTileH v != 0 && (lrTileW v != lrTileH v || !isPow2 (lrTileW v)))
    || (List.range (lrNvdie v)).any (fun i => match s.vdie d (lrVdie0 v + i) with
        | some (m, die) => m == s.modnum.toNat && decide ((s.enabledOn die).length < lrClu v)
        | none => false)

/-- Checks 3 to 5 (R283): the header, or the cause. -/
def State.startCause (s : State) (ctx v : Nat) : Except Cause Hdr :=
  let d := (s.ctx ctx).desc
  match s.readHdr d v with
  | none => .error cKHDR_INVALID
  | some h =>
    if (List.range (lrNvdie v)).any (fun i => (s.vdie d (lrVdie0 v + i)).isNone) then .error cVDIE_ABSENT
    else if s.overLimits d v h then .error cLREC_INVALID
    else .ok h

/-! ### The head of a queue (R283, R285) -/

/-- The record at a queue's head as it is in memory. -/
def State.headBytes (s : State) (x : Queue) : List Byte := s.memBytes (x.recAddr x.head.toNat) 256

/-- QUEUE_HEAD_SERVICE (R283, R285): the record at the head of a queue is checked; a task whose counter is not zero is parked and
the next record becomes the head. -/
def execQueueHeadService (q : BitVec 12) (s : State) : Host.Outcome State Fault Refusal :=
  let k := q.toNat
  let x := s.queue k
  .next (
    if x.st = .enabled ∧ x.head ≠ x.tail ∧ x.headRec.isNone then
      let s := s.hbmTouch (x.recAddr x.head.toNat) 256 false
      let bs := s.headBytes x
      let v := leNat bs
      match s.headCause bs x.ctx with
      | some c => s.refuse k c false x.head
      | none =>
        if lrWait v && (s.ctr (lrWctr v)).value != 0 then
          (s.setCtr (lrWctr v) { s.ctr (lrWctr v) with task := some { queue := k, ctr := some (lrWctr v), lrec := bs } }).setQueue k
            { x with head := x.head + 1 }
        else s.setQueue k { x with headRec := some bs }
    else s)

/-! ### Starting a launch (R286) -/

/-- A queue's next launch: its oldest fired task, else the record at its head (R286): the record, and the counter of a task. A launch that a
recovery starts again stands among the tasks, with no counter where it was none (R414). -/
def Queue.nextLaunch (x : Queue) : Option (List Byte × Option Nat) :=
  match x.fired with
  | t :: _ => some (t.lrec, t.ctr)
  | [] => x.headRec.map (fun bs => (bs, none))

/-- A launch has been wholly placed; one that is no longer held has completed. -/
def State.allPlaced (s : State) (l : Option Nat) : Bool :=
  match l with
  | none => true
  | some l => match s.launch? l with
    | some x => x.toPlace.isEmpty
    | none => true

/-- A launch has completed. -/
def State.completed (s : State) (l : Option Nat) : Bool :=
  match l with
  | none => true
  | some l => (s.launch? l).isNone

/-- A queue's next launch is startable (R286); none of a context starts while saved clusters wait to come back (R270), or between a
STEPADV and its launch's completion (R414). -/
def State.startable? (s : State) (x : Queue) : Bool :=
  match x.nextLaunch with
  | none => false
  | some (bs, _) =>
    let c := s.ctx x.ctx
    x.st == .enabled && s.ctxRuns x.ctx && !c.restoring && c.stepLaunch.isNone && s.allPlaced x.prev
      && (!lrOrd (leNat bs) || s.completed x.prev)

/-- The distance from the queue last served at a priority to a queue, in ascending number with wrap-around (R286). -/
def turnDistance (last : Option Nat) (q : Nat) : Nat :=
  match last with
  | none => q
  | some l => (q + 4096 - (l + 1) % 4096) % 4096

/-- The queue that the dispatcher serves next (R286). -/
def State.nextQueue (s : State) : Option Nat :=
  let better (a b : Nat × Queue) : Bool :=
    decide (b.2.prio < a.2.prio) || (a.2.prio == b.2.prio &&
      decide (turnDistance (cget none s.lastServed a.2.prio) a.1 < turnDistance (cget none s.lastServed a.2.prio) b.1))
  (s.queues.foldl (fun (acc : Option (Nat × Queue)) p =>
    if s.startable? p.2 then
      match acc with
      | none => some p
      | some b => if better p b then some p else some b
    else acc) none).map (fun p => p.1)

/-- The point of a curve at a position of a tile of width n (R294). -/
def hilbertStep (n : Nat) : Nat → Nat → Nat → Nat → Nat → Nat × Nat
  | 0, _, _, x, y => (x, y)
  | fuel + 1, d, sz, x, y =>
    if n ≤ sz then (x, y)
    else
      let rx := (d / 2) % 2
      let ry := (d ^^^ rx) % 2
      let p : Nat × Nat := if ry = 0 then (if rx = 1 then (sz - 1 - y, sz - 1 - x) else (y, x)) else (x, y)
      hilbertStep n fuel (d / 4) (2 * sz) (p.1 + sz * rx) (p.2 + sz * ry)

/-- Bits 0, 2, 4, … of a number. -/
def evenBits (d : Nat) : Nat := (List.range 16).foldl (fun n i => n + (if d.testBit (2 * i) then 2 ^ i else 0)) 0

/-- The point (x, y) of position d (R294). -/
def curvePoint (curve w d : Nat) : Nat × Nat :=
  if curve = 0 then (d % w, d / w)
  else if curve = 1 then (if (d / w) % 2 = 0 then d % w else w - 1 - d % w, d / w)
  else if curve = 2 then (evenBits d, evenBits (d / 2))
  else hilbertStep w 17 d 1 0 0

/-- The teams of a launch in the order of the walk (R294). Rows of a tile that hold no team are not visited in row order and
serpentine. -/
def walkTeams (v : Nat) : List Nat :=
  let t := lrTeams v
  if lrTileW v = 0 ∨ lrTileH v = 0 then List.range t
  else
    let w := lrTileW v
    let size := w * lrTileH v
    let visited := if lrCurve v ≤ 1 then min size ((t + w - 1) / w * w) else size
    (List.range ((t + size - 1) / size)).flatMap (fun tile =>
      ((List.range visited).map (fun d => let p := curvePoint (lrCurve v) w d; tile * size + p.2 * w + p.1)).filter
        (fun n => decide (n < t)))

/-- The clusters in order, each with its virtual die (R295). -/
def clusterOrder (v : Nat) : List (Nat × Nat) :=
  let ks := ((walkTeams v).map (fun t => t / lrClu v)).eraseDups
  (ks.zip (List.range ks.length)).map (fun p => (p.1, lrVdie0 v + p.2 * lrNvdie v / ks.length))

/-- The captures that name a record begin (R432). -/
def State.startCaptures (s : State) (q : Nat) (head : BitVec 16) (ctr : Option Nat) (l : Nat) : State :=
  let hit (c : Cap) : Bool := c.launch.isNone && (match ctr with
    | some k => c.queue.isNone && c.index == k
    | none => c.queue == some q && c.index == head.toNat)
  { s with caps := s.caps.map (fun c => if hit c then { c with launch := some l } else c) }

/-- A launch begins: it is handed to the work distributor (R286, R289). -/
def State.beginLaunch (s : State) (q : Nat) (x : Queue) (bs : List Byte) (ctr : Option Nat) (h : Hdr) : State :=
  let v := leNat bs
  let l : Launch := { ctx := x.ctx, queue := some q, hdr := h, seed := BitVec.ofNat 32 (bitsOf v 319 288), prvb := lrPrvb v,
                      lrec := bs, prio := x.prio, toPlace := clusterOrder v, ctr := ctr }
  let s := s.startCaptures q x.head ctr s.nextId
  let id := s.nextId
  let s := { s with nextId := id + 1, launches := tput s.launches id l, lastServed := cput none s.lastServed x.prio (some q) }
  s.setQueue q (match x.fired with
    | _ :: r => { x with fired := r, prev := some id }
    | [] => { x with head := x.head + 1, headRec := none, prev := some id })

/-- LAUNCH_START (R283, R286): the dispatcher takes the next startable launch, makes checks 3 to 5, and starts it or refuses it. A
header whose page is migrating is awaited (R369, log 57). -/
def execLaunchStart (s : State) : Host.Outcome State Fault Refusal :=
  .next (match s.nextQueue with
    | none => s
    | some q =>
      let x := s.queue q
      match x.nextLaunch with
      | none => s
      | some (bs, ctr) =>
        let d := (s.ctx x.ctx).desc
        let hdr := bitsOf (leNat bs) 127 64
        if s.hubWaits d .read hdr then s.hubHold d .read hdr
        else
        let s := s.hubUse d hdr 128
        match s.startCause x.ctx (leNat bs) with
        | .error c => (s.critOver (s.hubCause d .read hdr)).refuse q c (!x.fired.isEmpty) (match ctr with | some k => BitVec.ofNat 16 k | none => x.head)
        | .ok h => s.beginLaunch q x bs ctr h)

/-! ### Room on a core (R26, R59, R296) -/

/-- Resources of a core: slots, window bytes, scratchpad KiB, barriers, operand-buffer KiB. -/
structure Room where
  slots : Nat := 0
  window : Nat := 0
  scratch : Nat := 0
  bars : Nat := 0
  obuf : Nat := 0
  deriving DecidableEq, Repr

/-- The sum of two demands. -/
def Room.add (a b : Room) : Room :=
  { slots := a.slots + b.slots, window := a.window + b.window, scratch := a.scratch + b.scratch, bars := a.bars + b.bars,
    obuf := a.obuf + b.obuf }

/-- A demand that one core can hold. -/
def Room.fits (a : Room) : Bool :=
  decide (a.slots ≤ 32) && decide (a.window ≤ 786432) && decide (a.scratch ≤ 512) && decide (a.bars ≤ 256) && decide (a.obuf ≤ 64)

/-- What a team of a launch takes when it starts (R296). -/
def newTeamRoom (h : Hdr) (groups : Nat) : Room :=
  { slots := groups, window := groups * h.wbytes, scratch := h.scratch, bars := h.bars, obuf := h.obuf }

/-- What a team takes while it is on a core: slots and windows of the groups that have not ended, parked ones among them (R318);
its scratchpad until the cluster ends (R301). -/
def State.teamRoom (s : State) (tid : Nat) (t : Team) : Room :=
  match s.launch? t.launch with
  | none => {}
  | some l =>
    let n := (s.teamGroups tid).length
    if t.st = .done then { scratch := l.hdr.scratch }
    else { slots := n, window := n * l.hdr.wbytes, scratch := l.hdr.scratch, bars := l.hdr.bars, obuf := l.hdr.obuf }

/-- A team's cluster is on the cores. -/
def State.teamResident (s : State) (t : Team) : Bool := (s.cluster? t.cluster).any (fun (c : Cluster) => c.st == .resident)

/-- What the resident teams of a core take, of all contexts or of one. -/
def State.teamsRoom (s : State) (core : Nat) (mine : Team → Bool) : Room :=
  s.teams.foldl (fun (r : Room) p => if p.2.core = core ∧ s.teamResident p.2 ∧ mine p.2 then r.add (s.teamRoom p.1 p.2) else r) {}

/-- What is held for a teardown, as a demand (R275). -/
def HeldRoom.room (h : HeldRoom) : Room :=
  { slots := h.slots, window := h.window, scratch := h.scratch, bars := h.bars.foldl (fun n b => n + b.2) 0, obuf := h.obuf }

/-- What the teams of a core take, with what a teardown has still to free (R275). -/
def State.roomUsed (s : State) (core : Nat) : Room :=
  (s.drainHeld core).foldl (fun (r : Room) h => r.add h.room) (s.teamsRoom core (fun _ => true))

/-- The barriers that the running teams of a core have: first one and number. -/
def State.barsUsed (s : State) (core : Nat) (mine : Team → Bool) : List (Nat × Nat) :=
  s.teams.filterMap (fun p => if p.2.core = core ∧ p.2.st = .running ∧ mine p.2 then
    (s.launch? p.2.launch).map (fun (l : Launch) => (p.2.barBase, l.hdr.bars)) else none)

/-- The first physical barrier of n consecutive ones that are free on a core (R323). -/
def State.barBase (s : State) (core n : Nat) : Option Nat :=
  let used := s.barsUsed core (fun _ => true) ++ (s.drainHeld core).flatMap (fun h => h.bars)
  (0 :: used.map (fun u => u.1 + u.2)).find? (fun b => decide (b + n ≤ 256) && used.all (fun u => n == 0 || !rangesMeet b n u.1 u.2))

/-- Distinct cores of a die for the teams of a cluster, each the lowest-numbered one with room; none if they do not all fit
(R296). -/
def State.coresFor (s : State) (die : Nat) : List Room → List Nat → Option (List Nat)
  | [], _ => some []
  | r :: rs, used =>
    match (s.enabledOn die).find? (fun c => !used.contains c && ((s.roomUsed c).add r).fits && (s.barBase c r.bars).isSome) with
    | none => none
    | some c => (s.coresFor die rs (used ++ [c])).map (fun l => c :: l)

/-! ### The start of a cluster's teams (R27, R64, R289 to R293) -/

/-- first(t) and n(t) (R291). -/
def teamItems (v t : Nat) : Nat × Nat :=
  let n := lrTeams v
  let q := lrNitem v / n
  let m := lrNitem v % n
  (lrItem0 v + t * q + min t m, if t < m then q + 1 else q)

/-- The views at group start (R64). -/
def startViews (h : Hdr) : Cells Word64 :=
  let w := h.wbytes
  let dflt : List (Nat × Nat) := [
    (0, packFields [(w / 128, 0), (2, 16), (4, 20), (128, 32)]), (1, packFields [(w / 64, 0), (1, 16), (2, 20), (64, 32)]),
    (2, 0), (3, packFields [(4, 16)])]
  dflt.foldl (fun (t : Cells Word64) p => cput 0 t p.1 ((tget? h.views p.1).getD (BitVec.ofNat 64 p.2))) []

/-- A group as it starts (R27, R50, R64, R268, R282, R293, R303). -/
def State.newGroup (s : State) (lid : Nat) (l : Launch) (tid t g core first count : Nat) : Group :=
  let v := l.word
  let items := (List.range 32).filter (fun i => decide (32 * g + i < count))
  let lanes := items.foldl (fun (c : Cells Lane) i =>
    cput {} c i { st := .live, item := BitVec.ofNat 32 (first + 32 * g + i), age := 1 }) []
  let m := maskOf items
  let x : Group := {
    ctx := l.ctx, launch := lid, team := tid, num := g, core := core, seniority := s.cycle, restFrom := s.cycle, lanes := lanes,
    frontier := insertLanes [] l.hdr.entry l.hdr.entryPrio m,
    rf := { wbytes := l.hdr.wbytes, vw := startViews l.hdr,
            scal := (List.range 8).foldl (fun (c : Cells PW) k => cput {} c k { v := BitVec.ofNat 64 (lrArg v k) }) [] },
    sr := { tvec := (s.ctx l.ctx).desc.tvec },
    wd := if lrPers v then ({} : Watch).set 65536 false else {} }
  x.reseed (l.seed + 0x9E3779B9#32 * BitVec.ofNat 32 (16 * t + g))

/-- The image of a granule: its words, then a poison bit for each (log 33). -/
def granuleImage (x : Group) (k : Nat) : List Byte :=
  (List.range 1024).flatMap (fun i => leBytes 4 (x.rf.word (1024 * k + i)).v.toNat)
    ++ leBytes 128 (packFields ((List.range 1024).map (fun i => ((x.rf.word (1024 * k + i)).p.toNat, i))))

/-- The window image of a group: one entry of kind 1 for each granule (R432; the layout is log 33). -/
def State.capWindow (s : State) (g : Nat) : State :=
  match s.group? g with
  | none => s
  | some x => (List.range (x.rf.wbytes / 4096)).foldl (fun s k =>
      s.capAppend g 1 0 0 (List.replicate 16 0 ++ granuleImage x k)) s

/-- Adds a group to its core and logs its start under capture (R305, R432). -/
def State.addGroup (s : State) (x : Group) (lrec : List Byte) : State :=
  let id := s.nextId
  let s := { s with nextId := id + 1, groups := tput s.groups id { x with slot := some (s.freeSlot x.core) } }
  (s.capAppend id 0 0 0 (List.replicate 16 0 ++ lrec)).capWindow id

/-- Starts a team on a core (R290, R293). -/
def State.startTeam (s : State) (lid : Nat) (l : Launch) (cid t core : Nat) : State :=
  let v := l.word
  let (first, count) := teamItems v t
  let n := lrGroups v
  let tid := s.nextId
  let q : Team := { launch := lid, cluster := cid, num := t, core := core, st := .running, first := first, count := count,
                    next := first + min (32 * n) count, groupsN := n, startCycle := s.cycle,
                    barBase := (s.barBase core l.hdr.bars).getD 0 }
  let s := { s with nextId := tid + 1, teams := tput s.teams tid q }
  let s := (List.range n).foldl (fun (s : State) g => s.addGroup (s.newGroup lid l tid t g core first count) l.lrec) s
  s.modCluster cid (fun c => { c with teams := c.teams ++ [tid] })

/-- The teams of cluster k (R289). -/
def clusterTeams (v k : Nat) : List Nat := (List.range (lrClu v)).map (fun u => k * lrClu v + u) |>.filter (fun t => decide (t < lrTeams v))

/-! ### The end of groups, teams, clusters and launches (R287, R300, R301) -/

/-- A group meets the end condition of R300, and its writes are performed. -/
def State.endsNow (s : State) (g : Nat) (x : Group) : Bool :=
  (x.st == .active || x.st == .pending || x.st == .draining) && x.empties == ~~~0 && (s.copiesOf g).isEmpty
    && (s.opsOf g x.core).isEmpty && x.mats.isEmpty && !s.unperformed x.agent

/-- A replay ends with its launch: the host learns it by an event (R433, R441). -/
def State.endReplay (s : State) (lid : Nat) : State :=
  let mine (r : Replay) : Bool := (s.team? r.team).any (fun (q : Team) => q.launch == lid)
  if s.replays.any mine then { s with replays := s.replays.filter (fun r => !mine r) }.notify else s

/-- The completion of a launch whose writes are released (R287), in its order; then nothing of it is held any more. A replayed launch has no queue and none of
these effects (R433). -/
def State.completeLaunch (s : State) (lid : Nat) (l : Launch) : State :=
  let v := l.word
  let d := (s.ctx l.ctx).desc
  let r := refusalRec l.ctx 0
  let s := if l.queue.isNone then s.endReplay lid else
    let s := if bitsOf v 511 448 = 0 then s else match s.hubWrite d (bitsOf v 511 448) (leBytes 8 (bitsOf v 575 512)) with
      | some s => s
      | none => (s.critOver (s.hubCause d .write (bitsOf v 511 448))).writeErr { r with cause := cLREC_INVALID }
    let s := if v.testBit 397 then s.decCompletion l.ctx (bitsOf v 396 384) r else s
    if v.testBit 413 then s.decCompletion l.ctx (bitsOf v 412 400) r else s
  { s with launches := cdel s.launches lid, clusters := s.clusters.filter (fun p => p.2.launch != lid),
           teams := s.teams.filter (fun p => p.2.launch != lid), groups := s.groups.filter (fun p => p.2.launch != lid) }

/-- The context record of a boundary is taken when the launch that executed STEPADV has completed; launches that are running then are recorded
as not started (R413, R414). -/
def State.takeRecord (s : State) (c b : Nat) : State :=
  let x := s.ctx c
  let et : Etch := cget {} s.etches c
  let left := (s.launches.filter (fun p => p.2.ctx == c)).filterMap (fun p => p.2.queue.map (fun q => ({ queue := q, ctr := p.2.ctr, lrec := p.2.lrec } : Task)))
  let r : CtxRecord := { ctx := c, boundary := b, step := x.step, undone := left,
                         queues := s.queues.filter (fun p => p.2.ctx == c), ctrs := s.ctrs.filter (fun p => p.2.owner == some c),
                         desc := x.desc, descPa := x.descPa, group := x.stepGroup.getD 0,
                         members := (cget ({} : StepGroup) s.stepGroups (x.stepGroup.getD 0)).members }
  { s.modCtx c (fun z => { z with stepLaunch := none }) with
    records := s.records.filter (fun q => !(q.ctx == c && q.boundary == b)) ++ [r],
    etches := cput {} s.etches c { et with recTaken := true } }

/-- The completion word of a launch can be written, or faults, now: its page is not migrating and not awaited by the etcher (R287,
R369, R370). -/
def State.wordReady (s : State) (l : Launch) : Bool :=
  l.queue.isNone || bitsOf l.word 511 448 == 0 || !s.hubWaits (s.ctx l.ctx).desc .write (bitsOf l.word 511 448)

/-- The launch's writes are released at .dom (R287, R335), and none of its dies' write-backs is still refused. -/
def State.releaseLaunch (s : State) (lid : Nat) : State × Bool :=
  let cores := ((s.teams.filter (fun p => p.2.launch == lid)).map (fun p => p.2.core)).eraseDups
  let s := cores.foldl (fun (s : State) c => s.publish evictAgent c scDom) s
  (s, !cores.any (fun c => s.backPending (dieOf c)))

/-- A launch whose clusters have all ended completes, once its writes are released and its completion word can be written (R287, R289). -/
def State.settleLaunch (s : State) (lid : Nat) : State :=
  match s.launch? lid with
  | none => s
  | some l =>
    if l.toPlace.isEmpty && s.clusters.all (fun p => p.2.launch != lid || p.2.st == .done) then
      if !s.wordReady l then s.hubHold (s.ctx l.ctx).desc .write (bitsOf l.word 511 448)
      else
      let (s, free) := s.releaseLaunch lid
      if !free then s
      else
      let s := s.completeLaunch lid l
      match l.boundary with
      | some b => if (s.ctx l.ctx).stepLaunch = some lid then s.takeRecord l.ctx b else s
      | none => s
    else s

/-- The launches whose completion has waited for a page complete when they can (R287, R370). -/
def State.settleLaunches (s : State) : State := (s.launches.map (fun p => p.1)).foldl State.settleLaunch s

/-- A context with no resident team is no longer ACTIVE (R270); one whose pre-empted clusters wait to come back stays so (R271, R427). -/
def State.settleCtx (s : State) (c : Nat) : State :=
  let any := s.teams.any (fun p => (p.2.st == .running || p.2.st == .saved) && ((s.launch? p.2.launch).map (fun (l : Launch) => l.ctx)) == some c)
  s.modCtx c (fun x => if x.st = .active ∧ !any then { x with st := .idle } else x)

/-- A cluster whose teams have all ended frees its scratchpads (R301). -/
def State.settleCluster (s : State) (cid : Nat) : State :=
  match s.cluster? cid with
  | none => s
  | some c =>
    if c.teams.all (fun t => (s.team? t).all (fun (q : Team) => q.st == .done)) then
      let s := c.teams.foldl (fun (s : State) t => s.modTeam t (fun q => { q with scr := [] })) s
      (s.modCluster cid (fun c => { c with st := .done })).settleLaunch c.launch
    else s

/-- A team whose groups have all ended ends (R227, R290, R301). -/
def State.settleTeam (s : State) (tid : Nat) : State :=
  match s.team? tid with
  | none => s
  | some q =>
    if q.st = .running ∧ (s.teamGroups tid).isEmpty then
      (s.setTeam tid { q with st := .done, bars := [], ob := [], obres := [] }).settleCluster q.cluster
    else s

/-- A group that meets the condition of R300 ends: ports drained and released, window released with its granules gated, slot
freed. -/
def State.finishGroup (s : State) (g : Nat) : State :=
  match s.group? g with
  | none => s
  | some x =>
    let s := s.capAppend g 9 0 0 []
    let s := (x.ports.filter (fun p => p.2.isSome)).foldl (fun (s : State) p => s.releasePort g p.1) s
    let s := s.modGroup g (fun x => { x with
      st := .ended, slot := none, frontier := [], hfrontier := [], handler := false, sketch := none, wait := none, waitHeld := none,
      held := false, sleepEnd := none, yieldEnd := none, asyncMat := none, asyncWd := none, pend := [], cvts := [], frameAt := none,
      wd := {},
      rf := { wbytes := x.rf.wbytes, gran := (List.range (x.rf.wbytes / 4096)).map (fun k => (k, GranSt.gated)) } })
    (((s.unhold x.core).settleTeam x.team).settleCtx x.ctx).settleBiases

/-- A replay that has met a difference is taken off its core (R433). -/
def State.dropReplay (s : State) (lid : Nat) (l : Launch) : State :=
  let mine (g : Nat) : Bool := (s.group? g).any (fun (x : Group) => x.launch == lid)
  let s := { s with cores := s.cores.map (fun (p : Nat × Core) => (p.1, { p.2 with mq := p.2.mq.filter (fun o => !mine o.g) })) }
  ((s.completeLaunch lid l).settleCtx l.ctx).settleBiases

/-- GROUP_END (R300): a group of a replay that has met a difference ends with the replay (R433). -/
def execGroupEnd (g : Nat) (s : State) : Host.Outcome State Fault Refusal :=
  .next (match s.group? g with
    | none => s
    | some x =>
      if s.replays.any (fun r => r.team == x.team && r.differs.isSome) then s.dropReplay x.launch (s.launchOf x)
      else if s.endsNow g x then s.finishGroup g else s)

/-! ### Placement (R294 to R297, R303) -/

/-- Places a cluster on cores of a die: its teams start (R293, R296). -/
def State.startCluster (s : State) (lid : Nat) (l : Launch) (k vd die : Nat) (cores : List Nat) : State :=
  let cid := s.nextId
  let c : Cluster := { launch := lid, num := k, vdie := vd, die := die, st := .resident, absent := l.absent.contains k }
  let s := { s with nextId := cid + 1, clusters := tput s.clusters cid c }
  -- the start of a launch is an acquire at .dom (R286, R335), and drops the code's lines (R80)
  let s := cores.foldl (fun (s : State) c => (s.dropSoft evictAgent c scDom).modCore c (fun q => { q with
    icache := q.icache.filter (fun b => !(b.1 == (s.ctx l.ctx).desc.asid && rangesMeet b.2.1 384 l.hdr.codeBase.toNat (12 * l.hdr.codeLen))) })) s
  let s := ((clusterTeams l.word k).zip cores).foldl (fun (s : State) p => s.startTeam lid l cid p.1 p.2) s
  let s := s.modLaunch lid (fun l =>
    { l with toPlace := l.toPlace.tail, st := if l.toPlace.tail.isEmpty then .running else .placing })
  s.modCtx l.ctx (fun x => if x.st = .idle then { x with st := .active } else x)

/-- The groups of a launch that start without an item end at once (R291, R293). -/
def State.endEmpty (s : State) (lid : Nat) : State :=
  let gs := (s.groups.filter (fun p => p.2.launch == lid)).map (fun p => p.1)
  (gs.foldl (fun (s : State) g => match s.group? g with
    | some x => if s.endsNow g x then s.finishGroup g else s
    | none => s) s).settleBiases

/-- The physical die of this module that a virtual die maps to now; a die of another module is not this module's to place on
(log 34). -/
def State.ownDie (s : State) (d : CtxDesc) (vd : Nat) : Option Nat :=
  (s.vdie d vd).bind (fun e => if e.1 = s.modnum.toNat then some e.2 else none)

/-- The cores that the head of a launch's clusters would take. -/
def State.headFits (s : State) (l : Launch) : Option (Nat × List Nat) :=
  match l.toPlace with
  | [] => none
  | (k, vd) :: _ =>
    (s.ownDie (s.ctx l.ctx).desc vd).bind (fun die =>
      (s.coresFor die ((clusterTeams l.word k).map (fun _ => newTeamRoom l.hdr (lrGroups l.word))) []).map (fun cs => (die, cs)))

/-- The head of a launch's clusters starts, if it fits. -/
def State.startHead (s : State) (lid : Nat) : Option State :=
  match s.launch? lid with
  | none => none
  | some l => match l.toPlace, s.headFits l with
    | (k, vd) :: _, some (die, cs) => some (s.startCluster lid l k vd die cs)
    | _, _ => none

/-- Places the head of a launch's clusters, if it fits. -/
def State.placeHead (s : State) (lid : Nat) : Option State := (s.startHead lid).map (fun s => s.endEmpty lid)

/-- Starts a number of clusters of a launch, if they all fit at once. -/
def State.startAll (s : State) (lid : Nat) : Nat → Option State
  | 0 => some s
  | n + 1 => (s.startHead lid).bind (fun s => s.startAll lid n)

/-- Places every cluster of a PERSISTENT launch, or none: what a group without an item gives back counts only after all are there (R303). -/
def State.placeAll (s : State) (lid n : Nat) : Option State := (s.startAll lid n).map (fun s => s.endEmpty lid)

/-- Launches with clusters to place, higher PRIO first and within one PRIO the earlier started first (R297). -/
def State.placing (s : State) : List (Nat × Launch) :=
  let ls := s.launches.filter (fun p => !p.2.toPlace.isEmpty && s.ctxRuns p.2.ctx && !(s.ctx p.2.ctx).restoring)
  (List.range 8).reverse.flatMap (fun n => ls.filter (fun p => p.2.prio == n))

/-- A saved cluster of equal or higher PRIO waits to come back to a die (R298). -/
def State.restoreFirst (s : State) (prio die : Nat) : Bool :=
  s.clusters.any (fun p => p.2.st == .saved && (s.launch? p.2.launch).any (fun (l : Launch) =>
    decide (prio ≤ l.prio) && s.ctxRuns l.ctx && s.ownDie (s.ctx l.ctx).desc p.2.vdie == some die))

/-- The clusters of a launch that are placed together: all of a PERSISTENT launch, else the head (R295, R303). -/
def Launch.wanting (l : Launch) : List (Nat × Nat) := if lrPers l.word then l.toPlace else l.toPlace.take 1

/-- What a launch would place stands behind a waiting cluster of a launch that comes first, on the same virtual die (R297), or behind one to be
restored (R298). A PERSISTENT launch that waits does not stand in the way of others (R303; log 35). -/
def State.headBlocked (s : State) (first : List (Nat × Launch)) (l : Launch) : Bool :=
  l.toPlace.isEmpty || l.wanting.any (fun w =>
    first.any (fun p => p.2.ctx == l.ctx && !lrPers p.2.word && p.2.toPlace.any (fun q => q.2 == w.2))
      || (s.ownDie (s.ctx l.ctx).desc w.2).any (fun die => s.restoreFirst l.prio die))

/-- A launch wants room on a die of this module. -/
def State.wants (s : State) (l : Launch) (die : Nat) : Bool :=
  l.wanting.any (fun w => s.ownDie (s.ctx l.ctx).desc w.2 == some die)

/-- The first launch of an order whose head can be placed: the state after its placement. -/
def State.placeFirst (s : State) : List (Nat × Launch) → List (Nat × Launch) → Option State
  | _, [] => none
  | first, p :: r =>
    let next := if s.headBlocked first p.2 then none
      else if lrPers p.2.word then s.placeAll p.1 p.2.toPlace.length
      else s.placeHead p.1
    match next with
    | some t => some t
    | none => s.placeFirst (first ++ [p]) r

/-- The first wait of a cluster on a virtual die that R29 rejects writes one record (R30). -/
def State.noteAbsent (s : State) (lid : Nat) (l : Launch) : State :=
  l.wanting.foldl (fun (s : State) w =>
    if (s.vdie (s.ctx l.ctx).desc w.2).isNone && !l.absent.contains w.1 then
      (s.modLaunch lid (fun l => { l with absent := l.absent ++ [w.1] })).writeErr (refusalRec l.ctx cVDIE_ABSENT)
    else s) s

/-- A cluster whose virtual die maps to a die of another module. -/
def State.foreign (s : State) (l : Launch) (w : Nat × Nat) : Bool :=
  (s.vdie (s.ctx l.ctx).desc w.2).any (fun e => e.1 != s.modnum.toNat)

/-- Clusters that other modules place leave the list of a launch when their turn comes; they are not part of this State (log 34). -/
def State.dropForeign (s : State) (lid : Nat) (l : Launch) : State :=
  let rest := if lrPers l.word then l.toPlace.filter (fun w => !s.foreign l w) else l.toPlace.dropWhile (s.foreign l)
  if rest.length = l.toPlace.length then s
  else (s.modLaunch lid (fun l => { l with toPlace := rest, st := if rest.isEmpty then .running else l.st })).settleLaunch lid

/-- CLUSTER_PLACE (R296, R297): the distributor places the next cluster that can be placed. -/
def execClusterPlace (s : State) : Host.Outcome State Fault Refusal :=
  let s := s.placing.foldl (fun (s : State) p => s.dropForeign p.1 p.2) s
  let s := s.placing.foldl (fun (s : State) p => s.noteAbsent p.1 p.2) s
  .next ((s.placeFirst [] s.placing).getD s)

end Sys2Proof.Machine
end

