-- ==== Sys2Proof/Machine/Save.lean ====
section
/-! DEFINITION. Pre-emption and restoration of clusters (R31, R244, R271 to R273, R298, R305, R319, R320, R322), the states SAVING
and DRAINING of a context (R270, R272, R275), the second interval of the watchdog (R431), and cores taken out of service
(R13, R426, R427). -/

namespace Sys2Proof.Machine

/-! ### Saving a group (R244, R271, R318, R320) -/

/-- A running MZERO, MACC or MCVT of a group completes before the group leaves the core (R244). -/
def State.finishRunning (s : State) (g core : Nat) : State :=
  match (s.core core).runningOp with
  | some o => if o.g = g ∧ 3 ≤ o.kind then s.completeOp core .none else s
  | none => s

/-- A group stops at an issue boundary and leaves its slot: a running MZERO, MACC or MCVT completes, outstanding instructions complete,
sequences stop at a step boundary, read-ahead is discarded. What remains of a sleep is kept (R320: SLEEP). -/
def State.saveGroup (s : State) (g : Nat) : State :=
  match s.group? g with
  | none => s
  | some x0 =>
    let s := s.finishRunning g x0.core
    match s.group? g with
    | none => s
    | some x =>
      let s := s.countLate x
      let x := x.completeAll
      (s.setGroup g { x with
        st := .saved, savedFrom := if x.st = .active then .pending else x.st, slot := none, held := false, sketch := none,
        wait := x.wait.map Wait.savedWait, waitHeld := x.waitHeld.map Wait.savedWait,
        yieldEnd := none, frameAt := none, badFrame := x.wholeBad, restFrom := if x.st = .active then s.cycle else x.restFrom, sleepEnd := x.sleepEnd.map (fun t => t - s.cycle),
        ports := x.ports.map (fun p => (p.1, p.2.map (fun q => { q with ahead := [] }))) }).stashMatrix g x.core

/-! ### The save area (R271, R320; log 17) -/

/-- A table of words and a bit of poison for each. -/
def wordImage (t : Cells WP) (kib : Nat) : List Byte :=
  (List.range (256 * kib)).flatMap (fun i => leBytes 4 (cget ({} : WP) t i).v.toNat)
    ++ leBytes (32 * kib) ((List.range (256 * kib)).foldl (fun n i => n + (if (cget ({} : WP) t i).p then 2 ^ i else 0)) 0)

/-- What is saved of a team besides its groups: scratchpad, barrier states (R326), operand-buffer share and reservations (R227), and
the next-item counter (R290). -/
def State.teamImage (s : State) (tid : Nat) (h : Hdr) : List Byte :=
  match s.team? tid with
  | none => []
  | some q => wordImage q.scr h.scratch ++ (List.range h.bars).flatMap (s.barRecord tid) ++ wordImage q.ob h.obuf
      ++ (List.range 16).flatMap (fun n => leBytes 8 (cget 0 q.obres n).toNat) ++ leBytes 8 q.next

/-- The pinned map entry of a cluster (R31): its logical number, its virtual die, and the physical cores of its teams. -/
def State.mapImage (s : State) (c : Cluster) : List Byte :=
  leBytes 4 c.num ++ leBytes 4 c.vdie ++ c.teams.flatMap (fun t => leBytes 4 (((s.team? t).map (fun (q : Team) => s.gcore q.core)).getD 0))

/-- The bytes that a saved cluster takes: full frames, then the teams' images and the map entry, in whole 4 KiB. -/
def State.clusterSize (s : State) (c : Cluster) (h : Hdr) : Nat :=
  let frames := (s.clusterGroups c).length * frameLen h.wbytes true
  (frames + c.teams.length * (teamLen h + 4) + 8 + 4095) / 4096 * 4096

/-- Writes the frames, the images and the map entry of a saved cluster from an address on. -/
def State.writeCluster (s : State) (c : Cluster) (h : Hdr) (a : Nat) : State :=
  let r := (s.clusterGroups c).foldl (fun (acc : State × Nat) p =>
    ((acc.1.modGroup p.1 (fun x => { x with frameAt := some acc.2 })).writeFrame p.1, acc.2 + frameLen h.wbytes true)) (s, a)
  let r := c.teams.foldl (fun (acc : State × Nat) t =>
    let b := acc.1.teamImage t h
    (acc.1.homeWrite acc.2 b false, acc.2 + b.length)) r
  r.1.homeWrite r.2 (s.mapImage c) false

/-- Pre-empts a cluster whole; none if its context's save area has no room for it (R271). Its context stays ACTIVE (R271, R298; log 91). -/
def State.saveCluster (s : State) (cid : Nat) (c : Cluster) (l : Launch) : Option State :=
  let len := s.clusterSize c l.hdr
  let s := (s.clusterGroups c).foldl (fun (s : State) p => s.saveGroup p.1) s
  match s.saveSpace l.ctx len with
  | none => none
  | some a =>
    let s := s.writeCluster c l.hdr a
    let s := c.teams.foldl (fun (s : State) t => s.modTeam t (fun q => if q.st = .running then { q with st := .saved } else q)) s
    let s := s.modCluster cid (fun c => { c with st := .saved, saveAt := some a, saveLen := len })
    some (s.settleBiases.unholdAll)

/-- The writes of a cluster's groups, their pushes among them, are performed, and what their dies' L2s hold for them is written back, so that its
groups find them wherever they come back (R31, R216, R334). -/
def State.publishCluster (s : State) (c : Cluster) : State :=
  (s.clusterGroups c).foldl (fun (s : State) p => s.publish p.2.agent p.2.core scDom) s

/-- Some of them have still to be performed. -/
def State.clusterPending (s : State) (c : Cluster) : Bool :=
  (s.clusterGroups c).any (fun p => s.unperformed p.2.agent || s.backPending (dieOf p.2.core))

/-! ### Pre-emption (R270 to R273, R298, R427) -/

/-- A group of the cluster is frozen: its frame is there already, and it stays until the host resolves it (R273). -/
def State.clusterFrozen (s : State) (c : Cluster) : Bool := (s.clusterGroups c).any (fun p => p.2.st == .frozen)

/-- A cluster must leave: its context is SAVING or FAULTED, or a core of it is out of service. -/
def State.mustSave (s : State) (c : Cluster) (l : Launch) : Bool :=
  (((s.ctx l.ctx).st == .saving || (s.ctx l.ctx).st == .faulted) && !s.clusterFrozen c)
    || c.teams.any (fun t => (s.team? t).any (fun (q : Team) => q.st == .running && (s.core q.core).retired))

/-- The clusters that a launch would place on a die do not fit there (R298, R303). -/
def State.crowded (s : State) (lid : Nat) (l : Launch) (die : Nat) : Bool :=
  let mine := l.wanting.filter (fun w => s.ownDie (s.ctx l.ctx).desc w.2 == some die)
  if lrPers l.word then ((s.modLaunch lid (fun l => { l with toPlace := mine })).placeAll lid mine.length).isNone else (s.headFits l).isNone

/-- A waiting cluster of higher PRIO does not fit on the cluster's die (R298). -/
def State.wantedRoom (s : State) (c : Cluster) (l : Launch) : Bool :=
  !lrPers l.word && s.ctxRuns l.ctx && !s.clusterFrozen c && s.placing.any (fun p =>
    decide (l.prio < p.2.prio) && s.wants p.2 c.die && s.crowded p.1 p.2 c.die)

/-- The save area is too small: a record is written once, and the context is FAULTED (R271), with the causes of a double fault met while it was
saving (R272, R277). The manual names no cause for the record: it is a free value. -/
def State.saveTooSmall (s : State) (c : Nat) : State :=
  if (s.ctx c).saveShort then s
  else
    let (k, s) := s.fresh 9
    (s.modCtx c (fun x => { x with st := .faulted, faultAfterSave := false, saveShort := true })).writeErr
      { refusalRec c k with sev := sevFATAL, unit := 15 }

/-- CLUSTER_PREEMPT (R271, R298, R427). It comes again where a write of the cluster has still to be performed. -/
def execClusterPreempt (c : Nat) (s : State) : Host.Outcome State Fault Refusal :=
  .next (match s.cluster? c with
    | none => s
    | some x =>
      match s.launch? x.launch with
      | none => s
      | some l =>
        if x.st ≠ .resident ∨ !(s.mustSave x l || s.wantedRoom x l) then s
        else
          let t := s.publishCluster x
          if t.clusterPending x then t
          else (t.saveCluster c x l).getD (if s.mustSave x l then t.saveTooSmall l.ctx else t))

/-! ### Restoration (R30, R31, R298, R319, R322) -/

/-- A group comes back to a core: ACTIVE as PENDING, a parked group whose registrations are all satisfied as PENDING; a frame that
fails the checks leaves it FROZEN (R305, R319, R322). -/
def State.restoreGroup (s : State) (g core : Nat) : State :=
  match s.group? g with
  | none => s
  | some x =>
    let st := if x.savedFrom = .parked then (if x.parkKeys.isEmpty then .pending else .parked) else x.savedFrom
    let slot := if st = .parked then none else some (s.freeSlot core)
    let x := { x with core := core, st := st, slot := slot, frameAt := none, restFrom := s.cycle,
                      sleepEnd := x.sleepEnd.map (fun t => t + s.cycle), rf := { x.rf with gran := [], touch := [] } }
    let x := { x with engineWait := slot.isSome && s.lacksEngines x }
    if x.badFrame.isSome ∧ st ≠ .frozen then s.frameInvalid g x
    else
      let s := s.setGroup g x
      let s := if st = .parked ∨ st = .frozen then s.placeFrame g else s.requeueMatrix g core
      (s.capWindow g).wakeRestored g

/-- A cluster that may come back now: its context runs, and no launch of higher PRIO waits for the die with a cluster (R286, R298). -/
def State.mayRestore (s : State) (l : Launch) (die : Nat) : Bool :=
  s.ctxRuns l.ctx && !s.placing.any (fun p =>
    decide (l.prio < p.2.prio) && s.wants p.2 die)

/-- A saved cluster of a context. -/
def State.anySaved (s : State) (c : Nat) : Bool :=
  s.clusters.any (fun p => p.2.st == .saved && (s.launch? p.2.launch).any (fun (l : Launch) => l.ctx == c))

/-- Restores a cluster on cores of a die (R31); what their caches hold that is software coherent is read anew, the groups' own writes among
them (R334). -/
def State.restoreCluster (s : State) (cid : Nat) (c : Cluster) (l : Launch) (die : Nat) (cores : List Nat) : State :=
  let s := s.modCluster cid (fun c => { c with st := .resident, die := die, saveAt := none, saveLen := 0 })
  let s := cores.foldl (fun (s : State) k => s.dropSoft evictAgent k scDom) s
  let s := (c.teams.zip cores).foldl (fun (s : State) p =>
    let gs := (s.teamGroups p.1).map (fun q => q.1)
    let s := s.modTeam p.1 (fun q => { q with
      core := p.2, st := if q.st = .saved then .running else q.st, barBase := (s.barBase p.2 l.hdr.bars).getD 0 })
    gs.foldl (fun (s : State) g => s.restoreGroup g p.2) s) s
  let more := s.anySaved l.ctx
  let s := s.modCtx l.ctx (fun x => { x with st := if x.st = .idle then .active else x.st, restoring := x.restoring && more })
  s.settleBiases

/-- CLUSTER_RESTORE (R30, R31, R298). -/
def execClusterRestore (c : Nat) (s : State) : Host.Outcome State Fault Refusal :=
  .next (match s.cluster? c with
    | none => s
    | some x =>
      match s.launch? x.launch with
      | none => s
      | some l =>
        if x.st ≠ .saved ∨ !s.ctxRuns l.ctx then s
        else match s.vdie (s.ctx l.ctx).desc x.vdie with
          | none =>
            if x.absent then s
            else (s.modCluster c (fun c => { c with absent := true })).writeErr (refusalRec l.ctx cVDIE_ABSENT)
          | some _ =>
            match s.ownDie (s.ctx l.ctx).desc x.vdie with
            | none => s
            | some die =>
              match s.coresFor die (x.teams.map (fun t => ((s.team? t).map (s.teamRoom t)).getD {})) [] with
              | some cores => if s.mayRestore l die then s.restoreCluster c x l die cores else s
              | none => s)

/-! ### The ends of SAVING and DRAINING (R270, R272, R275) -/

/-- Clusters of a context that are on the cores and can be saved. -/
def State.stillResident (s : State) (c : Nat) : Bool :=
  s.clusters.any (fun p => p.2.st == .resident && !s.clusterFrozen p.2
    && (s.launch? p.2.launch).any (fun (l : Launch) => l.ctx == c))

/-- CONTEXT_SAVED: the last cluster is saved (R270); a context with a double fault during the save is FAULTED (R272). -/
def execContextSaved (c : BitVec 7) (s : State) : Host.Outcome State Fault Refusal :=
  let k := c.toNat
  .next (
    if (s.ctx k).st ≠ .saving ∨ s.stillResident k then s
    else if (s.ctx k).faultAfterSave then s.modCtx k (fun x => { x with st := .faulted, faultAfterSave := false })
    else (s.modCtx k (fun x => { x with st := .saved })).notify)

/-- A context enters SAVING (R270): dispatch stops. -/
def State.beginSave (s : State) (c : Nat) : State :=
  s.modCtx c (fun x => if x.st = .idle ∨ x.st = .active then { x with st := .saving } else x)

/-- The parts of a context's work: its launches, and with them clusters, teams and groups, are gone (R275). -/
def State.dropWork (s : State) (c : Nat) : State :=
  let mine (l : Nat) : Bool := (s.launch? l).any (fun (q : Launch) => q.ctx == c)
  let gone (g : Nat) : Bool := (s.group? g).any (fun (x : Group) => x.ctx == c)
  let w (e : WaitEnt) : WaitEnt := { e with who := e.who.filter (fun a => match a with
    | .group g => !gone g
    | .chan core k => !((s.chan core k).q.head?.any (fun y => y.ctx == c))) }
  { s with
    launches := s.launches.filter (fun p => p.2.ctx != c), clusters := s.clusters.filter (fun p => !mine p.2.launch),
    teams := s.teams.filter (fun p => !mine p.2.launch), groups := s.groups.filter (fun p => p.2.ctx != c),
    replays := s.replays.filter (fun r => !(s.team? r.team).any (fun (q : Team) => mine q.launch)),
    waits := (s.waits.map w).filter (fun e => !e.who.isEmpty),
    cores := s.cores.map (fun p => (p.1, { p.2 with
      mq := p.2.mq.filter (fun o => !gone o.g),
      chans := p.2.chans.map (fun q => (q.1, { q.2 with q := q.2.q.filter (fun y => y.ctx != c) })) })) }

/-- What the resident teams of a context keep of the cores until step 5 of R275. -/
def State.heldRooms (s : State) (c : Nat) : List HeldRoom :=
  let mine (t : Team) : Bool := (s.launch? t.launch).any (fun (l : Launch) => l.ctx == c)
  (((s.teams.filter (fun p => mine p.2)).map (fun p => p.2.core)).eraseDups).map (fun k =>
    let r := s.teamsRoom k mine
    { core := k, slots := r.slots, window := r.window, scratch := r.scratch, obuf := r.obuf, bars := s.barsUsed k mine,
      engines := s.groups.foldl (fun n p => if p.2.ctx = c ∧ p.2.core = k ∧ p.2.slot.isSome ∧ !p.2.engineWait then n + p.2.boundPorts else n) 0 })

/-- Steps 1 to 3 of R275: queues disabled, groups ended without trapping, copies stopped at their next position. What they hold of their cores is
freed in step 5. -/
def State.beginDrain (s : State) (c : Nat) : State :=
  let room := s.heldRooms c
  let s := s.modCtx c (fun x => { x with held := room, st := .draining, fcause := 0, pcause := 0, faultAfterSave := false, restoring := false })
  let s := (s.queues.filter (fun p => p.2.ctx == c && p.2.st != .disabled)).foldl (fun (s : State) p => s.modQueue p.1 Queue.disable) s
  ((s.grantDue.dropWork c).settleBiases).unholdAll

/-- Steps 4 and 5 of R275: TLBI of the ASID, the room on the cores and the counters freed, the context FREE with its number and ASID released (R270). -/
def State.finishDrain (s : State) (c : Nat) : State :=
  let a := (s.ctx c).desc.asid
  let s := s.tlbi none (tlbiHit 1 a 0)
  { s with ctrs := s.ctrs.filter (fun p => p.2.owner != some c), ctxs := cput {} s.ctxs c {}, etches := cput {} s.etches c {} }

/-- CONTEXT_DRAIN_COMPLETE (R270, R275). -/
def execContextDrainComplete (c : BitVec 7) (s : State) : Host.Outcome State Fault Refusal :=
  .next (if (s.ctx c.toNat).st = .draining then s.finishDrain c.toNat else s)

/-! ### The second interval (R431) -/

/-- WATCHDOG_SECOND (R431): the context enters SAVING and a record goes to the host. -/
def execWatchdogSecond (g : Nat) (s : State) : Host.Outcome State Fault Refusal :=
  .next (match s.group? g with
    | none => s
    | some x =>
      if x.wd.second = some 0 ∧ x.st ≠ .saved then
        ((s.setGroup g { x with wd := { x.wd with second := none } }).beginSave x.ctx).writeErr (s.groupRec x cWATCHDOG_SECOND 0 0)
      else s)

/-! ### Cores out of service (R13, R426, R427) -/

/-- The failures of a list that fell within the last second. -/
def State.recent (s : State) (ts : List Nat) : List Nat := ts.filter (fun t => decide (s.timebase.toNat < t + Config.second))

/-- Triage retires a core: three check failures or two uncorrectable words within one second (R426). -/
def State.triaged (s : State) (core : Nat) : Bool :=
  let c := s.core core
  !s.host.msplit.getLsbD 6 && (decide (3 ≤ (s.recent c.checkFails).length) || decide (2 ≤ (s.recent c.sramFails).length))

/-- A core is taken out of service, and a record says so (R427). -/
def State.retireCore (s : State) (core : Nat) : State :=
  let c := s.core core
  if c.enabled && !c.retired then
    (s.setCore core { c with retired := true, checkFails := [], sramFails := [] }).writeErr
      { cause := cCORE_RETIRED, sev := sevADVISORY, scope := 2, unit := 0, die := dieOf core, gcore := s.gcore core }
  else s

/-- CORE_RETIRED (R426). -/
def execCoreRetired (core : Nat) (s : State) : Host.Outcome State Fault Refusal :=
  .next (if s.triaged core then s.retireCore core else s)

end Sys2Proof.Machine
end

