-- ==== Sys2Proof/Machine/Command.lean ====
section
/-! DEFINITION. Idneit commands on contexts (R265 to R278), queues (R279 to R281), dependence counters (R284), error queues (R422)
and cores (R426); how a command completes (R440, R441). -/

namespace Sys2Proof.Machine

/-! ### How a command completes (R440, R441) -/

/-- A parameter of a command. -/
def argOf (c : Cmd) (k : Nat) : Nat := ((c.p[k]?).getD 0).toNat

/-- The bring-up state (R439). -/
def State.mstate (s : State) : Nat := bitsOf s.host.mstat.toNat 3 0

/-- Writes a command's completion; behind events that wait, or a full ring, it waits too (R441). -/
def State.complete (s : State) (tag : BitVec 16) (status result : Nat) : State :=
  let c : Compl := { tag := tag, status := BitVec.ofNat 16 status, result := BitVec.ofNat 64 result }
  if s.evbuf.isEmpty && decide (s.ringUsed < s.ringSize) then s.putCompl c else { s with evbuf := s.evbuf ++ [c] }

/-- BADPARAM. -/
def stBADPARAM : Nat := 0x81
/-- NOT_READY. -/
def stNOTREADY : Nat := 0x82
/-- BUSY. -/
def stBUSY : Nat := 0x83

/-- The command processor performs a command: not while the completion ring is full (R441), and before READY only if `early` allows it
(R440). `f` gives the state after it with the status and the result, or nothing while the command must wait. -/
def State.perform (s : State) (c : Cmd) (early : Bool) (f : State → Option (State × Nat × Nat)) : State :=
  if s.ringSize ≤ s.ringUsed then s
  else if s.mstate ≠ 6 ∧ !early then s.complete c.tag stNOTREADY 0
  else match f s with
    | some (s, st, r) => s.complete c.tag st r
    | none => s

/-- A command that is done at once. -/
def runCmd (c : Cmd) (s : State) (f : State → State × Nat × Nat) : Host.Outcome State Fault Refusal :=
  .next (s.perform c false (fun s => some (f s)))

/-! ### The context descriptor (R266, R267) -/

/-- Windows that overlap (R178). -/
def windowsMeet (a b : Nat × Nat) : Bool := decide (a.1 < b.1 + b.2) && decide (b.1 < a.1 + a.2)

/-- The four windows of a descriptor with their sizes (R178). -/
def descWindows (v : Nat) : List (Nat × Nat) :=
  [(bitsOf v 319 256, 2 ^ 32), (bitsOf v 383 320, 2 ^ 32), (bitsOf v 447 384, 2 ^ 32), (bitsOf v 511 448, 2 ^ 16)]

/-- The windows are aligned, lie below 2^55 and do not overlap. -/
def windowsOk (v : Nat) : Bool :=
  let w := descWindows v
  w.all (fun x => x.1 % x.2 == 0 && decide (x.1 < 2 ^ 55))
    && (w.zip (List.range 4)).all (fun a => (w.zip (List.range 4)).all (fun b => a.2 == b.2 || !windowsMeet a.1 b.1))

/-- A physical address of a module with its low bits zero. -/
def physOk (modnum pa align : Nat) : Bool := pa >>> 43 == modnum && pa % 2 ^ align == 0

/-- The checks of R267. -/
def descRefused (modnum : Nat) (bs : List Byte) : Bool :=
  let v := leNat bs
  bitsOf v 2047 2016 != (crc32 (bs.take 252)).toNat || bitsOf v 15 0 != 1
    || bitsOf v 2015 1024 != 0 || bitsOf v 959 928 != 0 || bitsOf v 831 784 != 0 || bitsOf v 255 224 != 0 || bitsOf v 63 40 != 0
    || bitsOf v 927 896 == 0 || !physOk modnum (bitsOf v 895 832) 16
    || decide (bitsOf v 783 768 < 64) || !physOk modnum (bitsOf v 767 704) 12 || !physOk modnum (bitsOf v 703 640) 12
    || bitsOf v 523 512 != 0 || bitsOf v 575 567 != 0
    || !windowsOk v
    || decide (65536 < bitsOf v 223 192) || !physOk modnum (bitsOf v 191 128) 6 || !physOk modnum (bitsOf v 127 64) 16

/-- A descriptor after its checks (R266). -/
def descOf (v : Nat) : CtxDesc :=
  { asid := BitVec.ofNat 16 (bitsOf v 31 16), dbg := v.testBit 39, ptroot := bitsOf v 127 64, vdtb := bitsOf v 191 128,
    vdtlen := bitsOf v 223 192, scrb := bitsOf v 319 256, club := bitsOf v 383 320, prvb := bitsOf v 447 384,
    capb := bitsOf v 511 448, tvec := BitVec.ofNat 64 (bitsOf v 575 512), split := BitVec.ofNat 64 (bitsOf v 639 576),
    tplb := bitsOf v 703 640, errqb := bitsOf v 767 704, errqn := bitsOf v 783 768, saveb := bitsOf v 895 832,
    savesz := bitsOf v 927 896, step0 := BitVec.ofNat 64 (bitsOf v 1023 960) }

/-- The descriptor at a physical address with its context number; none for one that R267 rejects. -/
def State.readDesc (s : State) (pa : Nat) : Option (Nat × CtxDesc) :=
  if pa % 256 ≠ 0 ∨ pa >>> 43 ≠ s.modnum.toNat ∨ pa % 2 ^ 43 + 256 > hbmBytes then none
  else
    let bs := s.memBytes pa 256
    if descRefused s.modnum.toNat bs then none else some (bitsOf (leNat bs) 38 32, descOf (leNat bs))

/-- The context is live: neither FREE nor DRAINING. -/
def CtxSt.live (x : CtxSt) : Bool := x != .free && x != .draining

/-- An ASID that a context other than `c` has bound (R265). -/
def State.asidUsed (s : State) (c : Nat) (a : BitVec 16) : Bool := s.ctxs.any (fun p => p.1 != c && p.2.st != .free && p.2.desc.asid == a)

/-! ### Queues (R279, R281) -/

/-- A queue-table entry as the host has written its RW fields (R279); none for one that is not accepted (R6). -/
def State.readQueue (s : State) (q : Nat) : Option Queue :=
  let v := leNat (s.memBytes (s.host.qtbase.toNat + 64 * q) 64)
  if bitsOf v 511 160 ≠ 0 ∨ bitsOf v 133 128 ≠ 0 ∨ bitsOf v 95 81 ≠ 0 ∨ bitsOf v 67 64 < 4 ∨ 12 < bitsOf v 67 64 ∨ !physOk s.modnum.toNat (bitsOf v 63 0) 8
      ∨ 2 ^ 42 ≤ bitsOf v 63 0 % 2 ^ 43 then none
  else some { ctx := bitsOf v 77 71, prio := bitsOf v 70 68, logn := bitsOf v 67 64, dev := v.testBit 80, ring := bitsOf v 63 0 }

/-- Enables the DISABLED queues of the table that name a context (R270, R281). -/
def State.enableQueues (s : State) (c : Nat) : State :=
  (List.range 4096).foldl (fun (s : State) q =>
    match s.readQueue q with
    | some x => if x.ctx = c ∧ (s.queue q).st = .disabled then s.setQueue q x.enable else s
    | none => s) s

/-! ### Context commands (R269 to R275; statuses of R278) -/

/-- CTXNEW (R270). -/
def execCtxnew (c : Cmd) (s : State) : Host.Outcome State Fault Refusal :=
  runCmd c s (fun s =>
    match s.readDesc (argOf c 0) with
    | none => (s, 1, 0)
    | some (k, d) =>
      if (s.ctx k).st ≠ .free then (s, 2, 0)
      else if s.asidUsed k d.asid then (s, 3, 0)
      else
        let s := s.tlbi none (tlbiHit 1 d.asid 0)
        let s := s.setCtx k { st := .idle, desc := d, descPa := argOf c 0, step := d.step0, split := d.split.setWidth 2 }
        (s.enableQueues k, 0, 0))

/-- A frozen group of a context that the host has not resolved. -/
def State.frozenLeft (s : State) (k : Nat) : Bool :=
  s.groups.any (fun p => p.2.ctx == k && (p.2.st == .frozen || (p.2.st == .saved && p.2.savedFrom == .frozen)))

/-- A context goes back to IDLE; saved clusters come first (R270); the causes of a fault are cleared (R277). -/
def State.runCtx (s : State) (k : Nat) : State :=
  let saved := s.anySaved k
  s.modCtx k (fun x => { x with st := .idle, fcause := 0, pcause := 0, faultAfterSave := false, saveShort := false, restoring := saved })

/-- CTXRUN (R270, R274). -/
def execCtxrun (c : Cmd) (s : State) : Host.Outcome State Fault Refusal :=
  let k := argOf c 0
  runCmd c s (fun s =>
    if 128 ≤ k then (s, stBADPARAM, 0)
    else if ((s.ctx k).st = .saved ∨ (s.ctx k).st = .faulted) ∧ !s.frozenLeft k then (s.runCtx k, 0, 0)
    else (s, 4, 0))

/-- CTXSTOP (R270, R272): completes at acceptance. -/
def execCtxstop (c : Cmd) (s : State) : Host.Outcome State Fault Refusal :=
  let k := argOf c 0
  runCmd c s (fun s =>
    if 128 ≤ k then (s, stBADPARAM, 0)
    else match (s.ctx k).st with
      | .idle | .active => (s.beginSave k, 0, 0)
      | .saving | .faulted => (s, 0, 0)
      | _ => (s, 4, 0))

/-- CTXKILL (R270, R275): completes at acceptance. -/
def execCtxkill (c : Cmd) (s : State) : Host.Outcome State Fault Refusal :=
  let k := argOf c 0
  runCmd c s (fun s =>
    if 128 ≤ k then (s, stBADPARAM, 0)
    else if (s.ctx k).st.live then (s.beginDrain k, 0, 0) else (s, 4, 0))

/-- The fields that CTXSYNC may not change while the context is not SAVED, made equal to the old ones (R269). -/
def CtxDesc.synced (old new : CtxDesc) : CtxDesc :=
  { old with ptroot := new.ptroot, vdtb := new.vdtb, vdtlen := new.vdtlen, tvec := new.tvec, split := new.split, dbg := new.dbg,
             errqb := new.errqb, errqn := new.errqn }

/-- The context whose descriptor a CTXSYNC names: the parameter is the descriptor's address (R441). -/
def State.syncCtx (s : State) (pa k : Nat) : Nat := ((s.ctxs.find? (fun p => p.2.st.live && p.2.descPa == pa)).map (fun p => p.1)).getD k

/-- CTXSYNC (R269, R434). -/
def execCtxsync (c : Cmd) (s : State) : Host.Outcome State Fault Refusal :=
  runCmd c s (fun s =>
    match s.readDesc (argOf c 0) with
    | none => (s, 1, 0)
    | some (n, d) =>
      let k := s.syncCtx (argOf c 0) n
      let x := s.ctx k
      if k ≠ n ∨ !x.st.live then (s, 4, 0)
      else if x.st ≠ .saved ∧ x.desc.synced d ≠ d then (s, 4, 0)
      else if s.asidUsed k d.asid then (s, 3, 0)
      else
        let s := if d.asid = x.desc.asid then s else (s.tlbi none (tlbiHit 1 x.desc.asid 0)).tlbi none (tlbiHit 1 d.asid 0)
        (s.modCtx k (fun x => { x with desc := d, descPa := argOf c 0, split := d.split.setWidth 2 }), 0, 0))

/-! ### Queue commands (R281) -/

/-- QCREATE. -/
def execQcreate (c : Cmd) (s : State) : Host.Outcome State Fault Refusal :=
  let q := argOf c 0
  runCmd c s (fun s =>
    if 4096 ≤ q ∨ (s.queue q).st ≠ .disabled then (s, stBADPARAM, 0)
    else match s.readQueue q with
      | none => (s, stBADPARAM, 0)
      | some x => if (s.ctx x.ctx).st.live then (s.setQueue q x.enable, 0, 0) else (s, stBADPARAM, 0))

/-- A queue in ERROR goes back to ENABLED, its error fields cleared. -/
def Queue.resumed (x : Queue) : Queue := { x with st := .enabled, ecause := 0, esrc := false, eidx := 0, headRec := none }

/-- The refused record or task of a queue is discarded; a QOVERRUN refused none (R281). -/
def Queue.skipped (x : Queue) : Queue :=
  if x.esrc then { x with fired := x.fired.tail }
  else if x.ecause = cQOVERRUN then x
  else { x with head := x.head + 1 }

/-- QRESUME.skip. -/
def execQresumeSkip (c : Cmd) (s : State) : Host.Outcome State Fault Refusal :=
  let q := argOf c 0
  runCmd c s (fun s =>
    if 4096 ≤ q ∨ (s.queue q).st ≠ .error then (s, stBADPARAM, 0)
    else (s.modQueue q (fun x => x.skipped.resumed), 0, 0))

/-- QRESUME.retry. -/
def execQresumeRetry (c : Cmd) (s : State) : Host.Outcome State Fault Refusal :=
  let q := argOf c 0
  runCmd c s (fun s =>
    if 4096 ≤ q ∨ (s.queue q).st ≠ .error then (s, stBADPARAM, 0)
    else (s.modQueue q Queue.resumed, 0, 0))

/-- QDESTROY. -/
def execQdestroy (c : Cmd) (s : State) : Host.Outcome State Fault Refusal :=
  let q := argOf c 0
  runCmd c s (fun s =>
    if 4096 ≤ q ∨ (s.queue q).st = .disabled then (s, stBADPARAM, 0)
    else (s.modQueue q Queue.disable, 0, 0))

/-! ### Counter commands (R284) -/

/-- DEPSET: owner and 24-bit value; a task is discarded. -/
def execDepset (c : Cmd) (s : State) : Host.Outcome State Fault Refusal :=
  runCmd c s (fun s =>
    if 8192 ≤ argOf c 0 ∨ 128 ≤ argOf c 1 then (s, stBADPARAM, 0)
    else (s.setCtr (argOf c 0) { owner := some (argOf c 1), value := argOf c 2 % 2 ^ 24 }, 0, 0))

/-- DEPFREE. -/
def execDepfree (c : Cmd) (s : State) : Host.Outcome State Fault Refusal :=
  runCmd c s (fun s => if 8192 ≤ argOf c 0 then (s, stBADPARAM, 0) else (s.setCtr (argOf c 0) {}, 0, 0))

/-- The host's DEPDEC: a 16-bit amount, any owner, the effect of R260. -/
def execHostDepdec (c : Cmd) (s : State) : Host.Outcome State Fault Refusal :=
  runCmd c s (fun s =>
    if 8192 ≤ argOf c 0 then (s, stBADPARAM, 0)
    else match (s.ctr (argOf c 0)).owner with
      | none => (s, stBADPARAM, 0)
      | some k => (s.decCtr (argOf c 0) (argOf c 2 % 2 ^ 16) { refusalRec k cDEP_UNDERFLOW with unit := 15 }, 0, 0))

/-! ### Error queues and cores (R422, R426) -/

/-- ERRPOP: removes the oldest record of a context's queue, or with FLG[0] = 1 of the module's. -/
def execErrpop (c : Cmd) (s : State) : Host.Outcome State Fault Refusal :=
  let k := argOf c 0
  runCmd c s (fun s =>
    if c.flg.getLsbD 0 then ({ s with modErrq := s.modErrq.pop 4096 }, 0, 0)
    else if 128 ≤ k ∨ !(s.ctx k).st.live then (s, stBADPARAM, 0)
    else (s.modCtx k (fun q => { q with errq := q.errq.pop q.desc.errqn }), 0, 0))

/-- CORERET: the host retires a core position. -/
def execCoreret (c : Cmd) (s : State) : Host.Outcome State Fault Refusal :=
  let k := argOf c 0
  runCmd c s (fun s =>
    if Config.corePositions ≤ k ∨ !(s.core k).enabled then (s, stBADPARAM, 0) else (s.retireCore k, 0, 0))

/-! ### RESYNC (R276, R277) -/

/-- A section: its entries, each of w bytes, in n bytes, and whether some were left out. -/
def rsSection (n w : Nat) (es : List (List Byte)) : List Byte × Bool :=
  let b := (es.take (n / w)).flatten
  (b ++ List.replicate (n - b.length) 0, decide (n / w < es.length))

/-- The state code of a context (R277). -/
def CtxSt.code : CtxSt → Nat
  | .free => 0 | .idle => 1 | .active => 2 | .saving => 3 | .saved => 4 | .faulted => 5 | .draining => 6

/-- The entry of a context. -/
def State.rsCtx (s : State) (p : Nat × Ctx) : List Byte :=
  let x := p.2
  let teams := (s.teams.filter (fun q => q.2.st == .running
    && ((s.launch? q.2.launch).map (fun (l : Launch) => l.ctx)) == some p.1)).length
  let bad := x.st == .faulted
  leBytes 16 (packFields [(x.desc.asid.toNat, 0), (p.1, 16), (x.st.code, 24), (teams, 32), (if bad then x.fcause.toNat else 0, 64),
    (if bad then x.pcause.toNat else 0, 73), (x.errq.count, 96)])

/-- The number of a link's bundles toward the spoke, or of a fabric port's lanes outward, in use (R277, R388). -/
def Link.resyncCount (x : Link) (k : Nat) : Nat :=
  if k < 12 then x.spoke
  else if x.st = .down ∨ x.st = .train ∨ x.st = .reset then 0
  else if x.bad.any (fun q => q.1 == 0) then 4 else 8

/-- The state code of a link (R386). -/
def LinkSt.code : LinkSt → Nat
  | .down => 0 | .train => 1 | .full => 2 | .half => 3 | .turning => 4 | .fwdonly => 5 | .reset => 6

/-- The last boundary that this module has committed for a context, 0 if none. -/
def State.lastCaptured (s : State) (c : Nat) : Nat :=
  match (s.ctx c).stepGroup with
  | none => 0
  | some g =>
    let x : StepGroup := cget {} s.stepGroups g
    let i := (x.members.takeWhile (fun m => m != (s.modnum.toNat, c))).length
    (cget none x.commits i).getD 0

/-- The sections after the header, in order. -/
def State.rsSections (s : State) : List (List Byte × Bool) :=
  let keyNum : ParkKey → Nat
    | .page _ v => v
    | .token t => t
    | .overflow => 0
  let isTok : ParkKey → Bool
    | .token _ => true
    | _ => false
  let waitAt (die : Nat) : List WaitEnt := (List.range 1024).filterMap (fun i => s.waits.find? (fun e => e.die == die && e.idx == i))
  [ rsSection 2048 16 ((s.ctxs.filter (fun p => p.2.st != .free)).map s.rsCtx),
    rsSection 2048 8 ((s.queues.filter (fun p => p.2.st == .error || p.2.head != p.2.tail)).map (fun p =>
      leBytes 8 (packFields [(p.1, 0), (p.2.prio, 12), (if p.2.st = .error then 1 else 0, 15), (p.2.ctx, 16), (p.2.held, 32)]))),
    rsSection 2048 4 ((s.ctrs.filter (fun p => p.2.value != 0)).map (fun p => leBytes 4 (p.1 + 2 ^ 13 * min p.2.value 0x7FFFF))),
    rsSection 4096 32 ((s.faults.filter (fun r => r.isOpen)).map (fun r => r.full.take 32)),
    rsSection 2048 8 ((List.range 8).flatMap (fun die => (waitAt die).map (fun e =>
      leBytes 8 (packFields [(die, 0), (e.idx, 3), (if isTok e.key then 1 else 0, 13), (min 255 e.groups, 14), (keyNum e.key, 22)])))),
    rsSection 192 8 ((List.range 24).map (fun k => let x := s.link k
      leBytes 8 (packFields [(x.st.code, 0), (x.resyncCount k % 64, 3), (x.errs, 9)]))),
    rsSection 2048 16 ((List.range 128).map (fun k => let x := s.ctx k
      if x.st = .free then List.replicate 16 0 else leBytes 8 x.step.toNat ++ leBytes 8 (s.lastCaptured k))),
    rsSection 1024 2 ((List.range 512).map (fun k => leBytes 2 (min 0xFFFF (cget 0 s.errCounts k)))),
    (List.replicate 768 0, false) ]

/-- The summary (R277). -/
def State.summary (s : State) : List Byte :=
  let secs := s.rsSections
  let trunc := (secs.zip (List.range 9)).foldl (fun n p => if p.1.2 then n + 2 ^ p.2 else n) 0
  let head := leBytes 60 (packFields [(1, 0), (s.resyncSeq.toNat, 16), (trunc, 32), (s.timebase.toNat, 64), (s.timebase.toNat, 128),
    (s.host.msplit.toNat, 192)])
  let body := secs.flatMap (fun x => x.1)
  head ++ leBytes 4 (crc32 (head ++ body)).toNat ++ body

/-- RESYNC (R276): the summary is written to host memory. One command completes before the next begins, so none finds another in
progress. -/
def execResync (c : Cmd) (s : State) : Host.Outcome State Fault Refusal :=
  runCmd c s (fun s =>
    if argOf c 0 % 4096 ≠ 0 then (s, stBADPARAM, 0)
    else
      let s := { s with resyncSeq := s.resyncSeq + 1 }
      ({ s with hostMem := cputs 0 s.hostMem (argOf c 0) s.summary }, 0, 0))

end Sys2Proof.Machine
end

