-- ==== Sys2Proof/Machine/CrossLane.lean ====
section
/-! DEFINITION. The cross-lane instructions (R141 to R150). -/

namespace Sys2Proof.Machine

/-- +0 of a type: the code 0x77 for ts8, which has no zero of bits 0 (R36, R141); code 0 for sx8, which has no zero at all (R41, log 68). -/
def zeroCode : Ty → Nat
  | .ts8 => 0x77
  | _ => 0

/-- The contributors of R142: the lanes of `act` that are not helpers. -/
def Iss.contributors (c : Iss) : Mask := c.real

/-- The words skipped when each lane of `act` reads its own sources: a reduction reads every lane's element once (R61, log 81). -/
def ownSkips (srcs : List Src) (s : State) (c : Iss) (pop : Popped) (l : Nat) : Nat :=
  srcs.foldl (fun a q => a + (s.readSrc c.x pop q l).2.2) 0

/-- The effect of an instruction whose lanes' results come from a function of every lane's source (R141, R142). `f` gets
each source's value per lane and gives value, poison and flags; `skip` gives the words that the reads of a lane of `act` skip. -/
def xlaneBody (d : Opnd) (srcs : List Src) (n bits : Nat) (skip : State → Iss → Popped → Nat → Nat)
    (f : State → Iss → Popped → Nat → Nat × Bool × Flags) (s : State) (c : Iss) : Except Stop State :=
  match s.popAll c (portsOf srcs) with
  | .error e => .error e
  | .ok (s, pop) =>
    let ls := computeLanes d c.act
    let skips := (lanesOf c.act).foldl (fun a l => a + skip s c pop l) 0
    let outs := ls.map (fun l => (l, f s c pop l))
    let fl := (outs.filter (fun o => isScalOp d || (c.x.lane o.1).st != .helper)).foldl (fun a o => a ||| o.2.2.2) 0
    let s := s.modGroup c.g (fun x => (x.skip skips).addFlags fl)
    s.putResults c d n bits (outs.map (fun o => { lane := o.1, v := o.2.1, p := o.2.2.1 })) none

/-- The value that a lane reads from a source lane, its poison, and the words skipped in reading it (R61, R141). -/
def State.laneRead (s : State) (c : Iss) (pop : Popped) (q : Src) (reader : Nat) (src : Int) (inRange : Bool) : Nat × Bool × Nat :=
  if inRange && decide (0 ≤ src) && decide (src < 32) then
    if (c.x.lane src.toNat).st == .empty then (zeroCode q.ty, false, 0) else s.readSrc c.x pop q src.toNat
  else s.readSrc c.x pop q reader

/-- The lanes that a shuffle's source accesses, by the index of each lane: `act`, and the other lanes that it reads and that are not
empty (R63, R141). -/
def pickedLanes (c : Iss) (pick : Nat → Nat → Int × Bool) (idx : Nat → Nat) : Mask :=
  c.act ||| (maskOf ((lanesOf c.act).filterMap (fun l =>
    let p := pick l (idx l)
    if p.2 && decide (0 ≤ p.1) && decide (p.1 < 32) then some p.1.toNat else none)) &&& ~~~c.x.empties)

/-- The index of a shuffle is known at the checks: it stands in no port, and no earlier instruction has still to write it (R141), nor a
matrix operation (R234). -/
def State.indexKnown (s : State) (c : Iss) (e : Enc) (b : Src) : Bool :=
  match b.o with
  | .port _ => false
  | o =>
    let u : Use := { o := o, n := Ty.bytes b.ty, lanes := c.act }
    (dependsOn c.x [u]).isEmpty && !s.matrixHolds c.g c.x e [u]

/-- The lanes that a shuffle's source accesses, as far as they are known at the checks. -/
def State.shuffleLanes (s : State) (c : Iss) (e : Enc) (b : Src) (pick : Nat → Nat → Int × Bool) : Mask :=
  if s.indexKnown c e b then pickedLanes c pick (fun l => (s.readSrc c.x [] b l).1) else c.act

/-- What a shuffle whose index stands in a port meets in the lanes that it reads, before the port pops: RS_BOUNDS where it reads bytes at W
or above, or a lock of a matrix operation (R61, R63, R141, R235). -/
def State.shuffleStop (s : State) (c : Iss) (e : Enc) (n : Nat) (b : Src) (pick : Nat → Nat → Int × Bool) : Option Stop :=
  match b.o with
  | .port k =>
    match s.popAll c [k] with
    | .error _ => none
    | .ok (s', pop) =>
      let u : Use := { o := e.a, n := n, lanes := pickedLanes c pick (fun l => (s'.readSrc c.x pop b l).1) }
      if Use.outOfBounds c.x u then some (.plain cRS_BOUNDS c.fault)
      else if s.matrixHolds c.g c.x e [u] then some .hold else none
  | _ => none

/-- A shuffle: each lane of `act` takes a from the source lane that `pick` gives for it and its index (R144, R145). -/
def shuffle (e : Enc) (s : State) (pick : Nat → Nat → Int × Bool) : Host.Outcome State Fault Refusal :=
  let a := tySrc e e.a
  let b : Src := { o := e.b, ty := e.ty, raw := true }
  let bs := if e.b == .nil then [] else [b]
  runInstr false (fun s c =>
      { o := e.d, n := Ty.bytes e.ty, lanes := c.act, dest := true } ::
      { o := e.a, n := Ty.bytes e.ty, lanes := s.shuffleLanes c e b pick } ::
      bs.map (fun q => { o := q.o, n := Ty.bytes q.ty, lanes := c.act })) false e s (fun s c =>
    match s.shuffleStop c e (Ty.bytes e.ty) b pick with
    | some st => .error st
    | none => xlaneBody e.d (a :: bs) (Ty.bytes e.ty) (Ty.bits e.ty) (fun s c pop l =>
      let i := s.readSrc c.x pop b l
      let p := pick l i.1
      i.2.2 + (s.laneRead c pop a l p.1 p.2).2.2) (fun s c pop l =>
      let i := s.readSrc c.x pop b l
      let p := pick l i.1
      let r := s.laneRead c pop a l p.1 p.2
      (r.1, r.2.1 || i.2.1, 0)) s c)

/-- SHFI (R144). -/
def execShfi (e : Enc) (s : State) : Host.Outcome State Fault Refusal := shuffle e s (fun _ i => (i, true))

/-- SHFX (R144). -/
def execShfx (e : Enc) (s : State) : Host.Outcome State Fault Refusal :=
  shuffle e s (fun l i => ((l ^^^ i : Nat), decide (i < 32)))

/-- SHFN (R144). -/
def execShfn (e : Enc) (s : State) : Host.Outcome State Fault Refusal :=
  shuffle e s (fun l i =>
    let t : Int := (l : Int) + signedOf (Ty.bits e.ty) i
    (if e.mod.getLsbD 0 then t % 32 else t, true))

/-- QSWP (R145). -/
def execQswp (e : Enc) (s : State) : Host.Outcome State Fault Refusal :=
  shuffle e s (fun l _ => ((l ^^^ (e.x.toNat % 4 + 1) : Nat), true))

/-- QBC (R145): an index above 3 lies outside the quad. -/
def execQbc (e : Enc) (s : State) : Host.Outcome State Fault Refusal :=
  shuffle e s (fun l i => ((4 * (l / 4) + i : Nat), decide (i < 4)))

/-- The identity of a reduction (R147). -/
def redIdentity (t : Ty) (op : Nat) : Nat :=
  match op with
  | 1 => match Ty.fmt t with | some f => infCode t f false | none => wrapBits (Ty.bits t) (intHi t)
  | 2 => match Ty.fmt t with | some f => infCode t f true | none => wrapBits (Ty.bits t) (intLo t)
  | 3 => 2 ^ Ty.bits t - 1
  | _ => 0

/-- The smallest or largest of values by R123 across them: NaNs give way, all NaN gives the canonical NaN (R147). -/
def fpExtreme (t : Ty) (wantMax : Bool) (vs : List Nat) : Nat × Flags :=
  (vs.foldl (fun (a : Option Nat) v => match a with | none => some v | some w => some (fpPick t wantMax w v)) none
    |>.map (fun v => if (valOf t v).isNaN then canonNaN t else v) |>.getD (redIdentity t (if wantMax then 2 else 1)),
   if vs.any (fun v => (valOf t v).isSNaN) then flNV else 0)

/-- A reduction over codes in ascending lane order (R145, R147). -/
def reduce (t : Ty) (op : Nat) (vs : List Nat) : Nat × Flags :=
  if vs.isEmpty then (redIdentity t (if op = 6 then 0 else op), 0)
  else match op with
    | 1 => if Ty.isFloat t then fpExtreme t false vs
           else (wrapBits (Ty.bits t) ((vs.map (intOf t)).foldl min (intHi t)), 0)
    | 2 => if Ty.isFloat t then fpExtreme t true vs
           else (wrapBits (Ty.bits t) ((vs.map (intOf t)).foldl max (intLo t)), 0)
    | 3 => (vs.foldl (· &&& ·) (2 ^ Ty.bits t - 1), 0)
    | 4 => (vs.foldl (· ||| ·) 0, 0)
    | 5 => (vs.foldl (· ^^^ ·) 0, 0)
    | _ =>
      if Ty.isFloat t then
        let x := sumVals .rne (vs.map (valOf t))
        let r := round t .rne 1 x.v
        (r.code, r.fl ||| (if x.nv then flNV else 0))
      else (wrapBits (Ty.bits t) ((vs.map (intOf t)).foldl (· + ·) 0), 0)

/-- The first lane of a lane's segment: lane 0, or the last lane at or below it whose bit is set (R142). -/
def segStart (pk : Mask) : Nat → Nat
  | 0 => 0
  | l + 1 => if pk.getLsbD (l + 1) then l + 1 else segStart pk l

/-- Whether two lanes lie in one segment (R142). -/
def sameSeg (seg : Option Mask) (a b : Nat) : Bool :=
  match seg with
  | none => true
  | some pk => segStart pk a == segStart pk b

/-- The reduction of the sources of some lanes, with its poison. -/
def State.reduceLanes (s : State) (c : Iss) (pop : Popped) (q : Src) (op : Nat) (ls : List Nat) : Nat × Bool × Flags :=
  let vs := ls.map (fun l => s.readSrc c.x pop q l)
  let r := reduce q.ty op (vs.map (fun v => v.1))
  (r.1, vs.any (fun v => v.2.1), r.2)

/-- QRED (R145): over the lanes of the quad in `act`, helpers included. -/
def execQred (e : Enc) (s : State) : Host.Outcome State Fault Refusal :=
  let q := tySrc e e.a
  runInstr false (opUses [q] e.d (Ty.bytes e.ty)) false e s
    (xlaneBody e.d [q] (Ty.bytes e.ty) (Ty.bits e.ty) (ownSkips [q]) (fun s c pop l =>
      s.reduceLanes c pop q (e.mod.toNat % 8) ((lanesOf c.act).filter (fun k => k / 4 == l / 4))))

/-- The segments of GRED and GSCAN (R142). -/
def segOf (e : Enc) (c : Iss) : Option Mask := if e.mod.getLsbD 3 then some (c.x.predMask e.x.toNat) else none

/-- GRED (R147). With `act` empty a scalar D keeps its value: no lane asks for the result (log 82). -/
def execGred (e : Enc) (s : State) : Host.Outcome State Fault Refusal :=
  let q := tySrc e e.a
  runInstr false (opUses [q] e.d (Ty.bytes e.ty)) false e s
    (xlaneBody e.d [q] (Ty.bytes e.ty) (Ty.bits e.ty) (ownSkips [q]) (fun s c pop l =>
      s.reduceLanes c pop q (e.mod.toNat % 8) ((lanesOf c.contributors).filter (fun k => sameSeg (segOf e c) k l))))

/-- GSCAN (R148). -/
def execGscan (e : Enc) (s : State) : Host.Outcome State Fault Refusal :=
  let q := tySrc e e.a
  let op := e.mod.toNat % 8
  runInstr false (opUses [q] e.d (Ty.bytes e.ty)) false e s
    (xlaneBody e.d [q] (Ty.bytes e.ty) (Ty.bits e.ty) (ownSkips [q]) (fun s c pop l =>
      s.reduceLanes c pop q op ((lanesOf c.contributors).filter (fun k =>
        sameSeg (segOf e c) k l && (decide (k < l) || (k == l && op != 6))))))

/-- The vote of `.all`, `.any` and `.eq` over the contributors (R146). -/
def voteOf (form : Nat) (contrib pa : Mask) : Bool :=
  match form with
  | 0 => contrib &&& ~~~pa == 0
  | 1 => contrib &&& pa != 0
  | _ => contrib &&& ~~~pa == 0 || contrib &&& pa == 0

/-- VOTE (R146). With `act` empty a scalar D of `.ballot` keeps its value (log 82). -/
def execVote (e : Enc) (s : State) : Host.Outcome State Fault Refusal :=
  let form := e.mod.toNat % 4
  if form = 3 then
    runInstr false (opUses [] e.d 4) false e s
      (xlaneBody e.d [] 4 32 (ownSkips []) (fun _ c _ _ => ((c.contributors &&& c.x.predMask (predIdxOf e.a).toNat).toNat, false, 0)))
  else
    runInstr false (fun _ _ => []) false e s (fun s c =>
      let v := voteOf form c.contributors (c.x.predMask (predIdxOf e.a).toNat)
      .ok (s.modGroup c.g (fun x => x.setPred (predIdxOf e.d).toNat c.act (if v then ~~~0 else 0))))

/-- MATCH (R149). -/
def execMatch (e : Enc) (s : State) : Host.Outcome State Fault Refusal :=
  let q := tySrc e e.a
  runInstr false (opUses [q] e.d 4) false e s
    (xlaneBody e.d [q] 4 32 (ownSkips [q]) (fun s c pop l =>
      let own := s.readSrc c.x pop q l
      let cs := (lanesOf c.contributors).map (fun k => (k, s.readSrc c.x pop q k))
      ((maskWhere cs (fun k => k.1) (fun k => k.2.1 == own.1)).toNat, own.2.1 || cs.any (fun k => k.2.2.1), 0)))

/-- CMPK (R150). -/
def execCmpk (e : Enc) (s : State) : Host.Outcome State Fault Refusal :=
  let q := tySrc e e.a
  runInstr false (opUses [q] e.d (Ty.bytes e.ty)) false e s
    (xlaneBody e.d [q] (Ty.bytes e.ty) (Ty.bits e.ty) (ownSkips [q]) (fun s c pop l =>
      let kept := lanesOf (c.contributors &&& c.x.predMask (predIdxOf e.b).toNat)
      let j := ((lanesOf c.act).takeWhile (fun k => k != l)).length
      match kept[j]? with
      | some k => let r := s.readSrc c.x pop q k; (r.1, r.2.1, 0)
      | none => (zeroCode e.ty, false, 0)))

end Sys2Proof.Machine
end

