-- ==== Sys2Proof/Machine/PageSvc.lean ====
section
/-! DEFINITION. The page service (R365), migration (R369), changes of the coherence attribute (R350, R351), the host's RPLY and TLBI
(R171, R172), and the steps of the token protocol that no access makes (R345 to R347). -/

namespace Sys2Proof.Machine

/-! ### The page service (R365) -/

/-- The page service takes a record: the oldest buffered record of a die moves into the place (R365). -/
def State.takeFault (s : State) (token : Nat) : State :=
  let taken := s.faults.map (fun (r : FaultRec) => if r.token == token then { r with queued := false } else r)
  let s := { s with faults := taken.filter (fun r => r.queued || r.isOpen) }
  match s.faults.find? (fun r => r.queued && r.slot.isNone) with
  | none => s
  | some b =>
    let b' := { b with slot := some s.faultTail }
    { s with faults := s.faults.map (fun (r : FaultRec) => if r.token == b.token then b' else r),
             faultTail := s.faultTail + 1 }.putFault b'

/-- The dies of a mask. -/
def diesOf (mask : Nat) : List Nat := (List.range 8).filter (fun d => mask.testBit d)

/-- RPLY of a key on several dies: the groups woken (R172); launches whose completion word waited for a page complete (R370). -/
def State.replyOn (s : State) (dies : List Nat) (key : ParkKey) : State × Nat :=
  let r := dies.foldl (fun (acc : State × Nat) d => let r := acc.1.reply d key; (r.1, acc.2 + r.2)) (s, 0)
  (r.1.resumeAll.settleLaunches, r.2)

/-- The absent entry of a record that the firmware serves: the address of a demand-zero leaf. -/
def State.demandZero (s : State) (r : FaultRec) : Option Nat :=
  if r.hw && r.level == 1 then
    match s.walk 15 (s.ctx r.ctx).desc r.va with
    | .absent 1 addr => if (leNat (s.memBytes addr 8)).testBit 12 then some addr else none
    | _ => none
  else none

/-- PAGE_SERVICE_DEMAND_ZERO (R365): the oldest record of the fault queue is served from the context's free pages, or forwarded to the
host. -/
def execPageServiceDemandZero (s : State) : Host.Outcome State Fault Refusal :=
  .next (match s.faults.find? (fun r => r.queued && r.slot.isSome) with
    | none => s
    | some r =>
      let s := s.takeFault r.token
      match s.demandZero r, (s.ctx r.ctx).freePages with
      | some addr, p :: rest =>
        let s := s.modCtx r.ctx (fun x => { x with freePages := rest })
        let s := s.homeWrite p (List.replicate 65536 0) false
        let s := s.homeWrite addr (leBytes 8 (p / 65536 * 65536 + 15)) false
        (s.replyOn (diesOf r.dieMask) r.key).1
      | _, _ => s.notify)

/-- PGFREE: frames from a base on join a context's free list (R441; its parameters are log 36). -/
def execPgfree (c : Cmd) (s : State) : Host.Outcome State Fault Refusal :=
  runCmd c s (fun s =>
    let k := argOf c 0
    let a := argOf c 1
    let n := argOf c 2
    if 128 ≤ k ∨ !(s.ctx k).st.live ∨ a % 65536 ≠ 0 ∨ a >>> 43 ≠ s.modnum.toNat ∨ hbmBytes < a % 2 ^ 43 + 65536 * n then (s, stBADPARAM, 0)
    else (s.modCtx k (fun x => { x with freePages := x.freePages ++ (List.range n).map (fun i => a + 65536 * i) }), 0, 0))

/-! ### Replies and invalidations by the host (R171, R172) -/

/-- RPLY: the dies of a mask, then the operands of R172; FLG[0] as its form. The result counts the groups woken. -/
def execHostRply (c : Cmd) (s : State) : Host.Outcome State Fault Refusal :=
  runCmd c s (fun s =>
    let key : ParkKey := if c.flg.getLsbD 0 then .token (argOf c 1)
      else .page (BitVec.ofNat 16 (argOf c 1)) ((argOf c 2 % 2 ^ 55) >>> 16)
    let r := s.replyOn (diesOf (argOf c 0)) key
    (r.1, 0, r.2))

/-- TLBI: the dies of a mask, every one meaning the module; then the operands of R171; FLG[1:0] as its form. -/
def execHostTlbi (c : Cmd) (s : State) : Host.Outcome State Fault Refusal :=
  runCmd c s (fun s =>
    let form := c.flg.toNat % 4
    let hit := tlbiHit form (BitVec.ofNat 16 (argOf c 1)) (argOf c 2 % 2 ^ 55)
    if form = 3 then (s, stBADPARAM, 0)
    else if argOf c 0 % 256 = 255 then (s.tlbi none hit, 0, 0)
    else ((diesOf (argOf c 0)).foldl (fun (s : State) d => s.tlbi (some d) hit) s, 0, 0))

/-! ### Migration (R369) -/

/-- The live context of an ASID. -/
def State.ctxOfAsid (s : State) (a : BitVec 16) : Option Nat := (s.ctxs.find? (fun p => p.2.st.live && p.2.desc.asid == a)).map (fun p => p.1)

/-- Copies a 64 KiB page, carrying poison; data that goes to the tier is accepted by its queues (R369, R383). -/
def State.copyPage (s : State) (src dst : Nat) : State :=
  let s := s.hbmTouch src 65536 false
  (List.range 2048).foldl (fun (s : State) i =>
    let a := src + 32 * i
    let b := dst + 32 * i
    let data := if a.testBit 42 then (List.range 32).map (fun k => s.scmByte (a + k))
      else (s.memBytes a 32).map (fun x => (x, s.memPoison a 32))
    let bs := data.map (fun x => x.1)
    let pois := data.any (fun x => x.2)
    if b.testBit 42 then s.accept { pa := b, bytes := bs, pois := pois } else s.homeWrite b bs pois) s

/-- An access to a physical page that was translated before has still to be performed: a write request, or a copy's element that its queue
has still to accept (R350, R369). -/
def State.pagePending (s : State) (page : Nat) : Bool :=
  s.mergeQ.any (fun r => r.scr.isNone && rangesMeet r.pa r.bytes.length page 65536)
    || s.copies.any (fun y => y.pending.any (fun q => rangesMeet q.1 q.2.1.length page 65536))

/-- The queues cannot take a page of the tier now: they have no room for its sectors, or a chunk or a parity holder is awaited (R383, R402,
R416). -/
def State.tierWaits (s : State) (pa : Nat) : Bool :=
  s.power.failed || !s.roomFor ((List.range 2048).map (fun i => pa + 32 * i)) || s.unbuilt pa || s.deltasWait pa

/-- PGMIG: ASID, page, new physical page; steps 1 to 7 of R369 in order. A page that the etcher must still capture waits (R368), and does one with accesses that have still to be performed (step 3), or one bound for the tier whose queues have no room: the command begins once
they are. -/
def execPgmig (c : Cmd) (s : State) : Host.Outcome State Fault Refusal :=
  let asid := BitVec.ofNat 16 (argOf c 0)
  let va := argOf c 1 % 2 ^ 55
  let new := argOf c 2
  .next (s.perform c false (fun s =>
    let s := s.grantDue
    match s.ctxOfAsid asid with
    | none => some (s, 4, 0)
    | some k =>
      match s.walk 15 (s.ctx k).desc va with
      | .leaf pte 1 addr =>
        if new % 65536 ≠ 0 ∨ populated new 65536 = false then some (s, stBADPARAM, 0)
        else if (s.ctx k).split.getLsbD 0 || pte.testBit 11 then some (s, 4, 0)
        else if pte.testBit 10 || s.pagePending (bitsOf pte 51 16 * 65536) || (new.testBit 42 && s.tierWaits new) then none
        else
          let s := s.homeWrite addr (leBytes 8 (pte + 2 ^ 11)) (s.memPoison addr 8)
          let s := s.tlbi none (tlbiHit 2 asid va)
          let s := s.copyPage (bitsOf pte 51 16 * 65536) new
          let keep := pte - bitsOf pte 51 16 * 65536 - (if pte.testBit 7 then 128 else 0)
          let s := s.homeWrite addr (leBytes 8 (keep + new + (if new.testBit 42 then 128 else 0))) (s.memPoison addr 8)
          let s := s.tlbi none (tlbiHit 2 asid va)
          some ((s.replyOn (List.range 8) (.page asid (va >>> 16))).1, 0, 0)
      | _ => some (s, 4, 0)))

/-! ### COHSET (R350, R351) -/

/-- The leaf of each page of a range: its entry, level and address; none if a page is not mapped or lies in another module. -/
def State.rangeLeaves (s : State) (d : CtxDesc) (va : Nat) : Nat → Option (List (Nat × Nat × Nat × Nat))
  | 0 => some []
  | n + 1 =>
    match s.walk 15 d va with
    | .leaf pte level addr =>
      if leafPa pte level va >>> 43 ≠ s.modnum.toNat then none
      else (s.rangeLeaves d (va + 65536) n).map (fun l => (va, pte, level, addr) :: l)
    | _ => none

/-- A physical line lies under one of the leaves of a range. -/
def underLeaves (ps : List (Nat × Nat × Nat × Nat)) (ln : Nat) : Bool :=
  ps.any (fun p => (128 * ln) >>> lvlShift p.2.2.1 == leafPa p.2.1 p.2.2.1 p.1 >>> lvlShift p.2.2.1)

/-- Steps 1 and 2 of R350: every copy of a line of the range leaves every cache, dirty data to memory, tokens to the home agents. -/
def State.flushRange (s : State) (ps : List (Nat × Nat × Nat × Nat)) : State :=
  ((s.lines.filter (fun l => underLeaves ps l.1)).map (fun l => l.1)).foldl State.flushLine s

/-- Step 3 of R350 for one page: the leaf's COH is written. -/
def State.writeCoh (s : State) (coh : Nat) (p : Nat × Nat × Nat × Nat) : State :=
  let e := leNat (s.memBytes p.2.2.2 8)
  s.homeWrite p.2.2.2 (leBytes 8 (e - bitsOf e 6 5 * 32 + coh * 32)) (s.memPoison p.2.2.2 8)

/-- An access to the range that was translated before has still to be performed (R350). -/
def State.rangePending (s : State) (ps : List (Nat × Nat × Nat × Nat)) : Bool :=
  s.mergeQ.any (fun r => r.scr.isNone && (linesOf r.pa r.bytes.length).any (underLeaves ps))
    || s.copies.any (fun y => y.pending.any (fun q => (linesOf q.1 q.2.1.length).any (underLeaves ps)))

/-- The five steps of R350 over a range, each for all of it before the next, with the status: the accesses that were under way are performed
at step 5, and after them steps 1 and 2 come again (COH_RACED). -/
def State.setCoh (s : State) (asid : BitVec 16) (coh : Nat) (ps : List (Nat × Nat × Nat × Nat)) : State × Nat :=
  let raced := s.rangePending ps
  let s := ps.foldl (fun (s : State) p => s.writeCoh coh p) (s.flushRange ps)
  let s := ps.foldl (fun (s : State) p => s.tlbi none (tlbiHit 2 asid p.1)) s
  if raced then (s.grantDue.flushRange ps, 1) else (s, 0)

/-- COHSET (R350, R351): ASID, virtual address, length in bytes, new value. It waits while an access of the range cannot be performed. -/
def execCohset (c : Cmd) (s : State) : Host.Outcome State Fault Refusal :=
  .next (s.perform c false (fun s =>
    let asid := BitVec.ofNat 16 (argOf c 0)
    let va := argOf c 1
    let n := argOf c 2
    if va % 65536 ≠ 0 ∨ n % 65536 ≠ 0 ∨ 3 ≤ argOf c 3 ∨ 2 ^ 55 < va + n then some (s, 2, 0)
    else match s.ctxOfAsid asid with
      | none => some (s, 2, 0)
      | some k =>
        match s.rangeLeaves (s.ctx k).desc va (n / 65536) with
        | none => some (s, 2, 0)
        | some ps =>
          if s.grantDue.rangePending ps then none
          else
            let r := s.setCoh asid (argOf c 3) ps
            some (r.1, r.2, 0)))

/-! ### Evictions and token requests (R345 to R347) -/

/-- L2_EVICTION (R345): a copy's dirty bytes are written back (R348). -/
def execL2Eviction (die : BitVec 3) (line : Nat) (s : State) : Host.Outcome State Fault Refusal := .next (s.evictL2 die.toNat line)

/-- A die's snoop filter evicts the entry of a line (R345). -/
def State.snoopEvict (s : State) (die line : Nat) : State := s.modLine line (fun x => x.unsnoop die)

/-- DIRECTORY_EVICTION (R346). -/
def execDirectoryEviction (line : Nat) (s : State) : Host.Outcome State Fault Refusal := .next (s.flushLine line)

/-- A pending request of a die's cores needs the tokens of a line (R347). -/
def MergeReq.needs (r : MergeReq) (line die : Nat) : Bool :=
  r.scr.isNone && r.tokens && dieOfWho r.who == some die && (linesOf r.pa r.bytes.length).contains line

/-- TRANSIENT_REQUEST_FAIL (R347): the tokens that a die's pending writes to a line need fall short within 512 cycles, or the line is promised
to another die, where they fail at once; what has come is kept. The request is sent again; after its second failure it is
persistent, and its tokens are sent to it. -/
def execTransientRequestFail (line : Nat) (die : BitVec 3) (s : State) : Host.Outcome State Fault Refusal :=
  let d := die.toNat
  .next (
    if !s.mergeQ.any (fun r => r.needs line d) then s
    else
      let now := s.promised d line
      let again (s : State) : State := { s with mergeQ := s.mergeQ.map (fun r =>
        if r.needs line d && !now then { r with due := max r.due (s.cycle + 512) } else r) }
      match s.tokReqs.find? (fun r => r.line == line && r.die == d) with
      | none => again { s with tokReqs := s.tokReqs ++ [{ line := line, die := d, fails := 1, persistent := false, since := s.cycle }] }
      | some r =>
        if r.persistent || (!now && decide (s.cycle < r.since + 512)) then s
        else
          let rest := { s with tokReqs := s.tokReqs.filter (fun q => q != r) }
          let r := { r with fails := r.fails + 1, since := s.cycle }
          if rest.mayPersist d line then
            ({ rest with
              tokReqs := insTok { r with persistent := true } rest.tokReqs,
              mergeQ := s.mergeQ.map (fun q => if q.needs line d then { q with due := 0 } else q) } : State).serveReq line
          else again { rest with tokReqs := rest.tokReqs ++ [r] })

/-- PERSISTENT_REQUEST_RETIRE (R347): the requester of a line performs its access and retires; the next request becomes active. While a
write of it is kept behind an earlier one of its agent, or a read or atomic of it has still to execute, it does not retire. -/
def execPersistentRequestRetire (line : Nat) (s : State) : Host.Outcome State Fault Refusal :=
  .next (match s.activeReq line with
    | none => s
    | some r =>
      let s := s.grantWhere (fun q => dieOfWho q.who == some r.die)
      if s.mergeQ.any (fun q => q.needs line r.die) || s.groups.any (fun p => r.readers.contains p.2.agent && p.2.slot.isSome)
        || s.cores.any (fun p => p.2.chans.any (fun q => !q.2.q.isEmpty && r.readers.contains (chanAgent p.1 q.1))) then s
      else (({ s with tokReqs := s.tokReqs.erase r } : State).serveReq line).unholdAll)

end Sys2Proof.Machine
end

