-- ==== Sys2Proof/Machine/Media.lean ====
section
/-! DEFINITION. The media of HBM: scrubbing (R376, R378, R381, R434), refresh retries (R379) and self-refresh (R380). -/

namespace Sys2Proof.Machine

/-! ### Scrubbing (R376, R378, R381) -/

/-- The stripes of a unit: 7 × 2^25 data sectors, 7 to a stripe (R374). -/
def unitStripes : Nat := 2 ^ 25

/-- The stack, unit and stripe at a position of the scrubber's round: stack by stack, unit by unit (log 37). -/
def scrubPlace (n : Nat) : Nat × Nat × Nat := (n / (8 * unitStripes) % 12, n / unitStripes % 8, n % unitStripes)

/-- The HBM offset of data slot j of a stripe: the inverse of R374. -/
def State.sectorAt (s : State) (stack unit k j : Nat) : Nat :=
  let sigma := 7 * k + j
  let ofLow (i : Nat) : Nat := 128 * (12 * (8 * (sigma / 4) + i) + stack) + 32 * (sigma % 4)
  ((List.range 8).map ofLow |>.find? (fun u => (s.secPlace u).unit == unit)).getD (ofLow 0)

/-- The record of a sector of HBM (R423): address, stack's memory die; its syndrome is a free value. -/
def State.hbmRecord (s : State) (cause : Cause) (sev stack pa : Nat) : State :=
  let (y, s) := s.fresh 32
  s.writeErr { cause := cause, sev := sev, scope := 2, unit := 10, die := 8 + stack / 3, addr := pa, synd := y.toNat }

/-- A failed check of a sector counts against its channel; the 64th within a scrub period marks it lost (R378). -/
def State.channelFail (s : State) (c stack pa : Nat) : State :=
  let n := cget 0 s.chanFails c + 1
  let s := { s with chanFails := cput 0 s.chanFails c n }
  if n = 64 ∧ !s.chanLost.contains c then
    { s with chanLost := s.chanLost ++ [c] }.hbmRecord cHBM_CHANNEL_LOST sevADVISORY stack pa
  else s

/-- The channel of a slot of a stripe: slots 0 to 6 hold data, 7 the parity (R374). -/
def slotChan (stack unit k slot : Nat) : Nat :=
  SecPlace.chan { stack := stack, unit := unit, stripe := k, slot := slot } (if slot = 7 then k % 8 else slotPos k slot)

/-- Another sector of the stripe lies on a lost channel, so that this one cannot be rebuilt from the other seven (R376, R378). -/
def State.stripeShort (s : State) (stack unit k slot : Nat) : Bool :=
  (List.range 8).any (fun t => t != slot && s.chanLost.contains (slotChan stack unit k t))

/-- The physical address of a data sector of a stripe. -/
def State.sectorPa (s : State) (stack unit k slot : Nat) : Nat := s.modnum.toNat * 2 ^ 43 + s.sectorAt stack unit k (slot % 7)

/-- What a read of one sector of a stripe finds (R376): nothing more where the poison bit is set or the check passes; else the failure counts
against its channel, and a record says whether the other seven sectors rebuilt it. A sector of a lost channel is rebuilt on every read with no
record, unless another of its stripe fails, and with a second lost channel reads as poisoned (R378). The correction or the mark that is to be
written back; the parity sector's mark is made at once. -/
def State.checkSector (s : State) (stack unit k slot : Nat) (r : SectorCheck) : State × Option (Nat × Bool) :=
  let pa := s.sectorPa stack unit k slot
  let c := slotChan stack unit k slot
  let lost := s.chanLost.contains c
  if (slot < 7 ∧ s.sectorPoison.contains (pa / 32)) ∨ (slot = 7 ∧ s.parPoison.contains (stack, unit, k)) ∨ r = .pass
      ∨ (lost ∧ (r = .rebuilt ∨ s.stripeShort stack unit k slot)) then (s, none)
  else
    let s := if lost then s else s.channelFail c stack pa
    if r = .rebuilt ∧ !s.stripeShort stack unit k slot then
      (s.hbmRecord cHBM_REBUILT sevCORRECTED stack pa, if slot < 7 then some (pa / 32, false) else none)
    else
      let s := if slot = 7 then { s with parPoison := s.parPoison ++ [(stack, unit, k)] } else s
      (s.hbmRecord cHBM_UNCORR sevCONTAINED stack pa, if slot < 7 then some (pa / 32, true) else none)

/-- A corrected sector is written back, or one that cannot be corrected gets its poison bit: at the home agent, which recalls the line's
tokens (R344, R376, R381). -/
def State.writeSector (s : State) (b : Nat × Bool) : State :=
  let s := (s.hbmTouch (32 * b.1) 32 true).recallLine (b.1 / 4)
  if b.2 ∧ !s.sectorPoison.contains b.1 then { s with sectorPoison := s.sectorPoison ++ [b.1] } else s

/-- The write-backs that no store has overtaken are made (R381). -/
def State.finishScrub (s : State) : State := s.scrubBack.foldl State.writeSector { s with scrubBack := [] }

/-- A read of a stripe's eight sectors reaches their pseudo-channels (R380). -/
def State.touchStripe (s : State) (stack unit k : Nat) : State :=
  (List.range 7).foldl (fun (s : State) j => s.hbmTouch (s.sectorPa stack unit k j) 32 true) s

/-- SCRUB_STRIPE (R381): the hardware scrubber makes the write-backs of its last stripe and reads the next one; `found` says what its checks
find, the stores queued at the home agent land before. What it has to write back waits until it goes on. A period ends with the
last stripe. With host-assisted scrubbing it is idle once the stripe in progress is done (R434, R435). -/
def execScrubStripe (found : List (Nat × SectorCheck)) (s : State) : Host.Outcome State Fault Refusal :=
  .next (
    if s.host.msplit.getLsbD 4 then s.finishScrub
    else
      let p := scrubPlace s.scrubPos
      let s := s.finishScrub.grantDue.touchStripe p.1 p.2.1 p.2.2
      let fs := found.filter (fun f => decide (f.1 < 8) && f.2 != .pass)
      -- with two sectors failing neither can be rebuilt from the other seven (R376)
      let two := decide (2 ≤ ((fs.map (fun f => f.1)).eraseDups).length)
      let s := fs.foldl (fun (s : State) f =>
        let r := s.checkSector p.1 p.2.1 p.2.2 f.1 (if two then .uncorrectable else f.2)
        { r.1 with scrubBack := r.1.scrubBack ++ r.2.toList }) s
      let n := (s.scrubPos + 1) % (96 * unitStripes)
      { s with scrubPos := n, chanFails := if n = 0 then [] else s.chanFails })

/-- A read of any agent finds the check of a data sector failing (R376, log 37): it is rebuilt and rewritten, or marked at once. -/
def State.sectorFound (s : State) (x : Nat) (corrected : Bool) : State :=
  if x >>> 38 ≠ s.modnum.toNat ∨ hbmBytes ≤ 32 * x % 2 ^ 43 then s
  else
    let q := s.secPlace (32 * x % 2 ^ 43)
    let r := s.checkSector q.stack q.unit q.stripe q.slot (if corrected then .rebuilt else .uncorrectable)
    r.2.toList.foldl State.writeSector r.1

/-- A write finds the old parity of a stripe failing its check, or poisoned: the failure counts, the seven data sectors are read, and the parity
is computed anew from them (R377, R378). -/
def State.parityFound (s : State) (stack unit k : Nat) : State :=
  if 12 ≤ stack ∨ 8 ≤ unit ∨ unitStripes ≤ k then s
  else
    let s := s.touchStripe stack unit k
    let t : State := { s with parPoison := s.parPoison.filter (fun q => q != (stack, unit, k)) }
    t.channelFail (slotChan stack unit k 7) stack (s.sectorPa stack unit k 0)

/-- SCRUB (R434): the host scrubs a range of HBM: physical address, length. What the check of a sector finds comes as an event at that read
(`State.sectorFound`, log 37). -/
def execScrub (c : Cmd) (s : State) : Host.Outcome State Fault Refusal :=
  runCmd c s (fun s =>
    if argOf c 0 >>> 43 ≠ s.modnum.toNat ∨ hbmBytes < argOf c 0 % 2 ^ 43 + argOf c 1 then (s, stBADPARAM, 0)
    else (s.hbmTouch (argOf c 0) (argOf c 1) false, 0, 0))

/-! ### Refresh (R379) -/

/-- REFRESH_RETRY (R379): a request of a stack that meets a bank under refresh receives a wait hint, a free value of 0 to 1,023 cycles;
it is sent again once they have passed. -/
def execRefreshRetry (stack : Nat) (s : State) : Host.Outcome State Fault Refusal :=
  .next (match cget none s.retries stack with
    | some t => if t ≤ s.cycle then { s with retries := cput none s.retries stack none } else s
    | none =>
      if stack < 12 then
        let (hint, s) := s.fresh 10
        { s with retries := cput none s.retries stack (some (s.cycle + hint.toNat)) }
      else s)

/-! ### Self-refresh (R380) -/

/-- Changes a pseudo-channel. -/
def State.modSref (s : State) (pc : Nat) (f : Sref → Sref) : State :=
  if pc < 768 then { s with srefs := cput {} s.srefs pc (f (cget {} s.srefs pc)) } else s

/-- SREF_ENTRY: the idle timer has reached 32,768. -/
def execSrefEntry (pc : Nat) (s : State) : Host.Outcome State Fault Refusal :=
  .next (s.modSref pc (fun x => if x.st = .active ∧ x.last + 32768 ≤ s.cycle then { x with st := .entering, due := s.cycle } else x))

/-- SREF_ENTRY_COMPLETE: a request that waited for it starts the exit. -/
def execSrefEntryComplete (pc : Nat) (s : State) : Host.Outcome State Fault Refusal :=
  .next (s.modSref pc (fun x =>
    if x.st = .entering then (if x.want then { x with st := .exiting, due := s.cycle + 390, want := false } else { x with st := .sref }) else x))

/-- SREF_EXIT_COMPLETE: the request that woke the pseudo-channel is served, the timer restarts. -/
def execSrefExitComplete (pc : Nat) (s : State) : Host.Outcome State Fault Refusal :=
  .next (s.modSref pc (fun x => if x.st = .exiting ∧ x.due ≤ s.cycle then { st := .active, last := s.cycle } else x))

end Sys2Proof.Machine
end

