-- ==== Sys2Proof/Machine/Link.lean ====
section
/-! DEFINITION. The links: training (R387), lane failures and half width (R388), status (R389), turns (R390 to R395), reset while
forwarding (R399), requests without a route (R400), and the module's reset (R442). -/

namespace Sys2Proof.Machine

/-! ### Lanes, bundles, status (R385, R388, R389) -/

/-- The lanes of a bundle, or of a fabric port in each direction (R385). -/
def linkLanes (k : Nat) : Nat := if k < 12 then 64 else 8

/-- The sets of lanes of a link: its bundles, or for a port its two directions: 0 outward, 1 inward (R385, log 99). -/
def linkSets (k : Nat) : Nat := if k < 12 then linkBundles k else 2

/-- A lane that a link has. -/
def laneOk (k bundle lane : Nat) : Bool := decide (k < 24) && decide (bundle < linkSets k) && decide (lane < linkLanes k)

/-- The bundles, or for a port the directions, with failed lanes in both halves (R388). -/
def brokenBundles (k : Nat) (bad : List (Nat × Nat)) : List Nat :=
  (List.range (linkSets k)).filter (fun b =>
    bad.any (fun q => q.1 == b && decide (q.2 < linkLanes k / 2)) && bad.any (fun q => q.1 == b && decide (linkLanes k / 2 ≤ q.2)))

/-- Failed lanes leave too few for HALF (R388). -/
def tooFew (k : Nat) (bad : List (Nat × Nat)) : Bool :=
  if k < 12 then decide (linkBundles k - (brokenBundles k bad).length < 8) else !(brokenBundles k bad).isEmpty

/-- The lower or the upper half of a bundle's lanes is used in HALF: the lower if its failed lanes all lie in the upper (R388). -/
def lowerHalf (k : Nat) (bad : List (Nat × Nat)) (bundle : Nat) : Bool :=
  !bad.any (fun q => q.1 == bundle && decide (q.2 < linkLanes k / 2))

/-- The link carries traffic (R386). -/
def Link.carries (x : Link) : Bool := x.st == .full || x.st == .half || x.st == .turning || x.st == .fwdonly

/-- The bundles of the reset split toward the spoke (R21, R387). -/
def resetSplit (k : Nat) : Nat := linkBundles k / 2

/-- LSTAT (R389). -/
def Link.lstat (x : Link) (k : Nat) : Word64 :=
  let insvc := if !x.carries then 0 else if k < 12 then (x.inService k).length else if x.bad.isEmpty then 8 else 4
  BitVec.ofNat 64 (packFields [(x.st.code, 0), (if x.carries then x.target else 0, 6), (if x.carries then x.spoke else 0, 12),
    (insvc, 18), (x.owner.getD 0, 24), (x.owner.isSome.toNat, 31), (x.errs, 32)])

/-- Writes the record of a link (R401, R425). -/
def State.putLinkRecord (s : State) (k : Nat) (cause : Cause) : State :=
  let sev := if cause = cLINK_HALF ∨ 12 ≤ k then sevADVISORY else sevCONTAINED
  s.writeErr { cause := cause, sev := sev, scope := 2, unit := 13, die := if k < 12 then k else 12 }

/-- The record of a link: one that is due before memory has been initialised is queued with the records of bring-up (R440;
log 94). -/
def State.linkRecord (s : State) (k : Nat) (cause : Cause) : State :=
  if s.mstate < 4 then { s with bootErrs := s.bootErrs ++ [(k, cause)] } else s.putLinkRecord k cause

/-! ### Half width (R388, R394, R395) -/

/-- A link goes DOWN: it carries nothing, and its turns are gone. -/
def Link.toDown (x : Link) : Link := { x with st := .down, turn := none, failing := false, dwell := [], spoke := 0, target := 0 }

/-- A link with failed lanes and no turn under way enters HALF: broken bundles leave service, queued turns are discarded (R395), and a
direction that holds fewer than 4 bundles gets the nearest ones of the other at once, whatever their dwell (R394). Where too few remain it goes DOWN
(R388). -/
def Link.settleHalf (x : Link) (k now : Nat) : Link :=
  if tooFew k x.bad then x.toDown
  else if 12 ≤ k then { x with st := .half, home := .half }
  else
    let out := brokenBundles k x.bad
    let n := ((x.inService k).take x.spoke).filter (fun b => !out.contains b) |>.length
    let y : Link := { x with out := out, spoke := n, target := n, st := .half, home := .half, turn := none, failing := false }
    let ins := y.inService k
    let undwelt (bs : List Nat) : Cells Nat := bs.foldl (fun t b => cput 0 t b 0) y.dwell
    if n < 4 then
      { y with st := .turning, target := 4, dwell := undwelt ((ins.drop n).take (4 - n)), turn := (ins[n]?).map (fun b => Turn.start b true now) }
    else if ins.length < n + 4 then
      { y with st := .turning, target := ins.length - 4, dwell := undwelt ((ins.take n).drop (ins.length - 4)),
               turn := (ins[n - 1]?).map (fun b => Turn.start b false now) }
    else y

/-- The link settles after a lane failure, and what changed is recorded (R387, R388, R401). -/
def State.settleLink (s : State) (k : Nat) : State :=
  let x := s.link k
  let y := x.settleHalf k s.now
  let s := s.modLink k (fun _ => y)
  if y.st = .down then s.linkRecord k cLINK_DOWN
  else if x.home ≠ .half ∨ y.out ≠ x.out then s.linkRecord k cLINK_HALF
  else s

/-- A lane fails (R388): a turn under way finishes first (R395). -/
def State.failLane (s : State) (k bundle lane : Nat) : State :=
  let x := s.link k
  if !laneOk k bundle lane || x.bad.contains (bundle, lane) || x.out.contains bundle || !x.carries then s
  else
    let s := s.modLink k (fun x => { x with bad := x.bad ++ [(bundle, lane)] })
    if x.st = .fwdonly then s
    else if x.turn.isSome then s.modLink k (fun x => { x with failing := true })
    else s.settleLink k

/-- LANE_FAILURE (R388). -/
def execLaneFailure (link bundle lane : Nat) (s : State) : Host.Outcome State Fault Refusal := .next (s.failLane link bundle lane)

/-- FLIT_CRC_FAIL (R388, R389): the flit is replayed; the 32nd failure of a lane within 1 ms fails the lane. -/
def execFlitCrcFail (link bundle lane : Nat) (s : State) : Host.Outcome State Fault Refusal :=
  .next (
    if !laneOk link bundle lane || !(s.link link).carries then s
    else
      let now := s.timebase.toNat
      let s := s.modLink link (fun x => { x with
        errs := min (2 ^ 32 - 1) (x.errs + 1),
        crc := (x.crc.filter (fun q => decide (now < q.1 + Config.milli))) ++ [(now, bundle, lane)] })
      let n := ((s.link link).crc.filter (fun q => q.2.1 == bundle && q.2.2 == lane)).length
      if 32 ≤ n then s.failLane link bundle lane else s)

/-! ### Training (R387) -/

/-- A training attempt begins. -/
def Link.train (x : Link) (attempt : Nat) : Link :=
  { x with st := .train, attempt := attempt, reported := none, bad := [], out := [], crc := [], turn := none, failing := false, dwell := [] }

/-- Every lane is trained: FULL with the reset split. -/
def Link.trained (x : Link) (k : Nat) : Link :=
  { x with st := .full, home := .full, reported := none, out := [], bad := [], turn := none, dwell := [],
           spoke := resetSplit k, target := resetSplit k }

/-- In torus mode, routes through a module whose link has trained carry weight again, unless a recovery has fenced it (log 38). -/
def State.rejoin (s : State) (k : Nat) : State :=
  if 12 ≤ k ∧ s.host.fabmode = false then { s with withdrawn := s.withdrawn.filter (fun m => m != s.neighbour (k - 12) || s.fenced m) } else s

/-- A trained link runs on half its lanes (R387, R388). -/
def State.trainHalf (s : State) (k : Nat) : State :=
  (s.modLink k (fun x => { x with reported := none, st := .full, home := .full, out := [], spoke := resetSplit k, target := resetSplit k })
    |>.settleLink k).rejoin k

/-- Training ends in DOWN. -/
def State.trainFail (s : State) (k : Nat) : State :=
  (s.modLink k (fun x => { x.toDown with reported := none })).linkRecord k cLINK_TRAIN_FAIL

/-- The next attempt after a failed one; the third failure leads to DOWN. -/
def State.trainAgain (s : State) (k : Nat) : State :=
  if (s.link k).attempt < 3 then s.modLink k (fun x => x.train (x.attempt + 1)) else s.trainFail k

/-- Link training is host-assisted (R434). -/
def State.hostTrains (s : State) : Bool := s.host.msplit.getLsbD 2

/-- LINK_TRAIN_ATTEMPT (R387): an attempt ends: `ok` says that training as such worked, `failed` lists the lanes that it failed. With
host assistance an attempt that does not give FULL is reported, and the host decides. -/
def execLinkTrainAttempt (link : Nat) (failed : List (Nat × Nat)) (ok : Bool) (s : State) : Host.Outcome State Fault Refusal :=
  let x := s.link link
  let bad := failed.filter (fun q => laneOk link q.1 q.2)
  .next (
    if 24 ≤ link ∨ x.st ≠ .train ∨ x.reported.isSome then s
    else if ok && bad.isEmpty then
      let s := (s.modLink link (fun x => x.trained link)).rejoin link
      if s.hostTrains then s.notify else s
    else
      let s := s.modLink link (fun x => { x with bad := bad })
      if ok && tooFew link bad then (let t := s.trainFail link; if s.hostTrains then t.notify else t)
      else if s.hostTrains then
        if !ok ∧ 3 ≤ x.attempt then (s.trainFail link).notify else (s.modLink link (fun x => { x with reported := some ok })).notify
      else if ok then s.trainHalf link
      else s.trainAgain link)

/-- LTRAIN (R387, R440): trains a link that is DOWN; answers a reported attempt: with FLG[0] = 1 HALF is accepted, else it is tried
again (log 36). -/
def execLtrain (c : Cmd) (s : State) : Host.Outcome State Fault Refusal :=
  let k := argOf c 0
  .next (s.perform c (s.mstate = 2) (fun s =>
    let x := s.link k
    some (
      if 24 ≤ k then (s, stBADPARAM, 0)
      else if x.st = .down then (s.modLink k (fun x => x.train 1), 0, 0)
      else match x.st, x.reported with
        | .train, some half =>
          if c.flg.getLsbD 0 = false then (s.trainAgain k, 0, 0)
          else if half then (s.trainHalf k, 0, 0)
          else (s, stBADPARAM, 0)
        | _, _ => (s, stBADPARAM, 0))))

/-! ### Turns (R390 to R395) -/

/-- BUNDLE_DRAIN_COMPLETE: step 1 of a turn ends, at most 13 cycles after it began; the dead time begins. -/
def execBundleDrainComplete (link : Nat) (s : State) : Host.Outcome State Fault Refusal :=
  .next (match (s.link link).turn with
    | some t => if t.dead then s else s.modLink link (fun x => { x with turn := some { t with dead := true, due := s.now + 50 * Config.parts } })
    | none => s)

/-- A turn ends: the bundle carries the other direction and its dwell begins. -/
def Link.reversed (x : Link) (t : Turn) (now : Nat) : Link :=
  { x with turn := none, spoke := if t.toSpoke then x.spoke + 1 else x.spoke - 1, dwell := cput 0 x.dwell t.bundle (now + Config.micro * Config.parts) }

/-- DEAD_TIME_EXPIRY: the bundle carries the other direction; the next queued turn begins, or a lane failure that met the turn takes
effect (R391, R395). -/
def execDeadTimeExpiry (link : Nat) (s : State) : Host.Outcome State Fault Refusal :=
  .next (match (s.link link).turn with
    | some t =>
      if !t.dead || decide (s.now < t.due) then s
      else
        let s := s.modLink link (fun x => x.reversed t s.now)
        if (s.link link).failing then s.settleLink link else s.modLink link (fun x => x.advance link s.now)
    | none => s)

/-- DWELL_EXPIRY: queued turns may go on (R391). -/
def execDwellExpiry (link : Nat) (s : State) : Host.Outcome State Fault Refusal :=
  .next (if link < 12 then s.modLink link (fun x => x.advance link s.now) else s)

/-- T of R393 for S bundles toward the spoke of C. -/
def splitHub (spoke inService : Nat) : Nat := min 36 (max 4 ((80 * spoke + inService) / (2 * inService)))

/-- T scaled to a link with n bundles in service (R393). -/
def scaledHub (t n : Nat) : Nat := if n = 40 then t else min (n - 4) (max 4 ((2 * t * n + 40) / 80))

/-- MEMORY_LINK_SPLIT (R393): every 10 µs each memory link is asked for the same split; with no compute link in service nothing changes. -/
def execMemoryLinkSplit (s : State) : Host.Outcome State Fault Refusal :=
  let up := (List.range 8).filter (fun k => (s.link k).carries)
  let spoke := up.foldl (fun n k => n + (s.link k).spoke) 0
  let all := up.foldl (fun n k => n + ((s.link k).inService k).length) 0
  .next (
    if all = 0 || decide (s.now < s.splitDue) then s
    else [8, 9, 10, 11].foldl (fun (s : State) k =>
      let x := s.link k
      let n := (x.inService k).length
      if x.carries then s.modLink k (fun x => x.request k (n - scaledHub (splitHub spoke all) n) s.now) else s) { s with splitDue := s.now + 10 * Config.micro * Config.parts })

/-! ### The module's reset (R399, R442) -/

/-- A physical address that a reset leaves alone: the storage-class tier, and the other modules' memory. -/
def State.keepsPa (s : State) (pa : Nat) : Bool := pa >>> 43 != s.modnum.toNat || decide (2 ^ 42 ≤ pa % 2 ^ 43)

/-- The queues drain wholly (R383, R404). -/
def State.drainAll (s : State) : State := { s.wbEntries.foldl State.drainEntry s with wbqs := [] }

/-- A core after a reset: its fuse, and nothing else (R427, R440). -/
def Core.afterReset (c : Core) : Core := { enabled := c.enabled || c.selfFail }

/-- The machine after its state is lost: the tier with its parity and manifests, the other modules, the host's memory and the
physical world stay (R404, R442); so do the mapping of logical modules and the timebase (log 39). `trip` latches the reason of a
thermal reset (R443). -/
def State.lost (s : State) (trip : Bool) : State :=
  { State.reset with
    agenda := s.agenda, cur := s.cur, freeCtr := s.freeCtr, nextId := s.nextId, timebase := s.timebase, subTick := s.subTick, modnum := s.modnum,
    mem := s.mem.filter (fun p => s.keepsPa p.1), sectorPoison := s.sectorPoison.filter (fun x => s.keepsPa (32 * x)),
    cores := s.cores.foldl (fun (t : Cells Core) p => cput {} t p.1 p.2.afterReset) [],
    host := { thstat := (0x0514000000000000 : Word64) ||| (if trip then 8 else 0), tripAt := if trip then some State.reset.cycle else none },
    hostMem := s.hostMem, mwReply := s.mwReply, msix := s.msix, kept := s.kept, lmap := s.lmap, wbqs := s.wbqs, parity := s.parity,
    manifest := s.manifest, records := s.records, power := s.power }

/-- The reset itself: accepted write-back entries drain, then everything but the tier is lost (R442). -/
def State.moduleReset (s : State) (trip : Bool) : State := s.drainAll.lost trip

/-- The module forwards fabric traffic: some port carries (R442). -/
def State.forwards (s : State) : Bool := (List.range 12).any (fun f => (s.link (12 + f)).carries)

/-- A reset begins: through the forward-only state when the module forwards traffic (R399, R442). -/
def State.startReset (s : State) (trip : Bool) : State :=
  match s.fwd with
  | some f => { s with fwd := some { f with trip := f.trip || trip } }
  | none =>
    if s.forwards then
      let s := (List.range 12).foldl (fun (s : State) f =>
        if (s.link (12 + f)).carries then s.modLink (12 + f) (fun x => { x with st := .fwdonly }) else s) s
      { s with fwd := some { since := s.now, trip := trip } }
    else s.moduleReset trip

/-- The neighbours that a module in forward-only state notifies (R399). -/
def State.notified (s : State) : List Nat :=
  (((List.range 12).filter (fun f => (s.link (12 + f)).st == .fwdonly)).map s.neighbour).eraseDups

/-- WITHDRAWAL_CONFIRM (R399): in forward-only state, neighbour m confirms; else this module is the neighbour: it gives weight 0 to
routes through m and confirms. -/
def execWithdrawalConfirm (m : BitVec 9) (s : State) : Host.Outcome State Fault Refusal :=
  .next (match s.fwd with
    | some f => if f.confirmed.contains m.toNat then s else { s with fwd := some { f with confirmed := f.confirmed ++ [m.toNat] } }
    | none => if s.withdrawn.contains m.toNat then s else { s with withdrawn := s.withdrawn ++ [m.toNat] })

/-- A request of this module to another one is still on its way: a write request that its coherence point has to grant. -/
def State.ownInFlight (s : State) : Bool := s.mergeQ.any (fun r => r.seq.isSome)

/-- FORWARD_ONLY_TIMEOUT (R399): every neighbour has confirmed, or 2 ms have passed; in switched mode the module's own requests have
drained. -/
def execForwardOnlyTimeout (s : State) : Host.Outcome State Fault Refusal :=
  .next (match s.fwd with
    | none => s
    | some f =>
      if (s.host.fabmode && !s.ownInFlight) || (!s.host.fabmode && s.notified.all f.confirmed.contains) || decide (f.since + 2 * Config.milli * Config.parts ≤ s.now) then s.moduleReset f.trip else s)

/-! ### Requests without a route (R400) -/

/-- PATH_LOST_RESEND (R400): a held request with a route is sent again: its sender goes on. A request whose response was returned finds
the kept response and is not performed again. -/
def execPathLostResend (seq : Nat) (s : State) : Host.Outcome State Fault Refusal :=
  let ready := s.fabric.filter (fun r => r.seq == seq && s.fwd.isNone && !s.withdrawn.contains (s.physMod r.dst) && s.hasRoute (s.physMod r.dst))
  .next (if ready.isEmpty then s else { s with fabric := s.fabric.filter (fun r => !ready.contains r) }.unholdAll.settleLaunches)

/-- KEPT_RESPONSE_EXPIRY (R400): responses are kept for 4 ms. -/
def execKeptResponseExpiry (s : State) : Host.Outcome State Fault Refusal :=
  .next { s with kept := s.kept.filter (fun r => decide (s.timebase.toNat < r.time + 4 * Config.milli)) }

end Sys2Proof.Machine
end

