-- ==== Sys2Proof/Machine/Snap.lean ====
section
/-! DEFINITION. Step boundaries: step groups (R407, R408), the etcher's capture (R409 to R411), slots and manifests (R412, R413), commit
and completion (R414). -/

namespace Sys2Proof.Machine

/-! ### The leaves of a context (R354) -/

/-- The present entries of the table at `base`: index and value. An unlisted byte is 0, so that a present entry has a listed first
byte. -/
def State.presentEntries (s : State) (base : Nat) : List (Nat × Nat) :=
  (s.mem.filter (fun p => decide (base ≤ p.1) && decide (p.1 < base + 65536) && p.1 % 8 == 0 && p.2.getLsbD 0)).map
    (fun p => ((p.1 - base) / 8, leNat (s.memBytes p.1 8)))

/-- The number of the physical page at an address of this module; pages of other modules, which the etcher has no slot for, come after every
page of its own (R411, log 101). -/
def State.pageNumber (s : State) (pa : Nat) : Nat :=
  if pa >>> 43 = s.modnum.toNat then pa % 2 ^ 43 / 65536 else 2 ^ 27 + pa / 65536

/-- The leaves of a table of a level and of those under it, with their entries. -/
def State.leavesFrom (s : State) : Nat → Nat → Nat → List (Marked × Nat)
  | 0, _, _ => []
  | k + 1, base, va =>
    let level := k + 1
    (s.presentEntries base).flatMap (fun q =>
      let va := va + q.1 * 2 ^ lvlShift level
      if malformed q.2 level then []
      else if q.2.testBit 1 then
        [({ entry := base + 8 * q.1, va := va, level := level, page := s.pageNumber (leafPa q.2 level 0) }, q.2)]
      else s.leavesFrom k (bitsOf q.2 51 16 * 2 ^ 16) va)

/-- The leaves of tier HBM in a context's tables (R407, R409). -/
def State.hbmLeaves (s : State) (c : Nat) : List (Marked × Nat) :=
  (s.leavesFrom 3 (s.ctx c).desc.ptroot 0).filter (fun q => !q.2.testBit 7)

/-- The 64 KiB pages under a leaf. -/
def Marked.pages (m : Marked) : List Nat := (List.range (2 ^ (lvlShift m.level - 16))).map (fun i => m.page + i)

/-- Sets and clears bits of a leaf's entry. -/
def State.markLeaf (s : State) (m : Marked) (set clear : Nat) : State :=
  let e : Word64 := BitVec.ofNat 64 (leNat (s.memBytes m.entry 8))
  let e' := (e ||| BitVec.ofNat 64 set) &&& ~~~(BitVec.ofNat 64 clear)
  if e' = e then s else s.homeWrite m.entry (leBytes 8 e'.toNat) (s.memPoison m.entry 8)

/-- The D bit of a leaf (R358). -/
def bitD : Nat := 2 ^ 9
/-- The CW bit of a leaf (R370). -/
def bitCW : Nat := 2 ^ 10

/-! ### Step groups (R407, R408) -/

/-- The members that SGJOIN names: 4-byte entries, CTXN in [6:0], module in [15:7] (log 36). -/
def State.sgMembers (s : State) (pa n : Nat) : List (Nat × Nat) :=
  (List.range n).map (fun i => let v := leNat (s.memBytes (pa + 4 * i) 4); (bitsOf v 15 7, bitsOf v 6 0))

/-- SGJOIN (R407): group, number of members, physical address of their list. The etcher sets D in every leaf of tier HBM of this
module's member. -/
def execSgjoin (c : Cmd) (s : State) : Host.Outcome State Fault Refusal :=
  runCmd c s (fun s =>
    let g := argOf c 0
    let ms : List (Nat × Nat) := s.sgMembers (argOf c 2) (min 432 (argOf c 1))
    match ms.find? (fun m => m.1 == s.modnum.toNat) with
    | none => (s, stBADPARAM, 0)
    | some (_, k) =>
      if 2 ^ 16 ≤ g ∨ 432 < argOf c 1 ∨ !populated (argOf c 2) (4 * argOf c 1) ∨ !(s.ctx k).st.live ∨ (s.ctx k).stepGroup.isSome
          ∨ !(ms.map (fun m => m.1)).Nodup then (s, stBADPARAM, 0)
      else
        let s := { s with stepGroups := cput {} s.stepGroups g { members := ms, base := (s.ctx k).step.toNat },
                          recov := { s.recov with
                            beacons := ms.foldl (fun (t : Cells Nat) (m : Nat × Nat) => cput 0 t m.1 s.timebase.toNat) s.recov.beacons } }
        let s := s.modCtx k (fun x => { x with stepGroup := some g })
        ((s.hbmLeaves k).foldl (fun (s : State) (m : Marked × Nat) => s.markLeaf m.1 bitD 0) s, 0, 0))

/-- A step group. -/
def State.stepGroup (s : State) (g : Nat) : StepGroup := cget {} s.stepGroups g

/-- The boundary before `b` is complete in a group: or `b` is its first (R408). -/
def StepGroup.ready (x : StepGroup) (b : Nat) : Bool := decide (b ≤ x.base) || (match x.complete with | some k => decide (b ≤ k + 1) | none => false)

/-- The place of a context of this module in its group. -/
def State.memberIdx (s : State) (g c : Nat) : Nat := ((s.stepGroup g).members.takeWhile (fun m => m != (s.modnum.toNat, c))).length

/-- What the etcher does for a context. -/
def State.etch (s : State) (c : Nat) : Etch := cget {} s.etches c
/-- Changes it. -/
def State.modEtch (s : State) (c : Nat) (f : Etch → Etch) : State := { s with etches := cput {} s.etches c (f (s.etch c)) }

/-! ### The snapshot region and the manifest (R411 to R413) -/

/-- ETCFG.EN. -/
def State.etchOn (s : State) : Bool := s.host.etcfg.getLsbD 63
/-- SNAPBASE. -/
def State.snapBase (s : State) : Nat := bitsOf s.host.etcfg.toNat 49 24
/-- SNAPLIM. -/
def State.snapLim (s : State) : Nat := bitsOf s.host.etcfg.toNat 23 0

/-- The physical address of a slot of page n (R412). -/
def State.slotPa (s : State) (n b : Nat) : Nat := s.modnum.toNat * 2 ^ 43 + 2 ^ 42 + (s.snapBase + 2 * n + b) * 65536

/-- The key of a byte of the manifest of module `owner` that module `holder` keeps: its own, or a mirror (R413). -/
def manKey (holder owner off : Nat) : Nat := partKey (512 * holder + owner) off

/-- The holders of this module's manifest: itself and the two members that follow it in its group (R413). -/
def State.manHolders (s : State) : List Nat :=
  let m := s.modnum.toNat
  match s.egrpPos m with
  | some p => [m, s.egrpAt ((p + 1) % 10), s.egrpAt ((p + 2) % 10)]
  | none => [m]

/-- A manifest write can be accepted: its mirrors' holders are reachable (R413). -/
def State.manOpen (s : State) : Bool := s.manHolders.all (fun h => s.reaches (s.physMod h))

/-- A manifest write: accepted when all its copies are (R413). -/
def State.manWrite (s : State) (off : Nat) (bs : List Byte) : State :=
  { s with manifest := s.manHolders.foldl (fun t h => cputs 0 t (manKey h s.modnum.toNat off) bs) s.manifest }

/-- Bytes of the manifest of a module as a holder keeps it. -/
def State.manRead (s : State) (holder owner off n : Nat) : List Byte := cgets 0 s.manifest (manKey holder owner off) n

/-- The entry of page n (R412). -/
def pageEntryAt (n : Nat) : Nat := 0x810000 + 16 * n

/-- The version of a page as of boundary c, from its entry: the slot, if one is valid with a step not above c; the larger step
first (R412). -/
def versionOf (e c : Nat) : Option Nat :=
  let ok (v step : Nat) : Bool := e.testBit v && decide (step ≤ c)
  let s0 := bitsOf e 63 2
  let s1 := bitsOf e 127 66
  match ok 0 s0, ok 1 s1 with
  | true, true => some (if s0 < s1 then 1 else 0)
  | true, false => some 0
  | false, true => some 1
  | false, false => none

/-- The slot that a capture at boundary b writes: an invalid one, else one whose boundary b or a later one was discarded by a recovery, else the
one with the smaller step (R412, R417, log 40). -/
def captureSlot (e b : Nat) : Nat :=
  let s0 := bitsOf e 63 2
  let s1 := bitsOf e 127 66
  if !e.testBit 0 then 0 else if !e.testBit 1 then 1
  else if b ≤ s0 ∧ s1 < b then 0 else if b ≤ s1 ∧ s0 < b then 1
  else if s1 < s0 then 1 else 0

/-- The entry with V of a slot cleared (step 1 of R412). -/
def entryCleared (e b : Nat) : Nat := (BitVec.ofNat 128 e &&& ~~~((1#128) <<< b)).toNat

/-- The entry with a slot's step written and V set (step 3 of R412). -/
def entryTaken (e b step : Nat) : Nat :=
  let st := step % 2 ^ 62
  if b = 0 then bitsOf e 127 64 * 2 ^ 64 + st * 4 + bitsOf e 1 1 * 2 + 1
  else st * 2 ^ 66 + bitsOf e 65 64 * 2 ^ 64 + bitsOf e 63 2 * 4 + 2 + bitsOf e 0 0

/-- The header of a manifest (R413); COMPLETE is all ones while no boundary is complete (log 40). -/
def manHeader (g commit complete : Nat) : List Byte :=
  let b := leBytes 60 (packFields [(1, 0), (g, 16), (commit % 2 ^ 64, 64), (complete % 2 ^ 64, 128)])
  b ++ leBytes 4 (crc32 b).toNat

/-- The complete step that a manifest holds, if its header is sound (R413, R440). -/
def State.manComplete (s : State) (holder owner : Nat) : Option Nat :=
  let h := s.manRead holder owner 0 64
  let v := leNat h
  if bitsOf v 15 0 ≠ 1 ∨ bitsOf v 511 480 ≠ (crc32 (h.take 60)).toNat ∨ bitsOf v 191 128 = 2 ^ 64 - 1 then none else some (bitsOf v 191 128)

/-! ### Marking (R409) -/

/-- The record of a boundary at which a captured page lay beyond SNAPLIM (R411). -/
def snapRecord (c : Nat) : ErrRec := { cause := cSNAP_UNCOVERED, sev := sevCONTAINED, scope := 1, unit := 16, die := 12, ctxn := c }

/-- The capture set is marked and the capture accepted: steps 1 to 5 of R409. Every access that was translated has been performed. -/
def State.markBoundary (s : State) (c b : Nat) (set : List (Marked × Nat)) : State :=
  let lim := s.snapLim
  let covered (m : Marked) : Bool := m.pages.any (fun n => decide (n < lim))
  let s := set.foldl (fun (s : State) m => s.markLeaf m.1 (if covered m.1 then bitCW else 0) bitD) s
  let s := s.tlbi none (tlbiHit 1 (s.ctx c).desc.asid 0)
  let all := (set.flatMap (fun m => m.1.pages)).eraseDups
  let s := if all.any (fun n => decide (lim ≤ n)) then s.writeErr (snapRecord c) else s
  (s.modEtch c (fun e => { e with
    boundary := b, leaves := (set.map (fun m => m.1)).filter covered,
    pages := (all.filter (fun n => decide (n < lim))).mergeSort (fun a b => decide (a ≤ b)), busy := true, accepted := some b, recTaken := false })).unholdAll

/-- ETCHER_MARK (R408, R409): a STEPADV of the context waits, the boundary before is complete, no page of the set is migrating
(R368), and every write to the set that was translated before can be performed. With captures disabled nothing is marked. -/
def execEtcherMark (c : BitVec 7) (s : State) : Host.Outcome State Fault Refusal :=
  let k := c.toNat
  let b := (s.ctx k).step.toNat
  .next (match (s.ctx k).stepGroup with
    | none => s
    | some g =>
      if !(s.etch k).wanted || (s.etch k).busy || (s.etch k).accepted.isSome || !(s.stepGroup g).ready b then s
      else
        let t := s.grantDue
        let set := if t.etchOn then (t.hbmLeaves k).filter (fun q => q.2.testBit 9) else []
        if set.any (fun q => q.2.testBit 11) || t.setPending (set.flatMap (fun m => m.1.pages)) then s else t.markBoundary k b set)

/-! ### Copying (R410) -/

/-- The physical page of this module under a virtual page, through the Etcher TLBs, else by a walk of the module's own (R360). -/
def State.etcherPage (s : State) (d : CtxDesc) (vpn : Nat) : Option Nat :=
  let own (pte level : Nat) : Option Nat :=
    let pa := leafPa pte level (vpn * 65536)
    if pa >>> 43 = s.modnum.toNat then some (pa % 2 ^ 43 / 65536) else none
  match (List.range 4).findSome? (fun p => s.tlbFind 3 p d.asid (vpn * 65536)) with
  | some t => own t.pte.toNat t.level
  | none => match s.walk 15 d (vpn * 65536) with
    | .leaf pte level _ => own pte level
    | _ => none

/-- The page that the etcher copies next: one under which an agent waits, through whatever leaf, in order of registration, else the lowest
(R409, R410). -/
def State.nextPage (s : State) (c : Nat) : Option Nat :=
  let e := s.etch c
  let d := (s.ctx c).desc
  let ofKey (k : ParkKey) : Option Nat := match k with
    | .page a v => if a = d.asid then s.etcherPage d v else none
    | _ => none
  match (s.waits.filterMap (fun w => ofKey w.key)).find? (fun n => e.pages.contains n) with
  | some n => some n
  | none => e.pages.head?

/-- Offers n bytes of device memory from `src` to the write-back queues at `dst`, line by line; where the sectors of a line differ in
poison, sector by sector (R383, R410). -/
def State.slotWrite (s : State) (src dst n : Nat) : State :=
  let s := s.hbmTouch src n false
  (List.range (n / 128)).foldl (fun (s : State) i =>
    let a := src + 128 * i
    let ps := (List.range 4).map (fun j => s.memPoison (a + 32 * j) 32)
    if ps.all (fun p => p == s.memPoison a 32) then s.accept { pa := dst + 128 * i, bytes := s.memBytes a 128, pois := s.memPoison a 32 }
    else (List.range 4).foldl (fun (s : State) j =>
      s.accept { pa := dst + 128 * i + 32 * j, bytes := s.memBytes (a + 32 * j) 32, pois := s.memPoison (a + 32 * j) 32 }) s) s

/-- The queues of every memory die have room for a page, its deltas included; while the hold-up store recharges, no page is begun: the energy
held need not drain all of it (R383, R402, R404). -/
def State.roomForPage (s : State) : Bool :=
  s.power.full && (List.range 4).all (fun d => s.canAccept d && decide ((cget [] s.wbqs d).length + 3 * 2048 ≤ 131072))

/-- A capture of page n at boundary b, in the order of R412. -/
def State.capturePage (s : State) (n b : Nat) : State :=
  let m := s.modnum.toNat
  let e := leNat (s.manRead m m (pageEntryAt n) 16)
  let k := captureSlot e b
  let s := s.manWrite (pageEntryAt n) (leBytes 16 (entryCleared e k))
  let s := s.slotWrite (m * 2 ^ 43 + n * 65536) (s.slotPa n k) 65536
  s.manWrite (pageEntryAt n) (leBytes 16 (entryTaken (entryCleared e k) k b))

/-- A leaf whose pages are all copied: CW, which acts on the whole leaf (R368, R370), is cleared, its translations are invalidated, and the agents that wait under it, or under the
overflow entry, are replied to on every compute die (R366, R368, R410). -/
def State.releaseLeaf (s : State) (asid : BitVec 16) (m : Marked) : State :=
  let s := (s.markLeaf m 0 bitCW).tlbi none (tlbiHit 2 asid m.va)
  let keys := (s.waits.filterMap (fun w => match w.key with
    | .page a v => if a = asid ∧ m.va / 65536 ≤ v ∧ v < m.va / 65536 + 2 ^ (lvlShift m.level - 16) then some w.key else none
    | _ => none))
  ((ParkKey.page asid (m.va / 65536) :: keys).eraseDups).foldl (fun (s : State) k => (s.replyOn (List.range 8) k).1) s

/-- A page of a context's space maps to physical page n of this module through a leaf whose CW is 0. -/
def State.mapsTo (s : State) (d : CtxDesc) (vpn n : Nat) : Bool :=
  match s.walk 15 d (vpn * 65536) with
  | .leaf pte level _ => !pte.testBit 10 && leafPa pte level (vpn * 65536) == s.modnum.toNat * 2 ^ 43 + n * 65536
  | _ => false

/-- The agents that wait under another leaf of a page that has been copied are replied to (R409, R410). -/
def State.releaseAliases (s : State) (d : CtxDesc) (n : Nat) : State :=
  let keys := s.waits.filterMap (fun w => match w.key with
    | .page a v => if a = d.asid ∧ s.mapsTo d v n then some w.key else none
    | _ => none)
  keys.eraseDups.foldl (fun (s : State) k => (s.replyOn (List.range 8) k).1) s

/-- ETCHER_PAGE_COPY (R410), once the slots' chunks have been rebuilt (R416): the leaf under which the page is copied enters the Etcher TLB of the memory die whose queue takes the slot's
first line (R360). -/
def execEtcherPageCopy (c : BitVec 7) (s : State) : Host.Outcome State Fault Refusal :=
  let k := c.toNat
  .next (match s.nextPage k with
    | none => s
    | some n =>
      if !s.roomForPage || !s.manOpen || s.deltasWait (s.slotPa n 0) || s.deltasWait (s.slotPa n 1)
          || s.unbuilt (s.slotPa n 0) || s.unbuilt (s.slotPa n 1) then s
      else
        let d := (s.ctx k).desc
        let s := s.grantDue.capturePage n (s.etch k).boundary
        let s := match (s.etch k).leaves.find? (fun m => m.pages.contains n) with
          | some m => s.tlbFill 3 (scmDie (s.slotPa n 0)) d.asid (m.va + (n - m.page) * 65536) (leNat (s.memBytes m.entry 8)) m.level
          | none => s
        let s := s.modEtch k (fun e => { e with pages := e.pages.filter (fun i => i != n) })
        let e := s.etch k
        let done := e.leaves.filter (fun m => !m.pages.any e.pages.contains)
        let s := s.modEtch k (fun e => { e with leaves := e.leaves.filter (fun m => m.pages.any e.pages.contains) })
        (done.foldl (fun (s : State) m => s.releaseLeaf d.asid m) s).releaseAliases d n)

/-! ### Commit and completion (R414) -/

/-- A boundary of this module's member can be committed: STEPADV has passed it, its slots and its context record are accepted. -/
def State.canCommit (s : State) (c : Nat) : Bool :=
  let e := s.etch c
  e.busy && decide (e.boundary < (s.ctx c).step.toNat) && e.pages.isEmpty && e.recTaken

/-- Writes the header of the manifest for a group (R413). -/
def State.putHeader (s : State) (g commit : Nat) : State :=
  s.manWrite 0 (manHeader g commit ((s.stepGroup g).complete.getD (2 ^ 64 - 1)))

/-- BOUNDARY_COMMIT (R414): COMMIT is written. -/
def execBoundaryCommit (c : BitVec 7) (s : State) : Host.Outcome State Fault Refusal :=
  let k := c.toNat
  .next (match (s.ctx k).stepGroup with
    | none => s
    | some g =>
      if !s.canCommit k || !s.manOpen then s
      else
        let b := (s.etch k).boundary
        let x := s.stepGroup g
        let y : StepGroup := { x with commits := cput none x.commits (s.memberIdx g k) (some b) }
        let s := { s with stepGroups := cput {} s.stepGroups g y }
        (s.modEtch k (fun e => { e with busy := false })).putHeader g b)

/-- BOUNDARY_COMPLETE (R414): the other members' COMMIT values have reached the boundary that this module has committed; COMPLETE is
written. -/
def execBoundaryComplete (c : BitVec 7) (s : State) : Host.Outcome State Fault Refusal :=
  let k := c.toNat
  .next (match (s.ctx k).stepGroup with
    | none => s
    | some g =>
      let x := s.stepGroup g
      match cget none x.commits (s.memberIdx g k) with
      | none => s
      | some b =>
        let y : StepGroup := { x with complete := some b,
                                      commits := (List.range x.members.length).foldl (fun t i => cput none t i (some b)) x.commits }
        let s := { s with stepGroups := cput {} s.stepGroups g y }
        s.putHeader g b)

end Sys2Proof.Machine
end

