-- ==== Sys2Proof/Machine/Recovery.lean ====
section
/-! DEFINITION. Module recovery: suspicion and detection, the stages, the whole-domain path, and the rebuilding of the storage-class
tier (R415 to R417). -/

namespace Sys2Proof.Machine

/-! ### Who takes part (R415) -/

/-- The modules of this module's erasure group. -/
def State.egroup (s : State) : List Nat := if s.host.egrp0.getLsbD 63 then (List.range 10).map s.egrpAt else []

/-- The other modules of this module's erasure group and step groups. -/
def State.fellows (s : State) : List Nat :=
  ((s.egroup ++ s.stepGroups.flatMap (fun p => p.2.members.map (fun m => m.1))).eraseDups).filter (fun m => m != s.modnum.toNat)

/-- This module coordinates: the lowest-numbered survivor of the erasure group; a module restores the domain's state by itself. -/
def State.coordinates (s : State) : Bool :=
  s.recov.domain || s.egroup.all (fun m => s.recov.lost.contains m || decide (s.modnum.toNat ≤ m))

/-- The stage after `n` may begin: `n` is done, and a coordinator whose recovery is host-assisted has been released (R415, R435). -/
def State.mayBegin (s : State) (n : Nat) : Bool :=
  s.recov.stage == n && s.recov.done && (!s.host.msplit.getLsbD 3 || !s.coordinates || s.recov.released)

/-- Changes the recovery. -/
def State.modRecov (s : State) (f : Recov → Recov) : State := { s with recov := f s.recov }

/-- A stage is done; a coordinator with host assistance reports it (R415). -/
def State.stageDone (s : State) (n : Nat) : State :=
  let s := s.modRecov (fun r => { r with stage := n, done := true, released := false })
  if s.host.msplit.getLsbD 3 && s.coordinates then s.notify else s

/-- RSTAT (R417). -/
def State.rstat (s : State) : Word64 :=
  let r := s.recov
  let stage := if r.domain && r.stage == 2 then 3 else r.stage
  let ms := if r.stage = 0 then 0 else min (2 ^ 32 - 1) ((s.timebase.toNat - r.since) / Config.milli)
  BitVec.ofNat 64 (packFields [(ms, 0), ((r.spares.map (fun q => q.2)).getLast?.getD 0, 42), ((r.lost.getLast?).getD 0, 51), (stage, 60)])

/-- RSTEP (R415, R440): the host releases the next stage. -/
def execRstep (c : Cmd) (s : State) : Host.Outcome State Fault Refusal :=
  .next (s.perform c (s.mstate = 5) (fun s =>
    some (if s.recov.stage = 0 ∨ !s.recov.done ∨ s.recov.released ∨ !s.host.msplit.getLsbD 3 then (s, stBADPARAM, 0)
      else (s.modRecov (fun r => { r with released := true }), 0, 0))))

/-! ### Detection (R415) -/

/-- BEACON (R415): a member's beacon restarts its timer. -/
def execBeacon (m : BitVec 9) (s : State) : Host.Outcome State Fault Refusal :=
  .next (if s.fellows.contains m.toNat then
      s.modRecov (fun r => { r with beacons := cput 0 r.beacons m.toNat s.timebase.toNat, suspect := r.suspect.filter (fun x => x != m.toNat) })
    else s)

/-- BEACON_TIMEOUT (R415): a member that has sent no beacon for 10 ms is suspected. -/
def execBeaconTimeout (m : BitVec 9) (s : State) : Host.Outcome State Fault Refusal :=
  .next (if s.fellows.contains m.toNat && !s.recov.suspect.contains m.toNat
      && decide (cget 0 s.recov.beacons m.toNat + 10 * Config.milli ≤ s.timebase.toNat) then
      s.modRecov (fun r => { r with suspect := r.suspect ++ [m.toNat] })
    else s)

/-- The fabric ports toward a physical module: those to a neighbour, or those of its routing entry (R396, R397). -/
def State.portsTo (s : State) (m : Nat) : List Nat :=
  (List.range 12).filter (fun f => if s.host.fabmode then (cget 0 s.routes m).getLsbD f else s.neighbour f == m)

/-- This module suspects another: by its beacons, or because every port toward it is DOWN (R415). -/
def State.suspects (s : State) (m : Nat) : Bool :=
  let ps := s.portsTo (s.physMod m)
  s.recov.suspect.contains m || (!ps.isEmpty && ps.all (fun f => (s.link (12 + f)).st == .down))

/-- A module has written a FATAL module record, this one: it declares itself lost (R415, R424). -/
def State.fatal (s : State) : Bool := decide (0 < cget 0 s.errCounts cMODULE_FATAL.toNat)

/-- RECOVERY_DETECT (R415): the module is declared lost, on this module's suspicion and another's; on those of two others, or its own
FATAL record, which an erasure-group or step-group member takes from them (log 41). The procedure begins, or begins again
with every module lost (R417). -/
def execRecoveryDetect (m : BitVec 9) (s : State) : Host.Outcome State Fault Refusal :=
  let k := m.toNat
  .next (
    if s.recov.lost.contains k || !(s.fellows.contains k || (k == s.modnum.toNat && s.fatal)) then s
    else
      let s := s.writeErr { cause := cMODULE_LOST, sev := sevCONTAINED, scope := 3, unit := 15, die := 12 }
      if k = s.modnum.toNat then s
      else
        (s.modRecov (fun r => { r with lost := r.lost ++ [k], since := s.timebase.toNat, domain := false,
                                       suspect := r.suspect.filter (fun x => x != k) })).stageDone 1)

/-! ### Stage 2: fence -/

/-- RECOVERY_FENCE (R415): routes to the lost modules get weight 0, the membership is recorded. -/
def execRecoveryFence (s : State) : Host.Outcome State Fault Refusal :=
  .next (
    if !s.mayBegin 1 then s
    else
      let ps := (s.recov.lost.filter (fun m => !s.recov.spares.any (fun q => q.1 == m))).map s.physMod
      let s := { s with withdrawn := (s.withdrawn ++ ps).eraseDups }
      (s.modRecov (fun r => { r with members := (s.modnum.toNat :: s.fellows).filter (fun m => !r.lost.contains m) })).stageDone 2)

/-! ### Stage 3: quiesce -/

/-- The contexts of this module that a recovery stops: members of a step group that has lost a module. -/
def State.hitCtxs (s : State) : List Nat :=
  (s.ctxs.filter (fun p => match p.2.stepGroup with
    | some g => (s.stepGroup g).members.any (fun m => s.recov.lost.contains m.1)
    | none => false)).map (fun p => p.1)

/-- The complete step of a context's group. -/
def State.completeOf (s : State) (c : Nat) : Option Nat := (s.ctx c).stepGroup.bind (fun g => (s.stepGroup g).complete)

/-- A group that ends as stage 3 begins: it holds a request to another module, or waits in STEPADV (R415, R417). -/
def State.endsInQuiesce (s : State) (p : Nat × Group) : Bool :=
  s.fabric.any (fun r => r.who == p.2.agent) || (p.2.held && (match s.nextInstr p.2 with | some (.stepadv _) => true | _ => false))

/-- Stage 3 begins for a context: it enters SAVING; held requests end with their groups, open copies end (R275, R415). -/
def State.quiesceCtx (s : State) (c : Nat) : State :=
  let gone := (s.groups.filter (fun p => p.2.ctx == c && s.endsInQuiesce p)).map (fun p => p.1)
  let agents := (s.groups.filter (fun p => p.2.ctx == c)).map (fun p => p.2.agent)
  let s := { s with
    groups := s.groups.filter (fun p => !gone.contains p.1),
    fabric := s.fabric.filter (fun r => !agents.contains r.who),
    cores := s.cores.map (fun (p : Nat × Core) => (p.1, { p.2 with
      chans := p.2.chans.map (fun (q : Nat × Chan) => (q.1, { q.2 with q := q.2.q.filter (fun y => y.ctx != c) })) })) }
  match (s.ctx c).st with
  | .idle | .active => s.beginSave c
  | _ => s

/-- A context that is neither running nor being saved. -/
def CtxSt.quiet (x : CtxSt) : Bool := x != .idle && x != .active && x != .saving

/-- Writes the version of page n as of boundary c, from the manifest and the slots of this module (R412, R415). -/
def State.restorePage (s : State) (n c : Nat) : State :=
  let m := s.modnum.toNat
  match versionOf (leNat (s.manRead m m (pageEntryAt n) 16)) c with
  | some b => s.copyPage (s.slotPa n b) (m * 2 ^ 43 + n * 65536)
  | none => s

/-- A slot of a page holds a boundary above c. -/
def slotAbove (e c : Nat) : Bool := (e.testBit 0 && decide (c < bitsOf e 63 2)) || (e.testBit 1 && decide (c < bitsOf e 127 66))

/-- The pages that have a valid slot in a manifest, with their entries. -/
def State.listedPages (s : State) (holder owner : Nat) : List (Nat × Nat) :=
  let base := manKey holder owner 0x810000
  (s.manifest.filter (fun p => decide (base ≤ p.1) && decide (p.1 < base + 16 * 11010048) && (p.1 - base) % 16 == 0
    && (p.2.getLsbD 0 || p.2.getLsbD 1))).map (fun p => ((p.1 - base) / 16, leNat (cgets 0 s.manifest p.1 16)))

/-- The pages with a slot above c that no leaf of a context's tables names any more: their mapping has gone since (R415, log 41). -/
def State.unmappedAbove (s : State) (c : Nat) : List Nat :=
  let m := s.modnum.toNat
  let mapped := (s.ctxs.filter (fun p => p.2.st != .free)).flatMap (fun p => (s.hbmLeaves p.1).flatMap (fun q => q.1.pages))
  ((s.listedPages m m).filter (fun q => decide (q.1 < s.snapLim) && slotAbove q.2 c && !mapped.contains q.1)).map (fun q => q.1)

/-- The pages of a context return to boundary c: those with D = 1 or CW = 1 and those with a slot above c; D and CW are cleared, and
agents that waited under CW are replied to (R415). -/
def State.restoreCtx (s : State) (k c : Nat) : State :=
  let m := s.modnum.toNat
  let asid := (s.ctx k).desc.asid
  let s := (s.unmappedAbove c).foldl (fun (s : State) n => s.restorePage n c) s
  let s := (s.hbmLeaves k).foldl (fun (s : State) q =>
    let hot := q.2.testBit 9 || q.2.testBit 10
    let ps := q.1.pages.filter (fun n => decide (n < s.snapLim) && (hot || slotAbove (leNat (s.manRead m m (pageEntryAt n) 16)) c))
    let s := ps.foldl (fun (s : State) n => s.restorePage n c) s
    if hot then (s.markLeaf q.1 0 (bitD + bitCW)).releaseLeaf asid q.1 else s) s
  (s.tlbi none (tlbiHit 1 asid 0)).modEtch k (fun _ => {})

/-- RECOVERY_QUIESCE (R415): the member contexts enter SAVING; once each is saved, accepted entries drain and the etcher restores the
complete step. -/
def execRecoveryQuiesce (s : State) : Host.Outcome State Fault Refusal :=
  .next (
    if s.mayBegin 2 then
      s.hitCtxs.foldl State.quiesceCtx (s.modRecov (fun r => { r with stage := 3, done := false, released := false }))
    else if s.recov.stage = 3 ∧ !s.recov.done ∧ s.hitCtxs.all (fun k => (s.ctx k).st.quiet) then
      let s := s.grantDue.drainAll
      (s.hitCtxs.foldl (fun (s : State) k => match s.completeOf k with | some b => s.restoreCtx k b | none => s) s).stageDone 3
    else s)

/-! ### Stage 4: admit -/

/-- Memory is initialised: HBM zero without poison, the queues emptied to the tier (R440). -/
def State.initMemory (s : State) : State :=
  let s := s.drainAll
  { s with parPoison := [], mergeQ := [], lines := [], mem := s.mem.filter (fun p => s.keepsPa p.1), sectorPoison := s.sectorPoison.filter (fun x => s.keepsPa (32 * x)),
           chanFails := [], chanLost := [], scrubBack := [] }

/-- A spare that is this module receives the lost module's EGRP and ETCFG, which other modules hold: free values, with V set (log 41). -/
def State.receiveSpare (s : State) : State :=
  let (a, s) := s.fresh 64
  let (b, s) := s.fresh 64
  let (e, s) := s.fresh 64
  { s with host := { s.host with egrp0 := a ||| ((1#64) <<< 63), egrp1 := b, etcfg := e } }

/-- This module is a spare: in no group, READY, and its SPARE bit says that recovery may admit it (R405). -/
def State.isSpare (s : State) : Bool := !s.host.egrp0.getLsbD 63 && s.host.egrp0.getLsbD 62 && s.mstate == 6 && s.recov.stage == 0

/-- A spare is admitted: its links train, its memory is initialised, and it receives the lost module's EGRP and ETCFG with the module's number,
which its coordinator knows: free values (R415, log 41). -/
def State.becomeSpare (s : State) : State :=
  let (m, s) := s.fresh 9
  let s := (List.range 24).foldl (fun (s : State) k => if (s.link k).carries then s else s.modLink k (fun x => x.train 1)) s
  (s.initMemory.receiveSpare.modRecov (fun r => { r with lost := [m.toNat], since := s.timebase.toNat, domain := false,
                                                         spares := [(m.toNat, s.ownPhys)] })).stageDone 4

/-- RECOVERY_ADMIT (R415): the lowest-numbered spare is admitted for a lost module; a number that no module has says that none is
ready, and the procedure stops (R417). -/
def execRecoveryAdmit (spare : BitVec 9) (s : State) : Host.Outcome State Fault Refusal :=
  let p := spare.toNat
  let need := s.recov.lost.filter (fun m => !s.recov.spares.any (fun q => q.1 == m))
  .next (
    if s.isSpare then (if p = s.ownPhys then s.becomeSpare else s)
    else if !(s.mayBegin 3 || (s.recov.stage == 4 && !s.recov.done)) || s.recov.domain then s
    else if 432 ≤ p then
      let r : ErrRec := match s.hitCtxs with
        | k :: _ => { cause := cRECOVERY_STALLED, sev := sevFATAL, scope := 1, unit := 15, die := 12, ctxn := k }
        | [] => { cause := cRECOVERY_STALLED, sev := sevFATAL, scope := 2, unit := 15, die := 12 }
      (s.modRecov (fun r => { r with stage := 0, done := false })).writeErr r
    else match need with
      | [] => s.stageDone 4
      | m :: rest =>
        let s := if p = s.ownPhys then s.receiveSpare else s
        let s := s.modRecov (fun r => { r with stage := 4, done := false, released := false, spares := r.spares ++ [(m, p)] })
        if rest.isEmpty then s.stageDone 4 else s)

/-! ### Decoding (R406, R416) -/

/-- The product over GF(2^8) with 0x11D (R406). -/
def gfMul (a b : Byte) : Byte := (List.range 8).foldl (fun acc i => if b.getLsbD i then acc ^^^ gfShift i a else acc) 0

/-- The power of an element. -/
def gfPow (a : Byte) : Nat → Byte
  | 0 => 1
  | n + 1 => gfMul a (gfPow a n)

/-- The quotient of two elements: the inverse is the 254th power. -/
def gfDiv (a b : Byte) : Byte := gfMul a (gfPow b 254)

/-- The j-th byte of a shard. -/
def shardByte (shards : List (List Byte)) (p j : Nat) : Byte := (((shards[p]?).getD [])[j]?).getD 0

/-- The bytes of a stripe at one offset with the shards at the positions `lost` decoded: data, P and Q by position (R406). -/
def decodeByte (t : Nat) (shards : List (List Byte)) (lost : List Nat) (j : Nat) : Nat → Byte :=
  let ds := dataPositions t
  let idx (p : Nat) : Nat := (ds.takeWhile (fun q => q != p)).length
  let pp := t % 10
  let pq := (t + 1) % 10
  let have_ := ds.filter (fun p => !lost.contains p)
  let miss := ds.filter (fun p => lost.contains p)
  let a := have_.foldl (fun acc p => acc ^^^ shardByte shards p j) (shardByte shards pp j)
  let b := have_.foldl (fun acc p => acc ^^^ gfShift (idx p) (shardByte shards p j)) (shardByte shards pq j)
  let d (p : Nat) : Byte :=
    if !lost.contains p then shardByte shards p j
    else match miss with
      | [_] => if lost.contains pp then gfDiv b (gfShift (idx p) 1) else a
      | [p0, p1] =>
        let other := if p = p0 then p1 else p0
        gfDiv (b ^^^ gfShift (idx other) a) (gfShift (idx p) 1 ^^^ gfShift (idx other) 1)
      | _ => 0
  fun p =>
    if p = pp then ds.foldl (fun acc q => acc ^^^ d q) 0
    else if p = pq then ds.foldl (fun acc q => acc ^^^ gfShift (idx q) (d q)) 0
    else d p

/-- The number of the data chunk of a position in a stripe: the inverse of `stripeOf` (R406). -/
def chunkOf (p t : Nat) : Nat :=
  8 * (t / 10) + (((List.range 10).filter (fun r => r != p && r != (p + 9) % 10)).takeWhile (fun r => r != t % 10)).length

/-- The lost shards of the group, by position. -/
def State.lostPositions (s : State) : List Nat := (List.range 10).filter (fun p => s.recov.lost.contains (s.egrpAt p))

/-- The shard of a position in a stripe. -/
def State.shardOf (s : State) (p t : Nat) : List Byte :=
  let m := s.egrpAt p
  if p = t % 10 ∨ p = (t + 1) % 10 then cgets 0 s.parity (partKey m (65536 * parityChunk p t)) 65536
  else (List.range 65536).map (fun i => (s.scmByte (m * 2 ^ 43 + 2 ^ 42 + 65536 * chunkOf p t + i)).1)

/-- A sector of a surviving data shard of a stripe is poisoned: so is what is decoded from it (R420). -/
def State.shardPoison (s : State) (t : Nat) (lost : List Nat) (i : Nat) : Bool :=
  (dataPositions t).any (fun q => !lost.contains q && s.scmPoison ((s.egrpAt q * 2 ^ 43 + 2 ^ 42 + 65536 * chunkOf q t) / 32 + i))

/-- The chunk of a lost position in a stripe, decoded from the survivors' shards, and which of its sectors are poisoned: all where three or more
shards are lost (R406, R416, R420). -/
def State.decodeChunk (s : State) (p t : Nat) : List Byte × (Nat → Bool) :=
  let lost := s.lostPositions
  let shards := (List.range 10).map (fun q => if lost.contains q then [] else s.shardOf q t)
  if 3 ≤ lost.length then (List.replicate 65536 0, fun _ => true)
  else ((List.range 65536).map (fun j => decodeByte t shards lost j p), s.shardPoison t lost)

/-- Writes a chunk of 64 KiB, sector by sector with its poison. -/
def State.writeChunk (s : State) (pa : Nat) (bs : List Byte) (pois : Nat → Bool) : State :=
  (List.range 2048).foldl (fun (s : State) i => s.memWrite (pa + 32 * i) ((bs.drop (32 * i)).take 32) (pois i)) s

/-! ### Stage 5: rebuild -/

/-- Every listed page of a manifest is written into the HBM of a logical module as of boundary c (R415). -/
def State.rebuildPages (s : State) (holder owner c : Nat) : State :=
  (s.listedPages holder owner).foldl (fun (s : State) q =>
    match versionOf q.2 c with
    | some b => s.copyPage (owner * 2 ^ 43 + 2 ^ 42 + (s.snapBase + 2 * q.1 + b) * 65536) (owner * 2 ^ 43 + q.1 * 65536)
    | none => s) s

/-- The manifest of a lost module is taken from a mirror. -/
def State.takeMirror (s : State) (holder owner : Nat) : State :=
  let base := manKey holder owner 0
  let mirror := s.manifest.filter (fun p => decide (base ≤ p.1) && decide (p.1 < base + 2 ^ 40))
  { s with manifest := mirror.foldl (fun (t : Cells Byte) (p : Nat × Byte) => cput 0 t (manKey owner owner (p.1 - base)) p.2) s.manifest }

/-- The spare writes every listed page of the lost module at position p as of boundary c: the chunk of its slot is decoded from the survivors
(R415). -/
def State.decodePages (s : State) (m p c : Nat) : State :=
  (s.listedPages m m).foldl (fun (s : State) q =>
    match versionOf q.2 c with
    | some b =>
      let r := s.decodeChunk p (stripeOf p (s.snapBase + 2 * q.1 + b))
      s.writeChunk (m * 2 ^ 43 + q.1 * 65536) r.1 r.2
    | none => s) s

/-- The spare's part of stage 5, for a lost module at a position of its group: manifest from the member that follows, pages decoded into
its HBM. -/
def State.rebuildLost (s : State) (m : Nat) : State :=
  match s.egrpPos m with
  | none => s
  | some p =>
    let h := s.egrpAt ((p + 1) % 10)
    match s.manComplete h m with
    | some b => (s.takeMirror h m).decodePages m p b
    | none => s.takeMirror h m

/-- RECOVERY_REBUILD (R415, R417): this module as the spare takes the image of the lost one; a survivor only reads; in the whole-domain
path each module takes the image from its own slots. -/
def execRecoveryRebuild (s : State) : Host.Outcome State Fault Refusal :=
  let own := s.modnum.toNat
  .next (
    if s.recov.domain && s.mayBegin 3 then
      (match s.manComplete own own with | some b => s.rebuildPages own own b | none => s).stageDone 5
    else if s.mayBegin 4 then
      ((s.recov.spares.filter (fun q => q.2 == s.ownPhys)).foldl (fun (s : State) q => s.rebuildLost q.1) s).stageDone 5
    else s)

/-! ### Stage 6: map -/

/-- The virtual-die entries of a context that name a physical module name its spare (R29, R415). -/
def State.remapVdies (s : State) (c old new : Nat) : State :=
  let d := (s.ctx c).desc
  (List.range d.vdtlen).foldl (fun (s : State) n =>
    let pa := d.vdtb + 4 * n
    let e := leNat (s.memBytes pa 4)
    if e.testBit 31 && bitsOf e 30 22 == old then s.homeWrite pa (leBytes 4 (e - old * 2 ^ 22 + new * 2 ^ 22)) (s.memPoison pa 4) else s) s

/-- A lost module is mapped to its spare. -/
def State.mapLost (s : State) (m p : Nat) : State :=
  let old := s.physMod m
  let s := (s.ctxs.filter (fun q => q.2.st != .free)).foldl (fun (s : State) q => s.remapVdies q.1 old p) s
  let own := s.ownPhys
  { s with lmap := tput s.lmap m p, modnum := if p = own then BitVec.ofNat 9 m else s.modnum }

/-- RECOVERY_MAP (R415). -/
def execRecoveryMap (s : State) : Host.Outcome State Fault Refusal :=
  .next (if !s.mayBegin 5 then s
    else ((s.recov.spares.filter (fun q => s.physMod q.1 != q.2)).foldl (fun (s : State) q => s.mapLost q.1 q.2) s).stageDone 6)

/-! ### Stage 7: resume -/

/-- The hub state and `%step` of a context are loaded from a record: its queues and counters are those of the record, with the launches that were
running before the tasks that had fired (R414, log 40); the group's
complete step is the record's boundary (R413, R415). -/
def State.loadRecord (s : State) (r : CtxRecord) : State :=
  let k := r.ctx
  let s := (s.queues.filter (fun p => p.2.ctx == k && p.2.st != .disabled)).foldl (fun (s : State) p => s.modQueue p.1 Queue.disable) s
  let s := r.queues.foldl (fun (s : State) p => s.setQueue p.1 { p.2 with
    headRec := none, prev := none, fired := r.undone.filter (fun t => t.queue == p.1) ++ p.2.fired }) s
  let others : Cells Ctr := s.ctrs.filter (fun p => p.2.owner != some k)
  let s := { s with ctrs := r.ctrs.foldl (fun (t : Cells Ctr) (p : Nat × Ctr) => cput {} t p.1 p.2) others }
  let i := (r.members.takeWhile (fun m => m != (s.modnum.toNat, k))).length
  let g : StepGroup := { s.stepGroup r.group with members := r.members, commits := cput none [] i (some r.boundary), complete := some r.boundary }
  { s with stepGroups := cput {} s.stepGroups r.group g }

/-- A context resumes: saved clusters are discarded, its record is loaded, CTXRUN is issued (R415). It keeps the descriptor that it
has (R269); one that a power loss has freed takes the record's, unless its ASID is in use. CTXRUN refuses a context that the host has
taken elsewhere since, and one that a double fault holds (R270, R274). -/
def State.resumeCtx (s : State) (r : CtxRecord) : State :=
  let back (s : State) : State := (((s.dropWork r.ctx).loadRecord r).modCtx r.ctx (fun x =>
    { x with st := .idle, step := r.step, stepGroup := some r.group, stepLaunch := none, restoring := false,
             faultAfterSave := false, saveShort := false, fcause := 0, pcause := 0 })).settleBiases
  match (s.ctx r.ctx).st with
  | .draining | .idle | .active | .saving => s
  | .faulted => if s.frozenLeft r.ctx then s else back s
  | .free =>
    if s.asidUsed r.ctx r.desc.asid then s
    else back (s.modCtx r.ctx (fun x => { x with desc := r.desc, descPa := r.descPa, split := r.desc.split.setWidth 2 }))
  | .saved => back s

/-- The records of a boundary. -/
def State.recordsAt (s : State) (b : Nat) : List CtxRecord := s.records.filter (fun r => r.boundary == b)

/-- RECOVERY_RESUME (R415, R417): in the whole-domain path the contexts come from the records of the manifest's complete step. -/
def execRecoveryResume (s : State) : Host.Outcome State Fault Refusal :=
  let own := s.modnum.toNat
  .next (
    if !s.mayBegin 6 then s
    else if s.recov.domain then
      (((s.manComplete own own).map s.recordsAt).getD [] |>.foldl State.resumeCtx s).stageDone 7
    else
      (s.hitCtxs.foldl (fun (s : State) k =>
        match (s.completeOf k).bind (fun b => (s.recordsAt b).find? (fun r => r.ctx == k)) with
        | some r => s.resumeCtx r
        | none => s) s).stageDone 7)

/-! ### Stage 8: the storage-class tier (R406, R416) -/

/-- Writes a rebuilt chunk of a position, data with the poison of its sectors, or parity. -/
def State.putChunk (s : State) (p t : Nat) (bs : List Byte) (pois : Nat → Bool) : State :=
  let m := s.egrpAt p
  if p = t % 10 ∨ p = (t + 1) % 10 then { s with parity := cputs 0 s.parity (partKey m (65536 * parityChunk p t)) bs }
  else s.writeChunk (m * 2 ^ 43 + 2 ^ 42 + 65536 * chunkOf p t) bs pois

/-- The stripes of a group: 3 TiB of data per position (R406). -/
def groupStripes : Nat := 10 * (3 * 2 ^ 40 / 65536 / 8)

/-- Rebuilds the chunks of the lost modules in a stripe (R416): with three or more shards lost they read as poisoned; the poison of the survivors'
shards goes with what is decoded from them (R420). -/
def State.rebuildStripe (s : State) (t : Nat) (shards : List (List Byte)) : State :=
  let mine := s.lostPositions
  let lost := (List.range 10).filter (fun p => mine.contains p || ((shards[p]?).getD []).length != 65536)
  let s :=
    if 3 ≤ lost.length then
      (mine.foldl (fun (s : State) p => s.putChunk p t (List.replicate 65536 0) (fun _ => true)) s).writeErr
        { cause := cREBUILD_FAIL, sev := sevCONTAINED, scope := 2, unit := 15, die := 12 }
    else
      let ps := s.shardPoison t lost
      mine.foldl (fun (s : State) p => s.putChunk p t ((List.range 65536).map (fun j => decodeByte t shards lost j p)) ps) s
  s.modRecov (fun r => { r with rebuilt := r.rebuilt ++ mine.map (fun p => (s.egrpAt p, t)) })

/-- SCM_REBUILD (R416): one stripe is rebuilt, in the background or on demand: `shards` are the chunks that the ten positions deliver.
The last stripe ends the procedure. -/
def execScmRebuild (stripe : Nat) (shards : List (List Byte)) (s : State) : Host.Outcome State Fault Refusal :=
  .next (
    if !(s.mayBegin 7 || s.recov.stage == 8) || s.recov.domain || s.egroup.isEmpty || decide (groupStripes ≤ stripe)
        || s.recov.lost.all (fun m => s.recov.rebuilt.contains (m, stripe)) then s
    else
      let s := (s.modRecov (fun r => { r with stage := 8, done := false })).rebuildStripe stripe shards
      let s := s.unholdAll
      if s.recov.lost.all (fun m => decide (groupStripes ≤ (s.recov.rebuilt.filter (fun q => q.1 == m)).length)) then
        s.modRecov (fun r => { r with stage := 0, lost := [], spares := [], rebuilt := [] })
      else s)

end Sys2Proof.Machine
end

