-- ==== Sys2Proof/Machine/HostIf.lean ====
section
/-! DEFINITION. The host interface: control-window writes (R437, R438), bring-up (R439, R440), MW accesses (R343), queue tails (R280), the
command and completion rings (R441), reset (R442), power (R404) and thermal limits (R443). -/

namespace Sys2Proof.Machine

/-! ### Bring-up (R439, R440) -/

/-- The bring-up state becomes `n`. -/
def State.setMstate (s : State) (n : Nat) : State := { s with host := { s.host with mstat := BitVec.ofNat 64 n } }

/-- Bring-up fails: failing die and reason in DETAIL (R439). -/
def State.bringupFails (s : State) (reason die : Nat) : State :=
  { s with host := { s.host with mstat := BitVec.ofNat 64 (packFields [(7, 0), (die, 32), (reason, 40)]) } }

/-- The host's accesses are performed in its order: cycles pass until the window that holds an earlier write of it closes, twice when that write
was sent again (R341, R343). -/
def State.hostTurn (s : State) : State :=
  let window (s : State) : State := if s.unperformed hostAgent then s.passCycles (s.windowEnd - s.cycle) else s
  window (window s)

/-- A write to the control window: none is taken while the supply is down; it comes after the host's earlier writes (R343). -/
def State.cw (s : State) (f : State → State) : State := if s.power.failed then s else f s.hostTurn

/-- A write of FWLEN: the length, and with bit 32 the start of the load in RESET (R438, R440). -/
def State.writeFwlen (s : State) (v : Word64) : State :=
  let s := { s with host := { s.host with fwlen := v &&& 0x1FFFFFFFF } }
  if v.getLsbD 32 && s.mstate == 0 then s.setMstate 1 else s

/-- FWLOAD (R440). -/
def execFwload (v : Word64) (s : State) : Host.Outcome State Fault Refusal := .next (s.cw (fun s => s.writeFwlen v))

/-- The image ends with the CRC-32 of what comes before it (R440). -/
def imageSound (b : List Byte) : Bool :=
  let n := b.length - 4
  decide (4 ≤ b.length) && leNat (b.drop n) == (crc32 (b.take n)).toNat

/-- FWLOAD_COMPLETE (R440): the image is read from host memory; every link trains (R387). -/
def execFwloadComplete (s : State) : Host.Outcome State Fault Refusal :=
  .next (
    if s.mstate ≠ 1 then s
    else if imageSound (cgets 0 s.hostMem (s.host.fwaddr.toNat / 4096 * 4096) (s.host.fwlen.toNat % 2 ^ 32)) then
      ((List.range 24).foldl (fun (s : State) k => s.modLink k (fun x => x.train 1)) s).setMstate 2
    else s.bringupFails 1 12)

/-- BRINGUP_LTRAIN_DONE (R440): no link is being trained any more; a die-to-die link that is DOWN fails the bring-up. -/
def execBringupLtrainDone (s : State) : Host.Outcome State Fault Refusal :=
  .next (
    if s.mstate ≠ 2 ∨ (List.range 24).any (fun k => (s.link k).st == .train) then s
    else match (List.range 12).find? (fun k => !(s.link k).carries) with
      | some k => s.bringupFails 2 k
      | none => s.setMstate 3)

/-- The masks keep the placement one-to-one (R375). -/
def masksOk (h : HostRegs) : Bool :=
  bitsOf h.hashm0.toNat 2 0 == 1 && bitsOf h.hashm0.toNat 34 32 == 2 && bitsOf h.hashm1.toNat 2 0 == 4

/-- The erasure group is accepted (R405): the lists of the members agree or not: what training compared. -/
def State.groupOk (s : State) (agree : Bool) : Bool :=
  !s.host.egrp0.getLsbD 63 || (s.egroup.contains s.modnum.toNat && decide (s.egroup.Nodup) && agree)

/-- MEMINIT_DONE (R440). -/
def execMeminitDone (listsAgree : Bool) (s : State) : Host.Outcome State Fault Refusal :=
  .next (
    if s.mstate ≠ 3 then s
    else if masksOk s.host && s.groupOk listsAgree then s.initMemory.setMstate 4
    else s.bringupFails 3 12)

/-- A core that fails its self-test is retired and its FUSE bit cleared (R427, R440). -/
def State.failCore (s : State) (k : Nat) : State :=
  if k < Config.corePositions ∧ (s.core k).enabled then (s.retireCore k).modCore k (fun c => { c with enabled := false, selfFail := true })
  else s

/-- The records of a power failure that bring-up queues: one for each memory die, with the count of entries (R404). -/
def State.powerRecords (s : State) : State :=
  if !s.power.report then s
  else
    let s := (List.range 4).foldl (fun (s : State) d =>
      s.writeErr { cause := cPOWER_DRAINED, sev := sevADVISORY, scope := 2, unit := 12, die := 8 + d, synd := cget 0 s.power.drained d }) s
    { s with power := { s.power with report := false, drained := [] } }

/-- The records of bring-up are queued: those of its links, and those of a power failure (R404, R440). -/
def State.bootRecords (s : State) : State :=
  (s.bootErrs.foldl (fun (s : State) r => s.putLinkRecord r.1 r.2) { s with bootErrs := [] }).powerRecords

/-- The module becomes READY: the records of bring-up are queued, the members' beacon timers start. -/
def State.becomeReady (s : State) : State :=
  let s := s.bootRecords.setMstate 6
  s.modRecov (fun r => { r with stage := 0, done := false, domain := false,
                                beacons := s.fellows.foldl (fun t m => cput 0 t m s.timebase.toNat) r.beacons })

/-- SELFTEST_DONE (R440): cores that fail are retired; a unit that fails, or a die with fewer than 48 cores, fails the bring-up; a
member of a group whose manifest holds a complete step restores it first (R417). -/
def execSelftestDone (r : SelfTest) (s : State) : Host.Outcome State Fault Refusal :=
  .next (
    if s.mstate ≠ 4 then s
    else
      let s := r.cores.foldl State.failCore s
      if r.unitFails then s.bringupFails 4 r.failDie.toNat
      else match (List.range 8).find? (fun d => decide ((s.enabledOn d).length < 48)) with
        | some d => s.bringupFails 4 d
        | none =>
          if s.host.egrp0.getLsbD 63 && (s.manComplete s.modnum.toNat s.modnum.toNat).isSome then
            (s.modRecov (fun _ => { stage := 2, done := true, released := !s.host.msplit.getLsbD 3, domain := true, since := s.timebase.toNat })).setMstate 5
          else s.becomeReady)

/-- RESTORE_DONE (R440): stage 7 is done, or the recovery has stalled. -/
def execRestoreDone (s : State) : Host.Outcome State Fault Refusal :=
  .next (if s.mstate = 5 ∧ ((s.recov.stage = 7 ∧ s.recov.done) ∨ s.recov.stage = 0) then s.becomeReady else s)

/-! ### MW and QW (R280, R343, R437) -/

/-- Memory has been initialised. -/
def State.memReady (s : State) : Bool :=
  s.mstate == 4 || s.mstate == 5 || s.mstate == 6 || (s.mstate == 7 && bitsOf s.host.mstat.toNat 47 40 == 4)

/-- The physical address of n bytes at an offset of MW; none for an address that MW does not reach. -/
def State.mwPa (s : State) (off n : Nat) : Option Nat :=
  let pa := s.host.mwbase.toNat / 2 ^ 36 * 2 ^ 36 + off
  if s.power.failed || !s.memReady || pa >>> 43 != s.modnum.toNat || decide (hbmBytes < pa % 2 ^ 43 + n) || decide (2 ^ 36 < off + n) then none
  else some pa

/-- MW_READ (R343, R420): an acquire; a poisoned sector gives a poisoned TLP. -/
def execMwRead (off : BitVec 36) (n : Nat) (s : State) : Host.Outcome State Fault Refusal :=
  .next (match s.mwPa off.toNat n with
    | none => { s with mwReply := some { bytes := none, pois := false } }
    | some pa =>
      let s := s.hostTurn.hbmTouch pa n false
      let t := s.ownView hostAgent
      { s with mwReply := some { bytes := some (t.memBytes pa n), pois := t.memPoison pa n } })

/-- A write of the host at the home agents, which recall the lines' tokens (R344). The host has the lowest number of all, so its write comes
before the pending ones; one that finds bytes that this window has written already is sent again behind it (R341). -/
def State.hostWrite (s : State) (pa : Nat) (bs : List Byte) : State :=
  if s.unperformed hostAgent || s.served.any (fun z => rangesMeet z.1 z.2.1 pa bs.length && decide (0 < z.2.2)) then
    s.postReq { who := 0, agent := hostAgent, pa := pa, bytes := bs, pois := false }
  else s.grantReq { who := 0, agent := hostAgent, pa := pa, bytes := bs, pois := false }

/-- MW_WRITE (R343): a release: a request of the host at the home agents (R341, R344). -/
def execMwWrite (off : BitVec 36) (bytes : List Byte) (s : State) : Host.Outcome State Fault Refusal :=
  .next (match s.mwPa off.toNat bytes.length with
    | none => s
    | some pa =>
      if bytes.isEmpty then s
      else s.hostWrite pa bytes)

/-- QUEUE_TAIL_WRITE (R280, R281). -/
def execQueueTailWrite (q : BitVec 12) (tail : BitVec 16) (s : State) : Host.Outcome State Fault Refusal :=
  let k := q.toNat
  .next (s.cw (fun s =>
    let x := s.queue k
    let big := decide (2 ^ x.logn < (tail - x.head).toNat)
    if x.st = .disabled ∨ x.dev then s.countErr cQOVERRUN
    else if !big then s.setQueue k { x with tail := tail }
    else if x.st = .error then s.countErr cQOVERRUN
    else s.refuse k cQOVERRUN false tail))

/-! ### Control registers (R438) -/

/-- MCTL: a write of 1 to bit 0 resets the module. -/
def State.writeMctl (s : State) (v : Word64) : State := if v.getLsbD 0 then s.startReset false else s

/-- MCTL_RESET (R442). -/
def execMctlReset (v : Word64) (s : State) : Host.Outcome State Fault Refusal := .next (s.cw (fun s => s.writeMctl v))

/-- An event with status BUSY for each discarded entry (R441); its result is not given. -/
def State.busyEvents (s : State) : Nat → State
  | 0 => s
  | n + 1 => let (r, s) := s.fresh 64; State.busyEvents (s.putEvent (BitVec.ofNat 16 stBUSY) r) n

/-- ICTAIL: entries beyond the ring's size are discarded (R441). -/
def State.writeIctail (s : State) (v : Word64) : State :=
  let n := (v.setWidth 16 - s.host.ichead).toNat
  if n ≤ s.ringSize then { s with host := { s.host with ictail := v.setWidth 16 } }
  else { s with host := { s.host with ictail := s.host.ichead + BitVec.ofNat 16 s.ringSize } }.busyEvents (n - s.ringSize)

/-- ICTAIL_WRITE (R441). -/
def execIctailWrite (v : Word64) (s : State) : Host.Outcome State Fault Refusal := .next (s.cw (fun s => s.writeIctail v))

/-- CCHEAD: freed entries let events that wait enter the ring (R441). -/
def State.writeCchead (s : State) (v : Word64) : State :=
  State.flushEvents s.evbuf.length { s with host := { s.host with cchead := v.setWidth 16 } }

/-- CCHEAD_WRITE (R441). -/
def execCcheadWrite (v : Word64) (s : State) : Host.Outcome State Fault Refusal := .next (s.cw (fun s => s.writeCchead v))

/-- THSTAT: a write of 1 clears TRIP (R443); a TRIP of the same cycle stands (R4). -/
def State.writeThstat (s : State) (v : Word64) : State :=
  if s.host.tripAt = some s.cycle then s else { s with host := { s.host with thstat := s.host.thstat &&& ~~~(v &&& 8) } }

/-- THSTAT_CLEAR (R443). -/
def execThstatClear (v : Word64) (s : State) : Host.Outcome State Fault Refusal := .next (s.cw (fun s => s.writeThstat v))

/-- ETCFG: EN stays 0 when the region does not end within 3 TiB or covers more pages than there are (R411). -/
def State.writeEtcfg (s : State) (v : Word64) : State :=
  let base := bitsOf v.toNat 49 24
  let lim := bitsOf v.toNat 23 0
  let ok := decide (lim ≤ 11010048) && decide ((base + 2 * lim) * 65536 ≤ 3 * 2 ^ 40)
  { s with host := { s.host with etcfg := (v &&& 0x0003FFFFFFFFFFFF) ||| (if v.getLsbD 63 && ok then (1#64) <<< 63 else 0) } }

/-- ETCFG_WRITE (R411). -/
def execEtcfgWrite (v : Word64) (s : State) : Host.Outcome State Fault Refusal := .next (s.cw (fun s => s.writeEtcfg v))

/-- A routing entry: later packets use it, and a withdrawal of the destination ends (R397, log 38). -/
def State.writeRoute (s : State) (m : Nat) (v : Word32) : State :=
  if m < 432 then { s with routes := cput 0 s.routes m (v &&& 0x000FFFFF), withdrawn := s.withdrawn.filter (fun x => !(s.host.fabmode && x == m)) } else s

/-- ROUTE_WRITE (R397). -/
def execRouteWrite (m : BitVec 9) (v : Word32) (s : State) : Host.Outcome State Fault Refusal := .next (s.cw (fun s => s.writeRoute m.toNat v))

/-- A register that takes writes only while MSTAT.STATE is below MEMINIT (R438). -/
def State.preInit (s : State) (f : HostRegs → HostRegs) : State := if s.mstate < 3 then { s with host := f s.host } else s

/-- A write of a register of CW by its offset (R438): RO registers and offsets that are not listed ignore it. -/
def State.cwWrite (s : State) (off : Nat) (v : Word64) : State :=
  let reg (f : HostRegs → HostRegs) : State := { s with host := f s.host }
  if off = 0x08 then s.writeMctl v
  else if off = 0x10 then reg (fun h => { h with fwaddr := v &&& ~~~0xFFF })
  else if off = 0x18 then s.writeFwlen v
  else if off = 0x20 then reg (fun h => { h with icbase := v &&& ~~~0xFF0 })
  else if off = 0x28 then s.writeIctail v
  else if off = 0x38 then reg (fun h => { h with ccbase := v &&& ~~~0xFFF })
  else if off = 0x40 then s.preInit (fun h => { h with qtbase := v })
  else if off = 0x48 then s.preInit (fun h => { h with fqbase := v })
  else if off = 0x50 then s.preInit (fun h => { h with eqbase := v })
  else if off = 0x58 then reg (fun h => { h with mwbase := v &&& ~~~0xFFFFFFFFF })
  else if off = 0x60 then (if s.mstate < 2 then reg (fun h => { h with fabmode := v.getLsbD 0 }) else s)
  else if off = 0x68 then (if 1 ≤ v ∧ v ≤ 168 then reg (fun h => { h with scrubper := v }) else s)
  else if off = 0x70 then s.writeThstat v
  else if off = 0x78 then reg (fun h => { h with pwrlim := if v < 1000 then 1000 else if 2800 < v then 2800 else v })
  else if off = 0x80 then s.preInit (fun h => { h with hashm0 := v &&& 0x1FFFFFFF1FFFFFFF })
  else if off = 0x88 then s.preInit (fun h => { h with hashm1 := v &&& 0x1FFFFFFF })
  else if off = 0x90 then s.preInit (fun h => { h with egrp0 := v &&& 0xC0001FFFFFFFFFFF })
  else if off = 0x98 then s.preInit (fun h => { h with egrp1 := v &&& 0x00001FFFFFFFFFFF })
  else if off = 0xA0 then s.writeEtcfg v
  else if off = 0xB0 then reg (fun h => { h with protcfg := v &&& 0xFFF })
  else if off = 0xB8 then reg (fun h => { h with msplit := v &&& 0x7C })
  else if off = 0xC0 then s.writeCchead v
  else if 0x1000 ≤ off ∧ off ≤ 0x16BC ∧ off % 4 = 0 then s.writeRoute ((off - 0x1000) / 4) (v.setWidth 32)
  else s

/-- CW_REGISTER_WRITE (R438). -/
def execCwRegisterWrite (off : BitVec 16) (v : Word64) (s : State) : Host.Outcome State Fault Refusal :=
  .next (s.cw (fun s => s.cwWrite off.toNat v))

/-- What a register of CW reads as (R438). -/
def State.cwRead (s : State) (off : Nat) : Word64 :=
  let h := s.host
  if off = 0x00 then h.mstat else if off = 0x10 then h.fwaddr else if off = 0x18 then h.fwlen else if off = 0x20 then h.icbase
  else if off = 0x28 then h.ictail.setWidth 64 else if off = 0x30 then h.ichead.setWidth 64 else if off = 0x38 then h.ccbase
  else if off = 0x40 then h.qtbase else if off = 0x48 then h.fqbase else if off = 0x50 then h.eqbase else if off = 0x58 then h.mwbase
  else if off = 0x60 then (if h.fabmode then 1 else 0) else if off = 0x68 then h.scrubper else if off = 0x70 then h.thstat
  else if off = 0x78 then h.pwrlim else if off = 0x80 then h.hashm0 else if off = 0x88 then h.hashm1 else if off = 0x90 then h.egrp0
  else if off = 0x98 then h.egrp1 else if off = 0xA0 then h.etcfg else if off = 0xA8 then s.rstat else if off = 0xB0 then h.protcfg
  else if off = 0xB8 then h.msplit else if off = 0xC0 then h.cchead.setWidth 64 else if off = 0xC8 then h.cctail.setWidth 64
  else if 0x100 ≤ off ∧ off ≤ 0x138 ∧ off % 8 = 0 then
    BitVec.ofNat 64 (packFields ((List.range 64).map (fun i => ((s.core (8 * (off - 0x100) + i)).enabled.toNat, i))))
  else if 0x200 ≤ off ∧ off ≤ 0x2B8 ∧ off % 8 = 0 then (s.link ((off - 0x200) / 8)).lstat ((off - 0x200) / 8)
  else if 0x1000 ≤ off ∧ off ≤ 0x16BC ∧ off % 4 = 0 then (cget 0 s.routes ((off - 0x1000) / 4)).setWidth 64
  else 0

/-- MRESET (R442): none of its completions is written. -/
def execMreset (_ : Cmd) (s : State) : Host.Outcome State Fault Refusal :=
  .next (if s.ringSize ≤ s.ringUsed then s else s.startReset false)

/-! ### Power (R404) -/

/-- POWER_FAIL (R404): queues stop accepting, what they hold drains on hold-up energy, everything but the tier is lost. -/
def execPowerFail (s : State) : Host.Outcome State Fault Refusal :=
  .next (if s.power.failed then s else { s.lost false with power := { failed := true, full := false, report := true } })

/-- POWER_RETURN (R404): the entries have drained; the module starts in RESET while the store recharges. -/
def execPowerReturn (s : State) : Host.Outcome State Fault Refusal :=
  .next (
    if !s.power.failed then s
    else
      let left := s.wbqs
      let s := s.drainAll
      let n := left.foldl (fun (t : Cells Nat) (p : Nat × List WbEnt) => cput 0 t p.1 (cget 0 t p.1 + p.2.length)) s.power.drained
      { s with power := { s.power with failed := false, drained := n } })

/-- HOLDUP_RECHARGED (R404): the store is full again. -/
def execHoldupRecharged (s : State) : Host.Outcome State Fault Refusal :=
  .next (if s.power.failed then s else { s with power := { s.power with full := true } })

/-! ### Power and thermal limits (R443) -/

/-- The conditions that throttle: power, coolant, junction. -/
def throttles (limit watts inlet tj : Nat) : Nat :=
  (if limit < watts then 1 else 0) + (if 40 < inlet then 2 else 0) + (if 105 < tj then 4 else 0)

/-- THROTTLE_STEP (R443): measurements arrive; every 100 µs the clock steps down by 50 MHz, or up once every condition has cleared; entry into
and exit from throttling are events. -/
def execThrottleStep (watts : BitVec 16) (inlet tj : BitVec 8) (s : State) : Host.Outcome State Fault Refusal :=
  let v := s.host.thstat.toNat
  let f := throttles s.host.pwrlim.toNat watts.toNat inlet.toNat tj.toNat
  let due := decide (s.stepDue ≤ s.now)
  let mhz := if !due then bitsOf v 63 48 else if f ≠ 0 then max 650 (bitsOf v 63 48 - 50) else min 1300 (bitsOf v 63 48 + 50)
  let s' : State := { s with stepDue := if due then s.now + 100 * Config.micro * Config.parts else s.stepDue, host := { s.host with thstat := BitVec.ofNat 64 (packFields
    [(f, 0), (bitsOf v 3 3, 3), (tj.toNat, 16), (inlet.toNat, 24), (watts.toNat, 32), (mhz, 48)]) } }
  .next (if s.power.failed then s else if (bitsOf v 2 0 = 0) = (f = 0) then s' else s'.notify)

/-- THERMAL_TRIP (R443): an inlet above 55 °C or a junction above 125 °C resets the module and latches the reason. -/
def execThermalTrip (inlet tj : BitVec 8) (s : State) : Host.Outcome State Fault Refusal :=
  .next (if !s.power.failed ∧ (55 < inlet.toNat ∨ 125 < tj.toNat) then s.startReset true else s)

end Sys2Proof.Machine
end

