-- ==== Sys2Proof/Machine/Debug.lean ====
section
/-! DEFINITION. Capture and replay (R432, R433), and host debug (R164, R274, R320, R323, R326, R441). The layouts of the commands'
parameters are log 36. -/

namespace Sys2Proof.Machine

/-! ### Capture (R432) -/

/-- A range of this module's HBM. -/
def State.ownHbm (s : State) (pa n : Nat) : Bool := pa >>> 43 == s.modnum.toNat && decide (pa % 2 ^ 43 + n ≤ hbmBytes)

/-- CAPSET: context, queue, ring index, or with FLG[0] = 1 a counter in place of both; first team, number of teams; log base, log
size. -/
def execCapset (c : Cmd) (s : State) : Host.Outcome State Fault Refusal :=
  runCmd c s (fun s =>
    let byCtr := c.flg.getLsbD 0
    let k := argOf c 0
    let owned := if byCtr then decide (argOf c 1 < 8192) && (s.ctr (argOf c 1)).owner == some k
      else decide (argOf c 1 < 4096) && (s.queue (argOf c 1)).ctx == k && (s.queue (argOf c 1)).st != .disabled
    if 128 ≤ k ∨ !(s.ctx k).st.live ∨ !owned ∨ argOf c 4 = 0 ∨ 16 < argOf c 4 ∨ !s.ownHbm (argOf c 5) (argOf c 6) then (s, stBADPARAM, 0)
    else
      let x : Cap := { queue := if byCtr then none else some (argOf c 1), index := if byCtr then argOf c 1 else argOf c 2 % 2 ^ 16,
                       first := argOf c 3, count := argOf c 4, base := argOf c 5, size := argOf c 6 }
      ({ s with caps := s.caps ++ [x] }, 0, 0))

/-! ### Replay (R433) -/

/-- The launch record of a logged team: the KIND 0 entry of its group 0. -/
def State.loggedRecord (s : State) (base size team : Nat) : Option (List Byte) :=
  (s.capFind base size team 0 0 (size / 16 + 1) 0).bind (fun e => if e.kind = 0 then some ((e.pay.drop 16).take 256) else none)

/-- A word of a granule's image. -/
def imageWord (pay : List Byte) (i : Nat) : WP :=
  { v := BitVec.ofNat 32 (leNat ((pay.drop (16 + 4 * i)).take 4)),
    p := (((pay[16 + 4096 + i / 8]?).getD 0).getLsbD (i % 8)) }

/-- A group of a replay starts from its KIND 1 entries. -/
def State.loadImage (s : State) (g base size : Nat) : State :=
  match s.group? g with
  | none => s
  | some x =>
    let t := (s.teamOf x).num
    let win := (List.range (x.rf.wbytes / 4096)).foldl (fun (w : Cells WP) k =>
      match s.capFind base size t x.num (k + 1) (size / 16 + 1) 0 with
      | some e => if e.kind = 1 then (List.range 1024).foldl (fun (w : Cells WP) i => cput {} w (1024 * k + i) (imageWord e.pay i)) w else w
      | none => w) x.rf.win
    s.setGroup g { x with rf := { x.rf with win := win }, capSeq := 1 }

/-- The team of a replay starts on a core; the other teams of its cluster are not there. -/
def State.startReplay (s : State) (k core team base size : Nat) (tag : BitVec 16) (bs : List Byte) (h : Hdr) : State :=
  let v := leNat bs
  let l : Launch := { ctx := k, queue := none, hdr := h, st := .running, seed := BitVec.ofNat 32 (bitsOf v 319 288), prvb := lrPrvb v, lrec := bs }
  let lid := s.nextId
  let cid := s.nextId + 1
  let cl : Cluster := { launch := lid, num := team / lrClu v, vdie := 0, die := dieOf core, teams := List.replicate (team % lrClu v) 0, st := .resident }
  let s := { s with nextId := s.nextId + 2, launches := tput s.launches lid l, clusters := tput s.clusters cid cl }
  let tid := s.nextId
  let s := s.startTeam lid l cid team core
  let r : Replay := { team := tid, base := base, size := size, tag := tag }
  let s : State := { s with replays := s.replays ++ [r] }
  let gs := (s.groups.filter (fun p => p.2.team == tid)).map (fun p => p.1)
  let s := gs.foldl (fun (s : State) g => s.loadImage g base size) s
  (s.modCtx k (fun x => if x.st = .idle then { x with st := .active } else x)).settleBiases

/-- REPLAY: replay context, core, team, log base, log size. Its end is an event. -/
def execReplay (c : Cmd) (s : State) : Host.Outcome State Fault Refusal :=
  runCmd c s (fun s =>
    let k := argOf c 0
    let core := argOf c 1
    if 128 ≤ k ∨ Config.corePositions ≤ core ∨ !(s.core core).enabled ∨ (s.core core).retired ∨ !s.ownHbm (argOf c 3) (argOf c 4) then (s, stBADPARAM, 0)
    else if !s.ctxRuns k then (s, 4, 0)
    else match s.loggedRecord (argOf c 3) (argOf c 4) (argOf c 2) with
      | none => (s, stBADPARAM, 0)
      | some bs =>
        match s.readHdr (s.ctx k).desc (leNat bs) with
        | none => (s, stBADPARAM, 0)
        | some h =>
          if lrTeams (leNat bs) ≤ argOf c 2 then (s, stBADPARAM, 0)
          else if !((s.roomUsed core).add (newTeamRoom h (lrGroups (leNat bs)))).fits || (s.barBase core h.bars).isNone then (s, stBUSY, 0)
          else (s.startReplay k core (argOf c 2) (argOf c 3) (argOf c 4) c.tag bs h, 0, 0))

/-! ### Host debug (R441) -/

/-- The group that a debug command names: context, team, group, and which of several, in order of their start. -/
def State.debugGroup (s : State) (c : Cmd) (p : Group → Bool) : Option (Nat × Group) :=
  (s.groups.filter (fun q => q.2.ctx == argOf c 0 && (s.teamOf q.2).num == argOf c 1 && q.2.num == argOf c 2 && p q.2))[argOf c 5]?

/-- A group whose frame the host may reach (R320). -/
def Group.halted (x : Group) : Bool := x.st == .parked || x.st == .saved || x.st == .frozen

/-- A group frozen by a double fault, on its core or saved (R273). -/
def Group.isFrozen (x : Group) : Bool := x.st == .frozen || (x.st == .saved && x.savedFrom == .frozen)

/-- What a debug command reaches: the frame, a barrier's record, or the window: low 2 bits of parameter 3. Its upper bits give the
byte offset in a frame or window, and for a barrier twice its physical number, plus 1 for the upper half of the record. -/
def dbgWhat (c : Cmd) : Nat × Nat := (argOf c 3 % 4, argOf c 3 / 4)

/-- The team's barrier of a physical number (R323). -/
def State.barOfPhys (s : State) (x : Group) (n : Nat) : Option Nat :=
  let t := s.teamOf x
  if t.barBase ≤ n ∧ n < t.barBase + (s.launchOf x).hdr.bars then some (n - t.barBase) else none

/-- Eight bytes of the window. -/
def windowBytes (x : Group) (off : Nat) : Nat := (readWords x.rf.win off 8).1

/-- A granule that no window holds reads as zero and takes no write, and the answer says so; the manual gives no code for GATED: it is a free
value (R74, log 90). -/
def State.gated (s : State) : State × Nat × Nat :=
  let (k, s) := s.fresh 16
  (s, k.toNat, 0)

/-- DBGRD: the eight bytes are the result. -/
def execDbgrd (c : Cmd) (s : State) : Host.Outcome State Fault Refusal :=
  .next (s.perform c true (fun s =>
    let (what, off) := dbgWhat c
    some (match s.debugGroup c (fun _ => true) with
      | none => (s, stBADPARAM, 0)
      | some (g, x) =>
        if !x.halted then (s, 4, 0)
        else if what = 0 then
          let b := s.frameOf g x
          if b.length < off + 8 then (s, stBADPARAM, 0) else (s, 0, fld b off 8)
        else if what = 1 then
          match s.barOfPhys x (off / 2) with
          | some n => (s, 0, fld (s.barRecord x.team n) (8 * (off % 2)) 8)
          | none => (s, stBADPARAM, 0)
        else if what = 2 ∧ off + 8 ≤ x.rf.wbytes then
          if x.st = .saved then s.gated
          else (s.wakeGranules g ([off / 4096, (off + 7) / 4096].eraseDups), 0, windowBytes x off)
        else (s, stBADPARAM, 0))))

/-- The mirror of what a debug command changed is written to the save area (log 17). -/
def State.mirror (s : State) (g : Nat) (x : Group) : State :=
  let cid := (s.teamOf x).cluster
  match s.cluster? cid with
  | some q => match q.saveAt, s.launch? q.launch with
    | some a, some l => s.writeCluster q l.hdr a
    | _, _ => s.writeFrame g
  | none => s.writeFrame g

/-- A frame as the host has rewritten it: one that fails the checks of R322 is kept as bytes; a frozen group whose handler mode is
cleared is resolved and resumes at the frame's frontier (R274). -/
def State.putFrame (s : State) (g : Nat) (x : Group) (b : List Byte) : State :=
  if frameRefused b x.fullFrame x.rf.wbytes then s.setGroup g { x with badFrame := some b }
  else
    let y := readFrame { x with badFrame := none } g (s.opsOf g x.core) b (if x.st = .saved then 0 else s.cycle)
    if x.isFrozen && !y.handler then
      if x.st = .saved then (s.setGroup g { y with savedFrom := .pending }).mirror g y
      else (s.setGroup g { y with st := .pending, held := false, frameAt := none, restFrom := s.cycle, engineWait := s.lacksEngines y }).requeueMatrix g y.core
    else (s.setGroup g y).mirror g y

/-- Replaces eight bytes. -/
def patch8 (b : List Byte) (off v : Nat) : List Byte := b.take off ++ leBytes 8 v ++ b.drop (off + 8)

/-- The state word of a barrier as the host writes it (R251). -/
def barOfWord (v : Nat) : Bar := { cnt := bitsOf v 14 0, exp := bitsOf v 29 15, ph := v.testBit 31, aux := BitVec.ofNat 32 (v >>> 32) }

/-- DBGWR: parameter 4 is the eight bytes. Barriers of a resident team and a window that its group holds are resident objects; the granules of a
saved group's window are gated (R74, R441). -/
def execDbgwr (c : Cmd) (s : State) : Host.Outcome State Fault Refusal :=
  runCmd c s (fun s =>
    let (what, off) := dbgWhat c
    match s.debugGroup c (fun _ => true) with
    | none => (s, stBADPARAM, 0)
    | some (g, x) =>
      if !x.halted then (s, 4, 0)
      else if what = 0 then
        let b := s.frameOf g x
        if b.length < off + 8 then (s, stBADPARAM, 0) else (s.putFrame g x (patch8 b off (argOf c 4)), 0, 0)
      else if what = 1 then
        match s.barOfPhys x (off / 2) with
        | none => (s, stBADPARAM, 0)
        | some n =>
          if (s.teamOf x).st ≠ .saved then (s, 4, 0)
          else if off % 2 = 1 then (s, stBADPARAM, 0)
          else ((s.setBar x.team n (barOfWord (argOf c 4))).mirror g x, 0, 0)
      else if what = 2 ∧ off + 8 ≤ x.rf.wbytes then (if x.st = .saved then s.gated else (s, 4, 0))
      else (s, stBADPARAM, 0))

/-- DBGRES: a group stopped at BRK goes on past it (R164). -/
def execDbgres (c : Cmd) (s : State) : Host.Outcome State Fault Refusal :=
  runCmd c s (fun s =>
    match s.debugGroup c (fun x => x.st == .stopped) with
    | none => (s, 4, 0)
    | some (g, x) =>
      let y := { x with st := .pending, held := false, restFrom := s.cycle }
      (s.setGroup g (match x.chosen with
        | some e => y.moveLanes e.mask (e.pc + 1) e.prio
        | none => y), 0, 0))

/-- DBGRES with FLG[0] = 1: a frozen group ends with the effects of ENDG; a saved one ends when it is restored (R167, R274). -/
def execDbgresEnd (c : Cmd) (s : State) : Host.Outcome State Fault Refusal :=
  runCmd c s (fun s =>
    match s.debugGroup c Group.isFrozen with
    | none => (s, 4, 0)
    | some (g, x) =>
      let s := (s.setGroup g { x with badFrame := none, frameAt := if x.st = .saved then x.frameAt else none }).endGroup g
      (if x.st = .saved then (s.modGroup g (fun y => { y with st := .saved, savedFrom := .draining })).mirror g x else s, 0, 0))

end Sys2Proof.Machine
end

