-- ==== Sys2Proof/Machine/Dispatch.lean ====
section
/-! DEFINITION. One arm per constructor: the meaning of every instruction and step. -/

namespace Sys2Proof.Machine

def exec (i : Instr) (s : State) : Host.Outcome State Fault Refusal :=
  match i with
  | .nop e => Sys2Proof.Machine.execNop e s
  | .bra e => Sys2Proof.Machine.execBra e s
  | .bri e => Sys2Proof.Machine.execBri e s
  | .call e => Sys2Proof.Machine.execCall e s
  | .calli e => Sys2Proof.Machine.execCalli e s
  | .ret e => Sys2Proof.Machine.execRet e s
  | .exit e => Sys2Proof.Machine.execExit e s
  | .yield e => Sys2Proof.Machine.execYield e s
  | .yieldMarkExpiry g => Sys2Proof.Machine.execYieldMarkExpiry g s
  | .sleep e => Sys2Proof.Machine.execSleep e s
  | .sleepExpiry g => Sys2Proof.Machine.execSleepExpiry g s
  | .trap e => Sys2Proof.Machine.execTrap e s
  | .rft e => Sys2Proof.Machine.execRft e s
  | .endg e => Sys2Proof.Machine.execEndg e s
  | .hbeat e => Sys2Proof.Machine.execHbeat e s
  | .beos e => Sys2Proof.Machine.execBeos e s
  | .brk e => Sys2Proof.Machine.execBrk e s
  | .srd e => Sys2Proof.Machine.execSrd e s
  | .swr e => Sys2Proof.Machine.execSwr e s
  | .tlbi e => Sys2Proof.Machine.execTlbi e s
  | .tlbiAck g => Sys2Proof.Machine.execTlbiAck g s
  | .rply e => Sys2Proof.Machine.execRply e s
  | .errd e => Sys2Proof.Machine.execErrd e s
  | .wdset e => Sys2Proof.Machine.execWdset e s
  | .timeI e => Sys2Proof.Machine.execTime e s
  | .pmcrd e => Sys2Proof.Machine.execPmcrd e s
  | .mov e => Sys2Proof.Machine.execMov e s
  | .sel e => Sys2Proof.Machine.execSel e s
  | .iadd e => Sys2Proof.Machine.execIadd e s
  | .iaddc e => Sys2Proof.Machine.execIaddc e s
  | .isub e => Sys2Proof.Machine.execIsub e s
  | .isubb e => Sys2Proof.Machine.execIsubb e s
  | .imul e => Sys2Proof.Machine.execImul e s
  | .imulh e => Sys2Proof.Machine.execImulh e s
  | .imad e => Sys2Proof.Machine.execImad e s
  | .imadh e => Sys2Proof.Machine.execImadh e s
  | .idiv e => Sys2Proof.Machine.execIdiv e s
  | .irem e => Sys2Proof.Machine.execIrem e s
  | .ineg e => Sys2Proof.Machine.execIneg e s
  | .iabs e => Sys2Proof.Machine.execIabs e s
  | .imin e => Sys2Proof.Machine.execImin e s
  | .imax e => Sys2Proof.Machine.execImax e s
  | .icmp e => Sys2Proof.Machine.execIcmp e s
  | .andB e => Sys2Proof.Machine.execAnd e s
  | .orB e => Sys2Proof.Machine.execOr e s
  | .xorB e => Sys2Proof.Machine.execXor e s
  | .andn e => Sys2Proof.Machine.execAndn e s
  | .notB e => Sys2Proof.Machine.execNot e s
  | .shl e => Sys2Proof.Machine.execShl e s
  | .shr e => Sys2Proof.Machine.execShr e s
  | .sar e => Sys2Proof.Machine.execSar e s
  | .rotl e => Sys2Proof.Machine.execRotl e s
  | .bfe e => Sys2Proof.Machine.execBfe e s
  | .bfi e => Sys2Proof.Machine.execBfi e s
  | .popc e => Sys2Proof.Machine.execPopc e s
  | .clz e => Sys2Proof.Machine.execClz e s
  | .ctz e => Sys2Proof.Machine.execCtz e s
  | .brev e => Sys2Proof.Machine.execBrev e s
  | .lea e => Sys2Proof.Machine.execLea e s
  | .plop e => Sys2Proof.Machine.execPlop e s
  | .pmov e => Sys2Proof.Machine.execPmov e s
  | .fadd e => Sys2Proof.Machine.execFadd e s
  | .fsub e => Sys2Proof.Machine.execFsub e s
  | .fmul e => Sys2Proof.Machine.execFmul e s
  | .ffma e => Sys2Proof.Machine.execFfma e s
  | .fmin e => Sys2Proof.Machine.execFmin e s
  | .fmax e => Sys2Proof.Machine.execFmax e s
  | .fcmp e => Sys2Proof.Machine.execFcmp e s
  | .fclass e => Sys2Proof.Machine.execFclass e s
  | .frnd e => Sys2Proof.Machine.execFrnd e s
  | .fdiv e => Sys2Proof.Machine.execFdiv e s
  | .fsqrt e => Sys2Proof.Machine.execFsqrt e s
  | .frcp e => Sys2Proof.Machine.execFrcp e s
  | .frsq e => Sys2Proof.Machine.execFrsq e s
  | .fexp2 e => Sys2Proof.Machine.execFexp2 e s
  | .flog2 e => Sys2Proof.Machine.execFlog2 e s
  | .fsin e => Sys2Proof.Machine.execFsin e s
  | .fcos e => Sys2Proof.Machine.execFcos e s
  | .fscale e => Sys2Proof.Machine.execFscale e s
  | .fdot2 e => Sys2Proof.Machine.execFdot2 e s
  | .aadd e => Sys2Proof.Machine.execAadd e s
  | .cvt e => Sys2Proof.Machine.execCvt e s
  | .pack e => Sys2Proof.Machine.execPack e s
  | .unpk e => Sys2Proof.Machine.execUnpk e s
  | .qblk e => Sys2Proof.Machine.execQblk e s
  | .dqblk e => Sys2Proof.Machine.execDqblk e s
  | .resid e => Sys2Proof.Machine.execResid e s
  | .shfi e => Sys2Proof.Machine.execShfi e s
  | .shfx e => Sys2Proof.Machine.execShfx e s
  | .shfn e => Sys2Proof.Machine.execShfn e s
  | .qswp e => Sys2Proof.Machine.execQswp e s
  | .qbc e => Sys2Proof.Machine.execQbc e s
  | .qred e => Sys2Proof.Machine.execQred e s
  | .vote e => Sys2Proof.Machine.execVote e s
  | .gred e => Sys2Proof.Machine.execGred e s
  | .gscan e => Sys2Proof.Machine.execGscan e s
  | .matchL e => Sys2Proof.Machine.execMatch e s
  | .cmpk e => Sys2Proof.Machine.execCmpk e s
  | .ld e => Sys2Proof.Machine.execLd e s
  | .st e => Sys2Proof.Machine.execSt e s
  | .ldpk e => Sys2Proof.Machine.execLdpk e s
  | .stpk e => Sys2Proof.Machine.execStpk e s
  | .pref e => Sys2Proof.Machine.execPref e s
  | .atom e => Sys2Proof.Machine.execAtom e s
  | .red e => Sys2Proof.Machine.execRed e s
  | .cas e => Sys2Proof.Machine.execCas e s
  | .xchg e => Sys2Proof.Machine.execXchg e s
  | .mwait e => Sys2Proof.Machine.execMwait e s
  | .mwaitWake g => Sys2Proof.Machine.execMwaitWake g s
  | .mwaitTimeout g => Sys2Proof.Machine.execMwaitTimeout g s
  | .vspill e => Sys2Proof.Machine.execVspill e s
  | .vfill e => Sys2Proof.Machine.execVfill e s
  | .ctpl e => Sys2Proof.Machine.execCtpl e s
  | .bseal e => Sys2Proof.Machine.execBseal e s
  | .bwait e => Sys2Proof.Machine.execBwait e s
  | .btest e => Sys2Proof.Machine.execBtest e s
  | .spbind e => Sys2Proof.Machine.execSpbind e s
  | .spseek e => Sys2Proof.Machine.execSpseek e s
  | .spdrn e => Sys2Proof.Machine.execSpdrn e s
  | .sprel e => Sys2Proof.Machine.execSprel e s
  | .bari e => Sys2Proof.Machine.execBari e s
  | .barr e => Sys2Proof.Machine.execBarr e s
  | .barw e => Sys2Proof.Machine.execBarw e s
  | .barrw e => Sys2Proof.Machine.execBarrw e s
  | .bart e => Sys2Proof.Machine.execBart e s
  | .fence e => Sys2Proof.Machine.execFence e s
  | .pbar e => Sys2Proof.Machine.execPbar e s
  | .psync e => Sys2Proof.Machine.execPsync e s
  | .stepadv e => Sys2Proof.Machine.execStepadv e s
  | .depdec e => Sys2Proof.Machine.execDepdec e s
  | .qpush e => Sys2Proof.Machine.execQpush e s
  | .lhinge e => Sys2Proof.Machine.execLhinge e s
  | .dhop e => Sys2Proof.Machine.execDhop e s
  | .mloop e => Sys2Proof.Machine.execMloop e s
  | .mstep e => Sys2Proof.Machine.execMstep e s
  | .mzero e => Sys2Proof.Machine.execMzero e s
  | .mcvt e => Sys2Proof.Machine.execMcvt e s
  | .macc e => Sys2Proof.Machine.execMacc e s
  | .msync e => Sys2Proof.Machine.execMsync e s
  | .obres e => Sys2Proof.Machine.execObres e s
  | .obrel e => Sys2Proof.Machine.execObrel e s
  | .obld e => Sys2Proof.Machine.execObld e s
  | .matrixOpStart core => Sys2Proof.Machine.execMatrixOpStart core s
  | .matrixStep core fault => Sys2Proof.Machine.execMatrixStep core fault s
  | .matrixOpComplete core fault => Sys2Proof.Machine.execMatrixOpComplete core fault s
  | .longLatencyComplete g => Sys2Proof.Machine.execLongLatencyComplete g s
  | .trapEntry g cause mask info => Sys2Proof.Machine.execTrapEntry g cause mask info s
  | .asyncCauseDelivery g => Sys2Proof.Machine.execAsyncCauseDelivery g s
  | .groupSwap core => Sys2Proof.Machine.execGroupSwap core s
  | .sketchSpawn g => Sys2Proof.Machine.execSketchSpawn g s
  | .sketchEnd g why => Sys2Proof.Machine.execSketchEnd g why s
  | .groupPark g => Sys2Proof.Machine.execGroupPark g s
  | .pageServiceDemandZero => Sys2Proof.Machine.execPageServiceDemandZero s
  | .granuleDrowsy g granule => Sys2Proof.Machine.execGranuleDrowsy g granule s
  | .drowsyWake g granule => Sys2Proof.Machine.execDrowsyWake g granule s
  | .streamReadAhead g port lane => Sys2Proof.Machine.execStreamReadAhead g port lane s
  | .copyDelivery core chan => Sys2Proof.Machine.execCopyDelivery core chan s
  | .copyComplete core chan => Sys2Proof.Machine.execCopyComplete core chan s
  | .writeBackAccept core chan => Sys2Proof.Machine.execWriteBackAccept core chan s
  | .writeBackDrain die => Sys2Proof.Machine.execWriteBackDrain die s
  | .queueHeadService q => Sys2Proof.Machine.execQueueHeadService q s
  | .launchStart => Sys2Proof.Machine.execLaunchStart s
  | .clusterPlace => Sys2Proof.Machine.execClusterPlace s
  | .clusterPreempt cluster => Sys2Proof.Machine.execClusterPreempt cluster s
  | .clusterRestore cluster => Sys2Proof.Machine.execClusterRestore cluster s
  | .groupEnd g => Sys2Proof.Machine.execGroupEnd g s
  | .contextSaved ctx => Sys2Proof.Machine.execContextSaved ctx s
  | .contextDrainComplete ctx => Sys2Proof.Machine.execContextDrainComplete ctx s
  | .watchdog g => Sys2Proof.Machine.execWatchdog g s
  | .deadWaitExpiry g => Sys2Proof.Machine.execDeadWaitExpiry g s
  | .watchdogSecond g => Sys2Proof.Machine.execWatchdogSecond g s
  | .coreRetired core => Sys2Proof.Machine.execCoreRetired core s
  | .etcherMark ctx => Sys2Proof.Machine.execEtcherMark ctx s
  | .etcherPageCopy ctx => Sys2Proof.Machine.execEtcherPageCopy ctx s
  | .boundaryCommit ctx => Sys2Proof.Machine.execBoundaryCommit ctx s
  | .boundaryComplete ctx => Sys2Proof.Machine.execBoundaryComplete ctx s
  | .beaconTimeout m => Sys2Proof.Machine.execBeaconTimeout m s
  | .recoveryDetect m => Sys2Proof.Machine.execRecoveryDetect m s
  | .recoveryFence => Sys2Proof.Machine.execRecoveryFence s
  | .recoveryQuiesce => Sys2Proof.Machine.execRecoveryQuiesce s
  | .recoveryAdmit spare => Sys2Proof.Machine.execRecoveryAdmit spare s
  | .recoveryRebuild => Sys2Proof.Machine.execRecoveryRebuild s
  | .recoveryMap => Sys2Proof.Machine.execRecoveryMap s
  | .recoveryResume => Sys2Proof.Machine.execRecoveryResume s
  | .scmRebuild stripe shards => Sys2Proof.Machine.execScmRebuild stripe shards s
  | .scrubStripe found => Sys2Proof.Machine.execScrubStripe found s
  | .refreshRetry stack => Sys2Proof.Machine.execRefreshRetry stack s
  | .srefEntry pc => Sys2Proof.Machine.execSrefEntry pc s
  | .srefEntryComplete pc => Sys2Proof.Machine.execSrefEntryComplete pc s
  | .srefExitComplete pc => Sys2Proof.Machine.execSrefExitComplete pc s
  | .transientRequestFail line die => Sys2Proof.Machine.execTransientRequestFail line die s
  | .persistentRequestRetire line => Sys2Proof.Machine.execPersistentRequestRetire line s
  | .linkTrainAttempt link failed ok => Sys2Proof.Machine.execLinkTrainAttempt link failed ok s
  | .laneFailure link bundle lane => Sys2Proof.Machine.execLaneFailure link bundle lane s
  | .bundleDrainComplete link => Sys2Proof.Machine.execBundleDrainComplete link s
  | .deadTimeExpiry link => Sys2Proof.Machine.execDeadTimeExpiry link s
  | .dwellExpiry link => Sys2Proof.Machine.execDwellExpiry link s
  | .memoryLinkSplit => Sys2Proof.Machine.execMemoryLinkSplit s
  | .withdrawalConfirm m => Sys2Proof.Machine.execWithdrawalConfirm m s
  | .forwardOnlyTimeout => Sys2Proof.Machine.execForwardOnlyTimeout s
  | .pathLostResend seq => Sys2Proof.Machine.execPathLostResend seq s
  | .powerFail => Sys2Proof.Machine.execPowerFail s
  | .holdupRecharged => Sys2Proof.Machine.execHoldupRecharged s
  | .throttleStep watts inlet tj => Sys2Proof.Machine.execThrottleStep watts inlet tj s
  | .thermalTrip inlet tj => Sys2Proof.Machine.execThermalTrip inlet tj s
  | .fwloadComplete => Sys2Proof.Machine.execFwloadComplete s
  | .bringupLtrainDone => Sys2Proof.Machine.execBringupLtrainDone s
  | .meminitDone listsAgree => Sys2Proof.Machine.execMeminitDone listsAgree s
  | .selftestDone r => Sys2Proof.Machine.execSelftestDone r s
  | .restoreDone => Sys2Proof.Machine.execRestoreDone s
  | .mwRead off n => Sys2Proof.Machine.execMwRead off n s
  | .mwWrite off bytes => Sys2Proof.Machine.execMwWrite off bytes s
  | .queueTailWrite q tail => Sys2Proof.Machine.execQueueTailWrite q tail s
  | .mctlReset v => Sys2Proof.Machine.execMctlReset v s
  | .fwload v => Sys2Proof.Machine.execFwload v s
  | .ictailWrite v => Sys2Proof.Machine.execIctailWrite v s
  | .ccheadWrite v => Sys2Proof.Machine.execCcheadWrite v s
  | .thstatClear v => Sys2Proof.Machine.execThstatClear v s
  | .etcfgWrite v => Sys2Proof.Machine.execEtcfgWrite v s
  | .routeWrite m v => Sys2Proof.Machine.execRouteWrite m v s
  | .cwRegisterWrite off v => Sys2Proof.Machine.execCwRegisterWrite off v s
  | .ctxnew c => Sys2Proof.Machine.execCtxnew c s
  | .ctxrun c => Sys2Proof.Machine.execCtxrun c s
  | .ctxstop c => Sys2Proof.Machine.execCtxstop c s
  | .ctxkill c => Sys2Proof.Machine.execCtxkill c s
  | .ctxsync c => Sys2Proof.Machine.execCtxsync c s
  | .resync c => Sys2Proof.Machine.execResync c s
  | .qcreate c => Sys2Proof.Machine.execQcreate c s
  | .qresumeSkip c => Sys2Proof.Machine.execQresumeSkip c s
  | .qresumeRetry c => Sys2Proof.Machine.execQresumeRetry c s
  | .qdestroy c => Sys2Proof.Machine.execQdestroy c s
  | .depset c => Sys2Proof.Machine.execDepset c s
  | .depfree c => Sys2Proof.Machine.execDepfree c s
  | .hostDepdec c => Sys2Proof.Machine.execHostDepdec c s
  | .cohset c => Sys2Proof.Machine.execCohset c s
  | .pgfree c => Sys2Proof.Machine.execPgfree c s
  | .pgmig c => Sys2Proof.Machine.execPgmig c s
  | .hostRply c => Sys2Proof.Machine.execHostRply c s
  | .hostTlbi c => Sys2Proof.Machine.execHostTlbi c s
  | .ltrain c => Sys2Proof.Machine.execLtrain c s
  | .rstep c => Sys2Proof.Machine.execRstep c s
  | .sgjoin c => Sys2Proof.Machine.execSgjoin c s
  | .scrub c => Sys2Proof.Machine.execScrub c s
  | .errpop c => Sys2Proof.Machine.execErrpop c s
  | .coreret c => Sys2Proof.Machine.execCoreret c s
  | .capset c => Sys2Proof.Machine.execCapset c s
  | .replay c => Sys2Proof.Machine.execReplay c s
  | .dbgrd c => Sys2Proof.Machine.execDbgrd c s
  | .dbgwr c => Sys2Proof.Machine.execDbgwr c s
  | .dbgres c => Sys2Proof.Machine.execDbgres c s
  | .dbgresEnd c => Sys2Proof.Machine.execDbgresEnd c s
  | .mreset c => Sys2Proof.Machine.execMreset c s
  | .illegalOpcode why => Sys2Proof.Machine.execIllegalOpcode why s
  | .fetchBounds => Sys2Proof.Machine.execFetchBounds s
  | .powerReturn => Sys2Proof.Machine.execPowerReturn s
  | .mergeWindowGrant => Sys2Proof.Machine.execMergeWindowGrant s
  | .l2Eviction die line => Sys2Proof.Machine.execL2Eviction die line s
  | .directoryEviction line => Sys2Proof.Machine.execDirectoryEviction line s
  | .flitCrcFail link bundle lane => Sys2Proof.Machine.execFlitCrcFail link bundle lane s
  | .keptResponseExpiry => Sys2Proof.Machine.execKeptResponseExpiry s
  | .templateVisible g => Sys2Proof.Machine.execTemplateVisible g s
  | .beacon m => Sys2Proof.Machine.execBeacon m s

end Sys2Proof.Machine
end

