-- ==== Sys2Proof/Machine/Upset.lean ====
section
/-! DEFINITION. Errors of the storage structures (R360, R382, R419, R426, R428): what an error of the physical world marks, records and
counts when the structure finds it. When one strikes, and what a check corrects, the physical world says: it stands on the agenda
(log 1, log 19). -/

namespace Sys2Proof.Machine

/-- The record of a storage unit of a compute die: its core, or 0 for a unit of the die; the syndrome is a free value (R423). -/
def State.storageRec (s : State) (cause : Cause) (unit die gcore addr : Nat) : State :=
  let (y, s) := s.fresh 32
  s.writeErr { cause := cause, sev := severity cause, scope := 2, unit := unit, die := die, gcore := gcore, addr := addr, synd := y.toNat }

/-- The times of a list within the last hour. -/
def State.lastHour (s : State) (ts : List Nat) : List Nat := ts.filter (fun t => decide (s.timebase.toNat < t + 3600 * Config.second))

/-- A corrected word of a core: more than 1,000 within an hour give an ADVISORY record with their count, and the count starts again
(R426). -/
def State.correctedOn (s : State) (core : Nat) : State :=
  let ts := s.lastHour (s.core core).sramFixed ++ [s.timebase.toNat]
  if 1000 < ts.length then
    (s.modCore core (fun c => { c with sramFixed := [] })).writeErr
      { cause := cSRAM_CORRECTED, sev := sevADVISORY, scope := 2, unit := 1, die := dieOf core, gcore := s.gcore core, synd := ts.length }
  else s.modCore core (fun c => { c with sramFixed := ts })

/-- An error in an SRAM of a core: corrected on read, or marked by `mark`; `counts` says that triage counts it: register file and
scratchpad (R419, R426). -/
def State.coreError (s : State) (core unit addr : Nat) (counts corrected : Bool) (mark : State → State) : State :=
  if corrected then (s.storageRec cSRAM_CORRECTED unit (dieOf core) (s.gcore core) addr).correctedOn core
  else
    let s := (mark s).storageRec cSRAM_UNCORR unit (dieOf core) (s.gcore core) addr
    if counts then s.modCore core (fun c => { c with sramFails := c.sramFails ++ [s.timebase.toNat] }) else s

/-- A word with its poison flag set. -/
def WP.marked (w : WP) : WP := { w with p := true }
/-- A register value with the poison flag of a half set. -/
def PW.marked (x : PW) (half : Nat) : PW := { x with p := x.p ||| ((1#2) <<< (half % 2)) }
/-- A table of words with one word marked. -/
def markWord (t : Cells WP) (w : Nat) : Cells WP := cput {} t w (cget {} t w).marked
/-- A table of register values with one half marked. -/
def markHalf (t : Cells PW) (k half : Nat) : Cells PW := cput {} t k ((cget {} t k).marked half)

/-- A sector of memory with its poison set. -/
def State.markSector (s : State) (x : Nat) : State :=
  if s.sectorPoison.contains x then s else { s with sectorPoison := s.sectorPoison ++ [x] }

/-- A sector that a cache holds is marked: in the copy that the cache has of a line that is not hardware coherent, else where its data is
held (R17, R348). -/
def State.markCached (s : State) (x : Nat) (l1 : Option Nat) (die : Nat) : State :=
  let mark (c : CLine) : CLine := { c with pois := c.pois ||| 2 ^ (x % 4) }
  let ln := s.line (x / 4)
  match l1 with
  | some c =>
    if ln.inL1 c 1 then
      s.modLine (x / 4) (fun q => { q with l1c := q.l1c.map (fun p => if p.1 = c then (p.1, mark p.2) else p) })
    else s.markSector x
  | none =>
    if ln.inL2 die 1 then
      s.modLine (x / 4) (fun q => { q with l2c := q.l2c.map (fun p => if p.1 = die then (p.1, mark p.2) else p) })
    else s.markSector x

/-- A group's values lie in the register file of its core: it is neither saved nor ended. -/
def Group.inFile (x : Group) : Bool := x.st != .saved && x.st != .ended

/-- Parity in a group's frontier, return stacks or lane records freezes it as a double fault does, with handler mode set for the host
to clear: its matrix operations stop and its frame is saved (R273, R274, R419); the context goes on, as CONTAINED says (R424, log 19). -/
def State.freezeGroup (s : State) (g : Nat) (x : Group) : State :=
  let s := s.finishRunning g x.core
  match s.group? g with
  | none => s
  | some y => (s.freeze g { y with handler := true }).writeErr (s.groupRec y cSRAM_UNCORR 0 0)

/-- What an error changes in a group's registers. -/
def State.markRegs (s : State) (g : Nat) (f : RegFile → RegFile) : State := s.modGroup g (fun x => { x with rf := f x.rf })

/-- An error of a storage structure is found (R419, R428). One that strikes nothing that is held changes nothing. -/
def State.upset (s : State) (site : Site) (corrected : Bool) : State :=
  let ofGroup (g : Nat) (f : Group → State) : State := match s.group? g with
    | some x => if x.inFile then f x else s
    | none => s
  let ofTeam (t : Nat) (f : Team → State) : State := match s.team? t with
    | some q => if q.st = .running then f q else s
    | none => s
  match site with
  | .window g w => ofGroup g (fun x =>
      if w < x.rf.wbytes / 4 then
        s.coreError x.core 1 0 true corrected (fun s => s.markRegs g (fun r => { r with win := markWord r.win w }))
      else s)
  | .scratchpad t w => ofTeam t (fun q =>
      if 4 * w < ((s.launch? q.launch).map (fun l => l.hdr.scratch * 1024)).getD 0 then
        s.coreError q.core 2 0 true corrected (fun s => s.modTeam t (fun q => { q with scr := markWord q.scr w }))
      else s)
  | .operandBuffer t w => ofTeam t (fun q =>
      if 4 * w < ((s.launch? q.launch).map (fun l => l.hdr.obuf * 1024)).getD 0 then
        s.coreError q.core 5 0 false corrected (fun s => s.modTeam t (fun q => { q with ob := markWord q.ob w }))
      else s)
  | .operandFile g k h => ofGroup g (fun x =>
      if k < 256 then s.coreError x.core 1 0 false false (fun s => s.markRegs g (fun r => { r with ofile := markHalf r.ofile k h })) else s)
  | .lastResult g k l h => ofGroup g (fun x =>
      if k < 4 ∧ l < 32 then
        s.coreError x.core 1 0 false false (fun s => s.markRegs g (fun r => { r with lf := r.lf.setEntry k (markHalf (r.lf.entry k) l h) }))
      else s)
  | .scalar g k h => ofGroup g (fun x =>
      if k < 64 then s.coreError x.core 1 0 false false (fun s => s.markRegs g (fun r => { r with scal := markHalf r.scal k h })) else s)
  | .l1 c x =>
      let ln := s.line (x / 4)
      if ln.inL1 c 0 || ln.inL1 c 1 then s.coreError c 3 (32 * x) false corrected (fun s => s.markCached x (some c) (dieOf c)) else s
  | .l2 d x =>
      let ln := s.line (x / 4)
      if ln.inL2 d 0 || ln.inL2 d 1 then
        if corrected then s.storageRec cSRAM_CORRECTED 4 d 0 (32 * x)
        else (s.markCached x none d).storageRec cSRAM_UNCORR 4 d 0 (32 * x)
      else s
  | .writeBack d i => match (cget [] s.wbqs d)[i]? with
    | none => s
    | some e =>
      if corrected then s.storageRec cSRAM_CORRECTED 12 (8 + d) 0 e.pa
      else ({ s with wbqs := cput [] s.wbqs d ((cget [] s.wbqs d).set i { e with pois := true }) } : State).storageRec
        cSRAM_UNCORR 12 (8 + d) 0 e.pa
  | .tier b =>
      let pa := 512 * b
      if pa >>> 43 = s.modnum.toNat ∧ 2 ^ 42 ≤ pa % 2 ^ 43 ∧ populated pa 512 = true then
        ((List.range 16).foldl (fun (s : State) i => s.markSector (16 * b + i)) s).storageRec cSCM_UNCORR 11 (8 + bitsOf pa 15 14) 0 pa
      else s
  | .hbm x => s.sectorFound x corrected
  | .hbmParity d u k => s.parityFound d u k
  | .control g => match s.group? g with
    | some x => if x.slot.isSome ∧ x.st ≠ .frozen ∧ x.st ≠ .ended ∧ s.host.protcfg.getLsbD 9 = true then s.freezeGroup g x else s
    | none => s
  | .barriers t => ofTeam t (fun q =>
      if s.host.protcfg.getLsbD 9 then (s.breakTeam t).storageRec cSRAM_UNCORR 0 (dieOf q.core) (s.gcore q.core) 0 else s)
  | .tlb i => if s.host.protcfg.getLsbD 8 ∧ i < s.tlbs.length then ({ s with tlbs := s.tlbs.eraseIdx i } : State).countErr cTLB_PARITY else s
  | .walkCache i =>
      if s.host.protcfg.getLsbD 8 ∧ i < s.wcache.length then ({ s with wcache := s.wcache.eraseIdx i } : State).countErr cTLB_PARITY else s
  | .icache c i =>
      -- fetched again; counted only (R419, log 77)
      if i < (s.core c).icache.length then (s.modCore c (fun q => { q with icache := q.icache.eraseIdx i })).countErr cSRAM_CORRECTED else s
  | .hub u =>
      if u = 9 ∨ u = 14 ∨ u = 15 then
        s.writeErr { cause := cMODULE_FATAL, sev := sevFATAL, scope := 3, unit := u, die := 12 }
      else s
  -- a fault that the unit itself does not notice: a later check finds it, or none does (R57, R360)
  | .pipe l m k => if corrected then s else { s with phys := { s.phys with pipe := cput (0, 0) s.phys.pipe (l % 32) (m, k) } }
  | .critRead a => if corrected then s else { s with phys := { s.phys with critBad := some a } }

end Sys2Proof.Machine
end

