-- ==== Sys2Proof/Machine/Run.lean ====
section
/-! DEFINITION. What one step of the machine does (log 1): a group issues, a sketch issues, the command processor takes an entry of its
ring (R441), an event happens, cycles pass. -/

namespace Sys2Proof.Machine

/-! ### Issue (R79, R80, R89, R316) -/

/-- The chosen entry of a group, as the instruction in hand of its lanes. -/
def fetchIss (g : Nat) (x : Group) (e : Ent) : Iss :=
  let m := e.mask &&& ~~~x.empties
  { g := g, x := x, ent := e, m := m, act := m }

/-- A group that can issue fetches the word at its chosen entry and runs it. -/
def State.fetchAndRun (s : State) (g : Nat) (x : Group) (e : Ent) : Host.Outcome State Fault Refusal :=
  if s.codeEnd x ≤ e.pc.toNat then exec .fetchBounds s
  else match s.fetchPlace x e with
    | .error (.park _) => exec (.groupPark g) s
    | .error st => .next (s.unlessBusy g x (s.unlessPushing g x (s.stopped (fetchIss g x e) st)))
    | .ok segs => match decodeBytes (s.fetchBytes x e.pc.toNat segs) with
      | .ok i _ => exec i (s.fetched x e.pc.toNat segs)
      | .rejected why => exec (.illegalOpcode why) (s.fetched x e.pc.toNat segs)
      | .tooShort => .next s

/-! ### Issue ports (R105, R308) -/

/-- The issue ports that may take an instruction, in the order in which they are tried: 0 FMA0, 1 FMA1, 2 INT, 3 SFU, 4 MEM, 5 CTL (R105,
R308); every scalar form of a conversion takes FMA0 or FMA1 (log 9). -/
def portsFor (i : Instr) : List Nat :=
  match i.parts with
  | none => []
  | some (op, e) =>
    if op < 0x040 ∨ 0x280 ≤ op then [portCTL]
    else if 0x1C0 ≤ op then [4]
    else if 0x180 ≤ op then [3]
    else if op < 0x0C0 ∨ op = 0x145 then (if (op = 0x04A ∨ op = 0x04B) ∧ !isScalOp e.d then [3] else [2])
    else if ((0x0C9 ≤ op ∧ op ≤ 0x0D0) ∨ op = 0x143) ∧ !isScalOp e.d then [3]
    else [0, 1]

/-- The port of a core that takes an instruction in this cycle: the first of its ports on which nothing has issued. -/
def State.portFree (s : State) (core : Nat) (i : Instr) : Option Nat :=
  (portsFor i).find? (fun p => !s.issued.any (fun q => q.1 == core && q.2.1 == p))

/-- A sketch in the list of what has issued: its group's identifier above 2^32. -/
def sketchId (g : Nat) : Nat := 2 ^ 32 + g

/-- Something has issued in this cycle already (R308). -/
def State.hasIssued (s : State) (who : Nat) : Bool := s.issued.any (fun q => q.2.2 == who && decide (q.2.1 < portCopy))

/-- The cycle under way can take a group's next instruction: the group may issue yet (R307), has not issued in it, and a port is free (R308).
What is no instruction needs no port. -/
def State.cycleTakes (s : State) (g : Nat) (x : Group) : Bool :=
  decide (x.issueFrom ≤ s.cycle) && !s.hasIssued g && (match s.nextInstr x with
    | some i => (s.portFree x.core i).isSome
    | none => true)

/-- The cycle in which a group issues: this one, or the first that can take its instruction. -/
def State.issueCycle (s : State) (g : Nat) (x : Group) : State :=
  if s.cycleTakes g x then s else s.passCycles (max 1 (x.issueFrom - s.cycle))

/-- An instruction has issued on a port, unless it is held (R306, R308). -/
def State.noteIssue (s : State) (g core : Nat) (num : Nat) (p : Option Nat) : State :=
  match p with
  | none => s
  | some p =>
    if (s.group? g).any (fun (x : Group) => x.held) then s
    else { s with issued := s.issued ++ [(core, p, g)] }.modCore core (fun c => { c with lastIssued := cput 15 c.lastIssued p num })

/-- What follows a step that has a next state. -/
def thenNote (o : Host.Outcome State Fault Refusal) (f : State → State) : Host.Outcome State Fault Refusal :=
  match o with
  | .next t => .next (f t)
  | .fault e => .fault e
  | .refused r => .refused r

/-- The port on which a group's next instruction issues. -/
def State.issuePort (s : State) (x : Group) : Option Nat := (s.nextInstr x).bind (s.portFree x.core)

/-- A group issues in the cycle under way: an asynchronous cause comes first (R316); a group that cannot issue leaves the state as it is. -/
def State.issueHere (s : State) (g : Nat) (x : Group) : Host.Outcome State Fault Refusal :=
  if x.asyncNow.isSome then exec (.asyncCauseDelivery g) s
  else match x.chosen with
    | none => .next s
    | some e =>
      if x.issuable && s.mayRun x then thenNote (State.fetchAndRun { s with cur := g } g x e) (fun t => t.noteIssue g x.core x.num (s.issuePort x))
      else .next s

/-- The group issues, in the first cycle that can take its instruction (R307, R308). -/
def State.issueNow (s : State) (g : Nat) : Host.Outcome State Fault Refusal :=
  match s.group? g with
  | none => .next s
  | some x =>
    let t := s.issueCycle g x
    match t.group? g with
    | none => .next t
    | some y => t.issueHere g y

/-- The sketch of a group issues one instruction, or ends because it may not (R312 to R314); it takes a port on which no active group has
issued (R308). -/
def State.sketchHere (s : State) (g : Nat) (x : Group) : Host.Outcome State Fault Refusal :=
  match x.sketch with
  | none => .next s
  | some k =>
    match s.sketchNext g x k with
    | none => exec (.sketchEnd g .forbidden) s
    | some (t, i) =>
      thenNote (exec i t) (fun t' =>
        let u := s.sketchBack t' g x k
        match s.portFree x.core i with
        | some p => { u with issued := u.issued ++ [(x.core, p, sketchId g)] }
        | none => u)

/-- The cycle under way can take a sketch's next instruction. -/
def State.cycleSketches (s : State) (g : Nat) (x : Group) : Bool :=
  !s.hasIssued (sketchId g) && (match x.sketch.bind (s.sketchNext g x) with
    | some (_, i) => (s.portFree x.core i).isSome
    | none => true)

/-- A sketch issues, in the first cycle that leaves it a port (R308). -/
def State.sketchStep (s : State) (g : Nat) : Host.Outcome State Fault Refusal :=
  match s.group? g with
  | none => .next s
  | some x =>
    let t := if s.cycleSketches g x then s else s.passCycles 1
    match t.group? g with
    | none => .next t
    | some y => t.sketchHere g y

/-! ### The command ring (R441) -/

/-- The command of an entry's bytes; none for an unknown code. -/
def cmdOf (bs : List Byte) : Option Instr :=
  let c : Cmd := { flg := (bs[1]?).getD 0, tag := BitVec.ofNat 16 (leNat ((bs.drop 2).take 2)),
                   p := (List.range 7).map (fun i => BitVec.ofNat 64 (leNat ((bs.drop (8 + 8 * i)).take 8))) }
  let code := ((bs[0]?).getD 0).toNat
  if code = 0x01 then some (.ctxnew c) else if code = 0x02 then some (.ctxrun c) else if code = 0x03 then some (.ctxstop c)
  else if code = 0x04 then some (.ctxkill c) else if code = 0x05 then some (.ctxsync c) else if code = 0x06 then some (.resync c)
  else if code = 0x10 then some (.qcreate c)
  else if code = 0x11 then some (if c.flg.getLsbD 0 then .qresumeSkip c else .qresumeRetry c)
  else if code = 0x12 then some (.qdestroy c) else if code = 0x18 then some (.depset c) else if code = 0x19 then some (.depfree c)
  else if code = 0x1A then some (.hostDepdec c) else if code = 0x20 then some (.cohset c) else if code = 0x21 then some (.pgfree c)
  else if code = 0x22 then some (.pgmig c) else if code = 0x23 then some (.hostRply c) else if code = 0x24 then some (.hostTlbi c)
  else if code = 0x28 then some (.ltrain c) else if code = 0x29 then some (.rstep c) else if code = 0x2A then some (.sgjoin c)
  else if code = 0x2B then some (.scrub c) else if code = 0x30 then some (.errpop c) else if code = 0x31 then some (.coreret c)
  else if code = 0x32 then some (.capset c) else if code = 0x33 then some (.replay c) else if code = 0x38 then some (.dbgrd c)
  else if code = 0x39 then some (.dbgwr c)
  else if code = 0x3A then some (if c.flg.getLsbD 0 then .dbgresEnd c else .dbgres c)
  else if code = 0x3F then some (.mreset c)
  else none

/-- An entry that the command processor completes without a command: bytes 4 to 7 are not zero (R6), or the code is unknown. -/
def State.badEntry (s : State) (bs : List Byte) : State :=
  let c : Cmd := { flg := 0, tag := BitVec.ofNat 16 (leNat ((bs.drop 2).take 2)), p := [] }
  s.perform c false (fun s => some (s, if leNat ((bs.drop 4).take 4) ≠ 0 then stBADPARAM else 0x80, 0))

/-- A completion has been written since. -/
def State.completedSince (t s : State) : Bool := t.host.cctail != s.host.cctail || t.evbuf.length != s.evbuf.length

/-- ICHEAD moves past an entry. -/
def State.advanceHead (s : State) : State := { s with host := { s.host with ichead := s.host.ichead + 1 } }

/-- The command processor takes the entry at ICHEAD. A command that must wait leaves everything as it is; a module reset leaves no ring
behind (R442). -/
def State.commandStep (s : State) : Host.Outcome State Fault Refusal :=
  if s.host.ichead = s.host.ictail ∨ s.ringSize ≤ s.ringUsed then .next s
  else
    let bs := cgets 0 s.hostMem (s.host.icbase.toNat / 4096 * 4096 + 64 * (s.host.ichead.toNat % s.ringSize)) 64
    match (if leNat ((bs.drop 4).take 4) = 0 then cmdOf bs else none) with
    | none => .next (s.badEntry bs).advanceHead
    | some (.mreset c) =>
      match exec (.mreset c) s with
      | .next t => .next (if t.fwd.isSome then t.advanceHead else t)
      | o => o
    | some i =>
      match exec i s with
      | .next t => .next (if t.completedSince s then t.advanceHead else s)
      | o => o

/-! ### The agenda (log 1) -/

/-- A command of the ring (R441): it comes only through the ring. -/
def isCommand : Instr → Bool
  | .ctxnew _ | .ctxrun _ | .ctxstop _ | .ctxkill _ | .ctxsync _ | .resync _ | .qcreate _ | .qresumeSkip _ | .qresumeRetry _
  | .qdestroy _ | .depset _ | .depfree _ | .hostDepdec _ | .cohset _ | .pgfree _ | .pgmig _ | .hostRply _ | .hostTlbi _
  | .ltrain _ | .rstep _ | .sgjoin _ | .scrub _ | .errpop _ | .coreret _ | .capset _ | .replay _ | .dbgrd _ | .dbgwr _
  | .dbgres _ | .dbgresEnd _ | .mreset _ => true
  | _ => false

/-- An event of the agenda: a step that is neither an instruction word nor a command. -/
def State.eventStep (s : State) (i : Instr) : Host.Outcome State Fault Refusal :=
  if i.parts.isSome || isCommand i then .next s else exec i s

/-- The head of the agenda happens. -/
def State.agendaStep (s : State) : Agenda → Host.Outcome State Fault Refusal
  | .issue g => s.issueNow g
  | .sketch g => s.sketchStep g
  | .event i => s.eventStep i
  | .tick n => .next (s.passCycles n).settleLaunches
  | .command => s.commandStep
  | .upset site corrected => .next (s.upset site corrected)
  | .snoop die line => .next (s.snoopEvict die line)
  | .returned dst seq => .next (s.pathReturned dst seq)

/-- A group that would issue now (R306). -/
def State.readyNow (s : State) (g : Nat) (x : Group) : Bool :=
  x.asyncNow.isSome || (x.chosen.isSome && x.issuable && s.mayRun x && !x.held && !s.scoreboardHolds g x)

/-- The place of a group among equals that need its port: they follow, in ascending number with wrap-around, the one that the port served last
(R308). -/
def State.portTurn (s : State) (x : Group) : Nat :=
  (x.num + 16 - (cget 15 (s.core x.core).lastIssued ((s.issuePort x).getD 0) + 1) % 16) % 16

/-- Whether one ready group issues before another on a port: the older one, and among equals by their turns (R308). -/
def State.issuesBefore (s : State) (a b : Group) : Bool :=
  decide (a.seniority < b.seniority) || (a.seniority == b.seniority && decide (s.portTurn a < s.portTurn b))

/-- The ready group that issues next in the cycle under way (R308). -/
def State.nextToIssue (s : State) : Option Nat :=
  (s.groups.foldl (fun (b : Option (Nat × Group)) p =>
    if s.readyNow p.1 p.2 && s.cycleTakes p.1 p.2 then
      match b with
      | none => some p
      | some q => if s.issuesBefore p.2 q.2 then some p else b
    else b) none).map (fun p => p.1)

/-- The group whose sketch issues next: the oldest that has a free port (R308). -/
def State.nextToSketch (s : State) : Option Nat :=
  (s.groups.foldl (fun (b : Option (Nat × Group)) p =>
    if p.2.sketch.isSome && s.cycleSketches p.1 p.2 then
      match b with
      | none => some p
      | some q => if p.2.seniority < q.2.seniority then some p else b
    else b) none).map (fun p => p.1)

/-- A core on which a ready pending group can enter the active set (R307). -/
def State.coreToSwap (s : State) : Option Nat :=
  (s.groups.find? (fun p => (s.nextReady p.2.core).isSome
    && (decide ((s.activeOn p.2.core).length < Config.activePlaces) || (s.youngestWait p.2.core).isSome))).map (fun p => p.2.core)

/-- With an empty agenda the cores issue what the cycle can take, port by port, then their sketches; a pending group takes a place that it may
take; a result that is awaited returns where nothing else happens; then a cycle passes (R307, R308, log 1). -/
def State.idleStep (s : State) : Host.Outcome State Fault Refusal :=
  match s.nextToIssue with
  | some g => s.issueNow g
  | none =>
    match s.nextToSketch with
    | some g => s.sketchStep g
    | none =>
      match s.coreToSwap with
      | some c => exec (.groupSwap c) s
      | none =>
        if s.issued.isEmpty then
          match s.groups.find? (fun p => !p.2.pend.isEmpty) with
          | some p => exec (.longLatencyComplete p.1) s
          | none => .next (s.passCycles 1).settleLaunches
        else .next (s.passCycles 1).settleLaunches

/-! ### A word where the next instruction is fetched (log 2) -/

/-- The pieces at which the group that the agenda issues next fetches. -/
def State.fetchTarget (s : State) : Option (List Seg) :=
  match s.agenda with
  | .issue g :: _ =>
    match s.group? g with
    | none => none
    | some x =>
      match x.chosen with
      | none => none
      | some e =>
        if x.issuable && s.mayRun x && x.asyncNow.isNone && decide (e.pc.toNat < s.codeEnd x) && decide (x.issueFrom ≤ s.cycle) && s.issued.isEmpty then
          match s.fetchPlace x e with
          | .ok segs => some segs
          | .error _ => none
        else none
  | _ => none

/-- Stores bytes over the pieces of a fetch; no instruction cache holds older ones. -/
def State.putFetch (s : State) (bs : List Byte) (segs : List Seg) : State :=
  (segs.foldl (fun (acc : State × Nat) q =>
    ({ acc.1 with mem := cputs 0 acc.1.mem q.pa ((bs.drop acc.2).take q.n) }, acc.2 + q.n)) ({ s with cores := s.cores.map (fun p => (p.1, { p.2 with icache := [] })) }, 0)).1

/-- Where the probe's level-3 table, its level-2 table and its 512 MiB of memory lie. -/
def probeT3 : Nat := 0x1000000
/-- The level-2 table. -/
def probeT2 : Nat := 0x1010000
/-- The memory behind virtual addresses 0 to 512 MiB. -/
def probeMem : Nat := 0x20000000

/-- The probe's header: 4,096 instructions, a window of 8 KiB, scratchpad, barriers and operand buffer. -/
def probeHdr : Hdr :=
  { codeBase := 0x10000, codeLen := 4096, wbytes := 8192, scratch := 16, bars := 4, obuf := 8 }

/-- The probe's context: one address space with one readable, writable and executable leaf. -/
def probeCtx : Ctx :=
  { st := .active,
    desc := { asid := 1, ptroot := probeT3, vdtb := 0x2000000, scrb := 0x40000000000, club := 0x40100000000, prvb := 0x40200000000,
              capb := 0x50000000000, tvec := 0x800000, tplb := 0x3000000, errqb := 0x4000000, saveb := 0x5000000, savesz := 16 } }

/-- The probe's group: 32 live lanes at PC 0. -/
def probeGroup : Group :=
  { ctx := 0, launch := 1, team := 1, num := 0, core := 0, slot := some 0, st := .active,
    lanes := (List.range 32).map (fun l => (l, { st := .live, item := BitVec.ofNat 32 l, age := 1 })),
    frontier := [{ pc := 0, prio := 0x800, mask := ~~~0 }],
    rf := { wbytes := 8192, vw := startViews probeHdr }, sr := { tvec := 0x800000 } }

/-- The machine with one resident group that issues next, its tables in memory: what a launch stands for (log 2). -/
def State.probe (s : State) : State :=
  { s with
    agenda := [.issue 1],
    issued := [],
    cur := 1,
    nextId := 2,
    host := { s.host with mstat := 6 },
    mem := cputs 0 (cputs 0 s.mem probeT3 (leBytes 8 (probeT2 + 1))) probeT2 (leBytes 8 (probeMem + 0x1F)),
    ctxs := cput {} s.ctxs 0 probeCtx,
    launches := tput s.launches 1 { ctx := 0, queue := some 0, hdr := probeHdr, st := .running, lrec := leBytes 256 (2 ^ 25 + 1) },
    clusters := tput s.clusters 1 { launch := 1, num := 0, vdie := 0, teams := [1], st := .resident },
    teams := tput s.teams 1 { launch := 1, cluster := 1, num := 0, st := .running, count := 32, next := 32 },
    groups := tput s.groups 1 probeGroup }

/-- The state with a word stored where the next step fetches: at the fetch address of the group that the agenda issues next; a machine
that has no such group gets the probe's. -/
def State.withWord (s : State) (bs : List Byte) : State :=
  match s.fetchTarget with
  | some segs => s.putFetch bs segs
  | none => s.probe.putFetch bs [{ va := 0x10000, n := 12, pa := probeMem + 0x10000, pte := 0, level := 2, addr := noEntry }]

end Sys2Proof.Machine
end

