-- ==== Sys2Proof/Machine/Step.lean ====
section
/-! DEFINITION. One step of the module. -/

namespace Sys2Proof.Machine

/-- One step: the head of the agenda happens; with an empty agenda the oldest ready group issues (log 1). -/
def step (s : State) : Host.Outcome State Fault Refusal :=
  match s.agenda with
  | [] => s.idleStep
  | a :: rest => State.agendaStep { s with agenda := rest } a

/-- The state with an instruction stored where step fetches the next one (log 2). -/
def State.withFetchWord (s : State) (_nbits w : Nat) : State := s.withWord (bytesOfWord (BitVec.ofNat 96 w))

end Sys2Proof.Machine
end

