-- ==== Sys2Proof/Safety.lean ====
section
/-! DEFINITION. What counts as a safe step and a safe run, and the terms in which claims speak of an instruction at issue: when it may
issue, when no check stops it, and the state in which its own effect begins. -/

namespace Sys2Proof.Machine

/-! ### Runs -/

/-- Exactly one next state follows. -/
def StepsTo (s t : State) : Prop := step s = .next t

/-- The step from a state ends in a next state. -/
def SafeStep (s : State) : Prop := ∃ t, StepsTo s t

/-- The states that some number of steps reaches. -/
inductive Reaches : State → State → Prop where
  | refl (s : State) : Reaches s s
  | tail {s t u : State} : Reaches s t → StepsTo t u → Reaches s u

/-- No run from a state ends in a fault or a refusal. -/
def Safe (s : State) : Prop := ∀ t, Reaches s t → SafeStep t

/-- Device memory is in its canonical form: addresses strictly rising, no byte listed that reads as an unlisted one. -/
abbrev Memory.wf (m : List Host.Cell) : Prop := cwf (0 : Byte) m = true

/-! ### Scopes (R332, R333) -/

/-- A group's scope instance holds another group, and with it the copy channels that serve its copies and the engines of its ports (R332). -/
def State.inInstance (s : State) (x : Group) (scope : Nat) (y : Group) : Bool :=
  if scope = 0 then x.team == y.team && x.num == y.num
  else if scope = scTeam then x.team == y.team
  else if scope = 2 then (s.teamOf x).cluster == (s.teamOf y).cluster
  else if scope = 3 then dieOf x.core == dieOf y.core
  else true

/-- A release of one group and an acquire of another match: each group lies in the other's instance (R333). -/
def State.scopesMatch (s : State) (x : Group) (rel : Nat) (y : Group) (acq : Nat) : Bool := s.inInstance x rel y && s.inInstance y acq x

/-! ### An instruction at issue (R70, R84, R88, R89, R235) -/

/-- The current group has `c` in hand for the instruction `e`: it is ACTIVE, neither sleeps nor waits, its context runs, its ports have
their engines, and the guard is not `!p15`. -/
def MayIssue (s : State) (e : Enc) (c : Iss) : Prop :=
  s.iss? e = some c ∧ c.x.issuable = true ∧ s.mayRun c.x = true ∧ c.x.engineWait = false ∧ guardNever e = false

/-- The same, and the matrix unit has no MCVT or tile operation of the group under way, which a trap or a parking would wait for (R88,
R165, R244). -/
def CanIssue (s : State) (e : Enc) (c : Iss) : Prop := MayIssue s e c ∧ s.unitBusy c.g c.x = false

/-- No check on the operands stops the instruction (R63, R72), it depends on no result still to be written (R88), no lock holds it
(R235). -/
def NoStop (s : State) (e : Enc) (c : Iss) (us : List Use) : Prop :=
  checkViews c.x us = none ∧ checkPorts c.x us = none
    ∧ dependsOn c.x us = [] ∧ (touchedCvts c.x us).any (fun q => q.window != 0) = false
    ∧ (us.any (fun u => u.mat) = true ∨ s.matrixHolds c.g c.x e us = false)

/-- The state when the instruction has passed its checks: its granules are awake. -/
def State.woken (s : State) (c : Iss) (us : List Use) : State :=
  (s.setGroup c.g c.x).wakeGranules c.g (granulesOf c.x us)

/-- Then every window covers one instruction fewer, unless the instruction is held. -/
def State.passed (s : State) (c : Iss) (us : List Use) : State := (s.woken c us).modGroup c.g Group.countWindows

/-- The instruction in hand then. -/
def Iss.passed (c : Iss) (s : State) (us : List Use) : Iss := { c with x := ((s.passed c us).group? c.g).getD c.x }

/-- The state in which the instruction's own effect begins: its operands have been collected (R77). -/
def State.begun (s : State) (c : Iss) (us : List Use) : State :=
  (s.passed c us).count (c.passed s us).x.core 1 (bankExcess (c.passed s us).x us)

/-- The ports that the instruction names meet no cause, no park and no wait (R214, R361). -/
def PortsServe (s : State) (c : Iss) (us : List Use) : Prop := (s.passed c us).portStop (c.passed s us) us = none

/-- An instruction performs an effect: whenever it may issue, no check stops it, and its own condition `ok` holds when its effect
begins, the step is a next state, which is `eff` followed by what follows every instruction (`moved`: it moves its lanes
itself). -/
def Performs (i : Instr) (priv : Bool) (uses : State → Iss → List Use) (moved : Bool) (e : Enc)
    (ok : State → Iss → Prop) (eff : State → Iss → State) : Prop :=
  ∀ (s : State) (c : Iss), CanIssue s e c → (priv = true → c.x.handler = true) → NoStop s e c (uses s c) →
    ok (s.begun c (uses s c)) (c.passed s (uses s c)) →
    exec i s = .next ((eff (s.begun c (uses s c)) (c.passed s (uses s c))).finish (c.passed s (uses s c)) e moved)

/-- An instruction stops as `stop` says when its own check `bad` holds as its effect begins: no operand has been popped and no lane has
moved. -/
def Stops (i : Instr) (priv : Bool) (uses : State → Iss → List Use) (e : Enc) (bad : State → Iss → Prop) (stop : State → Iss → Stop) :
    Prop :=
  ∀ (s : State) (c : Iss), CanIssue s e c → (priv = true → c.x.handler = true) → NoStop s e c (uses s c) → PortsServe s c (uses s c) →
    bad (s.begun c (uses s c)) (c.passed s (uses s c)) →
    exec i s = .next ((s.passed c (uses s c)).stopped c (stop (s.begun c (uses s c)) (c.passed s (uses s c))))

/-- As `Performs`, for an effect that operands and memory decide: whenever `eff` relates the state and the instruction in hand to a state,
that state, and what follows every instruction, is the next one. -/
def Acts (i : Instr) (priv : Bool) (uses : State → Iss → List Use) (moved : Bool) (e : Enc) (eff : State → Iss → State → Prop) : Prop :=
  ∀ (s : State) (c : Iss) (w : State), CanIssue s e c → (priv = true → c.x.handler = true) → NoStop s e c (uses s c) →
    eff (s.begun c (uses s c)) (c.passed s (uses s c)) w →
    exec i s = .next (w.finish (c.passed s (uses s c)) e moved)

/-- An instruction whose effect is the whole of what follows: it waits in the machine, or its group stops, and its lanes do not move
on yet. -/
def Ends (i : Instr) (priv : Bool) (uses : State → Iss → List Use) (e : Enc) (ok : State → Iss → Prop) (eff : State → Iss → State) :
    Prop :=
  ∀ (s : State) (c : Iss), CanIssue s e c → (priv = true → c.x.handler = true) → NoStop s e c (uses s c) → PortsServe s c (uses s c) →
    ok (s.begun c (uses s c)) (c.passed s (uses s c)) →
    exec i s = .next (eff (s.begun c (uses s c)) (c.passed s (uses s c)))

/-- An instruction is held: nothing has happened but that its granules are awake, and the group will issue it again; `brief` says that the
wait is no long-latency one (R307). -/
def HeldAs (brief : Bool) (i : Instr) (priv : Bool) (uses : State → Iss → List Use) (e : Enc) (ok : State → Iss → Prop) : Prop :=
  ∀ (s : State) (c : Iss), CanIssue s e c → (priv = true → c.x.handler = true) → NoStop s e c (uses s c) → PortsServe s c (uses s c) →
    ok (s.begun c (uses s c)) (c.passed s (uses s c)) →
    exec i s = .next ((s.woken c (uses s c)).modGroup c.g (fun x => { x with held := true, brief := brief }))

/-- An instruction is held, as a long-latency wait. -/
abbrev HeldBack (i : Instr) (priv : Bool) (uses : State → Iss → List Use) (e : Enc) (ok : State → Iss → Prop) : Prop :=
  HeldAs false i priv uses e ok

/-- A lane's sources as an instruction reads them: value and poison. -/
def State.laneSrcs (s : State) (c : Iss) (pop : Popped) (srcs : List Src) (l : Nat) : List (Nat × Bool) :=
  srcs.map (fun q => ((s.readSrc c.x pop q l).1, (s.readSrc c.x pop q l).2.1))

/-- The words skipped in reading the sources of a lane (R61). -/
def State.laneSkips (s : State) (c : Iss) (pop : Popped) (srcs : List Src) (l : Nat) : Nat :=
  (srcs.map (fun q => (s.readSrc c.x pop q l).2.2)).foldl (· + ·) 0

/-- What an instruction that computes lane by lane computed: each lane with its result. -/
def laneResults (d : Opnd) (srcs : List Src) (f : Nat → List (Nat × Bool) → Word32 → LaneOut) (st : State) (c : Iss) (pop : Popped) :
    List (Nat × LaneOut) :=
  (computeLanes d c.act).map (fun l => (l, f l (st.laneSrcs c pop srcs l) (c.x.rstate l)))

/-- The state after its flags, rounding states and skipped words, before its results. -/
def State.laneFlags (st : State) (d : Opnd) (srcs : List Src) (c : Iss) (pop : Popped) (outs : List (Nat × LaneOut)) : State :=
  st.modGroup c.g (fun x =>
    ((x.skip ((computeLanes d c.act).foldl (fun n l => n + st.laneSkips c pop srcs l) 0)).addFlags
      ((outs.filter (fun o => isScalOp d || (c.x.lane o.1).st != .helper)).foldl (fun a o => a ||| o.2.fl) 0)).setStates
      (outs.map (fun o => (o.1, o.2.rs))))

/-- An instruction computes lane by lane: whenever it may issue and no check stops it, its ports give their elements, no fault
stands in a pipe that a shadow unit checks, and the destination takes the results (only a port may refuse them), the step is a next state: the sources popped,
flags and rounding states updated, each lane's result `f` of its sources written, the lanes moved on. `carry` names the predicate that
takes each lane's carry, `late` says how late the results may be. -/
def ComputesWith (i : Instr) (e : Enc) (srcs : List Src) (n bits : Nat) (late : Option (Nat × Bool × Bool)) (shadow : Bool)
    (carry : Option Nat) (f : Iss → Nat → List (Nat × Bool) → Word32 → LaneOut) : Prop :=
  ∀ (s : State) (c : Iss) (st w : State) (pop : Popped),
    let us := opUses srcs e.d n s c
    let c' := c.passed s us
    let outs : List (Nat × LaneOut) := laneResults e.d srcs (f c') st c' pop
    let st1 := st.laneFlags e.d srcs c' pop outs
    let st2 := match carry with
      | some k => st1.modGroup c'.g (fun x => x.setPred k (maskOf (outs.map (fun (o : Nat × LaneOut) => o.1)))
          (maskOf ((outs.filter (fun (o : Nat × LaneOut) => o.2.pb)).map (fun (o : Nat × LaneOut) => o.1))))
      | none => st1
    CanIssue s e c → NoStop s e c us →
    (s.begun c us).popAll c' (portsOf srcs) = .ok (st, pop) →
    (shadow = true → st.phys.pipe = []) →
    st2.putResults c' e.d n bits (outs.map (fun (o : Nat × LaneOut) => { lane := o.1, v := o.2.v, p := o.2.p })) late = .ok w →
    exec i s = .next (w.finish c' e false)

/-- An instruction computes lane by lane from its sources alone. -/
abbrev Computes (i : Instr) (e : Enc) (srcs : List Src) (n bits : Nat) (shadow : Bool)
    (f : Nat → List (Nat × Bool) → Word32 → LaneOut) : Prop :=
  ComputesWith i e srcs n bits (lateOf e) shadow none (fun _ => f)

/-- An instruction computes a predicate: as `Computes`, but lane by lane a truth value with flags; the destination's bits in the lanes of
`act` become the truth values. -/
def ComputesPred (i : Instr) (e : Enc) (srcs : List Src) (f : List (Nat × Bool) → Bool × Flags) : Prop :=
  ∀ (s : State) (c : Iss) (st : State) (pop : Popped),
    let us := opUses srcs e.d 0 s c
    let c' := c.passed s us
    let truth := fun l => f (st.laneSrcs c' pop srcs l)
    let ls := lanesOf c'.act
    CanIssue s e c → NoStop s e c us →
    (s.begun c us).popAll c' (portsOf srcs) = .ok (st, pop) →
    exec i s = .next ((st.modGroup c'.g (fun x =>
      ((x.skip (ls.foldl (fun n l => n + st.laneSkips c' pop srcs l) 0)).addFlags
        ((ls.filter (fun l => (c'.x.lane l).st != .helper)).foldl (fun a l => a ||| (truth l).2) 0)).setPred
        (predIdxOf e.d).toNat c'.act (maskOf (ls.filter (fun l => (truth l).1))))).finish c' e false)

/-- What an instruction across lanes computed: each lane's value, poison and flags, as a function of every lane's sources. -/
def acrossResults (d : Opnd) (f : State → Iss → Popped → Nat → Nat × Bool × Flags) (st : State) (c : Iss) (pop : Popped) :
    List (Nat × Nat × Bool × Flags) :=
  (computeLanes d c.act).map (fun l => (l, f st c pop l))

/-- The state after its flags and skipped words, before its results. -/
def State.acrossFlags (st : State) (d : Opnd) (skip : State → Iss → Popped → Nat → Nat) (c : Iss) (pop : Popped)
    (outs : List (Nat × Nat × Bool × Flags)) : State :=
  st.modGroup c.g (fun x =>
    (x.skip ((lanesOf c.act).foldl (fun a l => a + skip st c pop l) 0)).addFlags
      ((outs.filter (fun o => isScalOp d || (c.x.lane o.1).st != .helper)).foldl (fun a o => a ||| o.2.2.2) 0))

/-- The words skipped when each lane of `act` reads its own sources (R61). -/
def readsOwn (srcs : List Src) (s : State) (c : Iss) (pop : Popped) (l : Nat) : Nat :=
  srcs.foldl (fun a q => a + (s.readSrc c.x pop q l).2.2) 0

/-- An instruction computes across lanes (R141, R142): as `Computes`, with a result that depends on every lane's sources; `ok` is its own
condition on the operands. -/
def ComputesAcross (i : Instr) (uses : State → Iss → List Use) (e : Enc) (srcs : List Src) (n bits : Nat)
    (ok : State → Iss → Prop) (skip : State → Iss → Popped → Nat → Nat) (f : State → Iss → Popped → Nat → Nat × Bool × Flags) : Prop :=
  ∀ (s : State) (c : Iss) (st w : State) (pop : Popped),
    let c' := c.passed s (uses s c)
    CanIssue s e c → NoStop s e c (uses s c) → ok (s.begun c (uses s c)) c' →
    (s.begun c (uses s c)).popAll c' (portsOf srcs) = .ok (st, pop) →
    (st.acrossFlags e.d skip c' pop (acrossResults e.d f st c' pop)).putResults c' e.d n bits
      ((acrossResults e.d f st c' pop).map (fun o => { lane := o.1, v := o.2.1, p := o.2.2.1 })) none = .ok w →
    exec i s = .next (w.finish c' e false)

/-- Where the lanes of an entry stand once they have moved on to the next instruction (R153). -/
def movedOn (c : Iss) : List Ent := insertLanes (removeLanes c.x.front c.m) (c.ent.pc + 1) c.ent.prio c.m

/-- Two states differ in nothing but groups, core records (counters, channels, queues of the units) and the model's own bookkeeping of
which group is current. -/
def SameOutside (s t : State) : Prop :=
  { t with groups := s.groups, cores := s.cores } = s

end Sys2Proof.Machine
end

