-- ==== Sys2Proof/Certificates/Slice0/Obligations.lean ====
section
/-! DEFINITION. The statements about the machine. Each formalises rules of the specification, or says how the machine keeps a
property of its own; the values they use are written with bit vectors and integers, not with the machine's own functions, wherever
the rule gives a formula. -/

namespace Sys2Proof.Claims

open Sys2Proof Sys2Proof.Machine

/-! ### Values -/

/-- The integer that a code stands for (R33): two's complement for an i type, unsigned for a b type. -/
def asInt (t : Ty) (a : Nat) : Int :=
  if Ty.signed t then (BitVec.ofNat (Ty.bits t) a).toInt else ((BitVec.ofNat (Ty.bits t) a).toNat : Int)

/-- The code of an integer wrapped to a type. -/
def code (t : Ty) (i : Int) : Nat := (BitVec.ofInt (Ty.bits t) i).toNat

/-- The least and the greatest value of an integer type. -/
def lo (t : Ty) : Int := if Ty.signed t then -(2 : Int) ^ (Ty.bits t - 1) else 0
/-- The greatest value of an integer type. -/
def hi (t : Ty) : Int := if Ty.signed t then (2 : Int) ^ (Ty.bits t - 1) - 1 else (2 : Int) ^ Ty.bits t - 1

/-- An integer result in a lane: wrapped to the type, or, where `.sat` stands, clamped to it, with ST when that changes it (R48). -/
def clampTo (sat : Bool) (t : Ty) (i : Int) : Nat × Bool :=
  if sat then (code t (max (lo t) (min (hi t) i)), decide (i < lo t) || decide (hi t < i)) else (code t i, false)

/-- A lane's result that takes the poison of every source, leaves the rounding state, and sets ST alone, where it says so. -/
def plain (g : List (Nat × Bool) → Nat × Bool) : Nat → List (Nat × Bool) → Word32 → LaneOut :=
  fun _ vs rs => { v := (g vs).1, p := vs.any (fun v => v.2), fl := if (g vs).2 then flST else 0, rs := rs }

/-- The source operands a and b, read in the type of the instruction. -/
def ab (e : Enc) : List Src := [{ o := e.a, ty := e.ty }, { o := e.b, ty := e.ty }]

/-- The third source of an instruction that has three (R102): the old value of the destination, or an operand-file entry. -/
def cOpnd (e : Enc) : Opnd := if e.x = 0 then e.d else .opf (e.x.setWidth 3)

/-- Sources a, b and c in the type of the instruction. -/
def abc (e : Enc) : List Src := ab e ++ [{ o := cOpnd e, ty := e.ty }]

/-- An instruction of two integer sources. -/
def Binary (i : Enc → Instr) (e : Enc) (g : Nat → Nat → Nat × Bool) : Prop :=
  Computes (i e) e (ab e) (Ty.bytes e.ty) (Ty.bits e.ty) false (plain (fun vs => g (srcVal vs 0) (srcVal vs 1)))

/-- An instruction of one integer source. -/
def Unary (i : Enc → Instr) (e : Enc) (g : Nat → Nat × Bool) : Prop :=
  Computes (i e) e [{ o := e.a, ty := e.ty }] (Ty.bytes e.ty) (Ty.bits e.ty) false (plain (fun vs => g (srcVal vs 0)))

/-- An instruction of three integer sources; b is read in a type of its own. -/
def Ternary (i : Enc → Instr) (e : Enc) (b : Src) (g : Nat → Nat → Nat → Nat) : Prop :=
  Computes (i e) e [{ o := e.a, ty := e.ty }, b, { o := cOpnd e, ty := e.ty }] (Ty.bytes e.ty) (Ty.bits e.ty) false
    (plain (fun vs => (g (srcVal vs 0) (srcVal vs 1) (srcVal vs 2), false)))

/-- The field of BFE and BFI that b gives: the least significant bit and the length (R116). -/
def fieldAt (b : Nat) : Nat := b % 256
/-- The length of the field, at most the width. -/
def fieldLen (w b : Nat) : Nat := min (b / 256 % 256) w

/-- Source b of BFE and BFI, read as a b32 value. -/
def asWord (e : Enc) : Src := { o := e.b, ty := .b32, raw := true }

end Sys2Proof.Claims

open Sys2Proof Sys2Proof.Machine Sys2Proof.Claims

/-! ### Integer and logic (R107 to R119) -/

/-- R109 and R110: the sum, the difference, the low half of a product and of a product with an addend, wrapped modulo 2^tw; IADD and
ISUB under `.sat` clamp the exact result and set ST when that changes it. -/
def Sys2Proof.Claims.IntegerSums : Prop :=
  ∀ e : Enc,
    Binary .iadd e (fun a b => clampTo (e.mod.getLsbD 0) e.ty (asInt e.ty a + asInt e.ty b)) ∧
    Binary .isub e (fun a b => clampTo (e.mod.getLsbD 0) e.ty (asInt e.ty a - asInt e.ty b)) ∧
    Binary .imul e (fun a b => ((BitVec.ofNat (Ty.bits e.ty) a * BitVec.ofNat (Ty.bits e.ty) b).toNat, false)) ∧
    Ternary .imad e { o := e.b, ty := e.ty } (fun a b c =>
      (BitVec.ofNat (Ty.bits e.ty) a * BitVec.ofNat (Ty.bits e.ty) b + BitVec.ofNat (Ty.bits e.ty) c).toNat)

/-- R110: bits [2tw−1:tw] of the exact product, and of the exact product with an addend. -/
def Sys2Proof.Claims.IntegerHighHalves : Prop :=
  ∀ e : Enc,
    Binary .imulh e (fun a b => (code e.ty (asInt e.ty a * asInt e.ty b / 2 ^ Ty.bits e.ty), false)) ∧
    Ternary .imadh e { o := e.b, ty := e.ty } (fun a b c =>
      code e.ty ((asInt e.ty a * asInt e.ty b + asInt e.ty c) / 2 ^ Ty.bits e.ty))

/-- R109: IADDC and ISUBB take a and b as unsigned, add or subtract the lane's bit of predicate X, and write the carry or the borrow
back into the same lane's bit; the one lane of a scalar form is the lowest of `act`, which is the model's reading (log 26). -/
def Sys2Proof.Claims.IntegerCarry : Prop :=
  ∀ e : Enc,
    let w := Ty.bits e.ty
    let bit := fun (c : Iss) (l : Nat) => if (c.x.predMask e.x.toNat).getLsbD l then 1 else 0
    ComputesWith (.iaddc e) e (ab e) (Ty.bytes e.ty) w none false (some e.x.toNat) (fun c l vs rs =>
      { v := (srcVal vs 0 + srcVal vs 1 + bit c l) % 2 ^ w, p := vs.any (fun v => v.2), rs := rs,
        pb := decide (2 ^ w ≤ srcVal vs 0 + srcVal vs 1 + bit c l) }) ∧
    ComputesWith (.isubb e) e (ab e) (Ty.bytes e.ty) w none false (some e.x.toNat) (fun c l vs rs =>
      { v := (BitVec.ofNat w (srcVal vs 0) - BitVec.ofNat w (srcVal vs 1) - BitVec.ofNat w (bit c l)).toNat,
        p := vs.any (fun v => v.2), rs := rs, pb := decide (srcVal vs 0 < srcVal vs 1 + bit c l) })

/-- R111: the quotient truncates toward zero and the remainder takes the sign of a; a divisor of 0 gives all ones and a; nothing
traps and no flag is set. -/
def Sys2Proof.Claims.IntegerDivision : Prop :=
  ∀ e : Enc,
    Binary .idiv e (fun a b =>
      (if asInt e.ty b = 0 then 2 ^ Ty.bits e.ty - 1 else code e.ty (Int.tdiv (asInt e.ty a) (asInt e.ty b)), false)) ∧
    Binary .irem e (fun a b =>
      (if asInt e.ty b = 0 then a else
        code e.ty (asInt e.ty a - Int.tdiv (asInt e.ty a) (asInt e.ty b) * asInt e.ty b), false))

/-- R112: INEG and IABS wrap the exact result, or clamp it under `.sat`; IMIN and IMAX take the smaller and the larger of a and b as
the type orders them. -/
def Sys2Proof.Claims.IntegerSigns : Prop :=
  ∀ e : Enc,
    Unary .ineg e (fun a => clampTo (e.mod.getLsbD 0) e.ty (-asInt e.ty a)) ∧
    Unary .iabs e (fun a => clampTo (e.mod.getLsbD 0) e.ty |asInt e.ty a|) ∧
    Binary .imin e (fun a b => (if asInt e.ty b < asInt e.ty a then b else a, false)) ∧
    Binary .imax e (fun a b => (if asInt e.ty a < asInt e.ty b then b else a, false))

/-- Integer sums, products, quotients, signs and extremes (R109, R110, R111, R112). -/
def Obligations.IntegerArithmetic : Prop :=
  IntegerSums ∧
  IntegerHighHalves ∧
  IntegerCarry ∧
  IntegerDivision ∧
  IntegerSigns

/-- R114: the bitwise operations. -/
def Obligations.BitwiseLogic : Prop :=
  ∀ e : Enc,
    let w := Ty.bits e.ty
    Binary .andB e (fun a b => (a &&& b, false)) ∧
    Binary .orB e (fun a b => (a ||| b, false)) ∧
    Binary .xorB e (fun a b => (a ^^^ b, false)) ∧
    Binary .andn e (fun a b => (a &&& (~~~(BitVec.ofNat w b)).toNat, false)) ∧
    Unary .notB e (fun a => ((~~~(BitVec.ofNat w a)).toNat, false))

/-- R115: the shifts and the rotation; a count of the width or more gives 0, or the sign for SAR, and a rotation takes the count modulo
the width. -/
def Obligations.Shifts : Prop :=
  ∀ e : Enc,
    let w := Ty.bits e.ty
    Binary .shl e (fun a n => ((BitVec.ofNat w a <<< n).toNat, false)) ∧
    Binary .shr e (fun a n => (if w ≤ n then 0 else a / 2 ^ n, false)) ∧
    Binary .sar e (fun a n => (((BitVec.ofNat w a).sshiftRight n).toNat, false)) ∧
    Binary .rotl e (fun a n => (((BitVec.ofNat w a).rotateLeft n).toNat, false))

/-- R116: BFE takes the field, extended by its own sign for an i type; BFI puts the low bits of a into the field of c. -/
def Sys2Proof.Claims.BitFields : Prop :=
  ∀ e : Enc,
    let w := Ty.bits e.ty
    Computes (.bfe e) e [{ o := e.a, ty := e.ty }, asWord e] (Ty.bytes e.ty) w false (plain (fun vs =>
      let f : BitVec (fieldLen w (srcVal vs 1)) := (BitVec.ofNat w (srcVal vs 0) >>> fieldAt (srcVal vs 1)).setWidth _
      (if Ty.signed e.ty then (f.signExtend w).toNat else f.toNat, false))) ∧
    Ternary .bfi e (asWord e) (fun a b c => (BitVec.ofFnLE (fun i : Fin w =>
      if fieldAt b ≤ i ∧ i < fieldAt b + fieldLen w b then a.testBit (i - fieldAt b) else c.testBit i)).toNat)

/-- R117: the counts of one bits, of leading and of trailing zero bits, and the reversal. -/
def Obligations.BitCounts : Prop :=
  ∀ e : Enc,
    let w := Ty.bits e.ty
    Unary .popc e (fun a => (((Finset.range w).filter (fun i => a.testBit i = true)).card, false)) ∧
    Unary .clz e (fun a => ((BitVec.ofNat w a).clz.toNat, false)) ∧
    Unary .ctz e (fun a => ((BitVec.ofNat w a).ctz.toNat, false)) ∧
    Unary .brev e (fun a => ((BitVec.ofNat w a).reverse.toNat, false))

/-- R107, R108, R118: MOV copies (an accumulator element with its residue recomputed), SEL takes the source that the lane's bit of
predicate X selects with that source's poison alone, LEA adds b shifted left, sign-extended from 32 bits under `.sx`. The
one lane of a scalar form is the lowest of `act`; for SEL's predicate that is the model's reading (log 26). -/
def Sys2Proof.Claims.Moves : Prop :=
  ∀ e : Enc,
    ((e.ty ≠ .a80f ∧ e.ty ≠ .a80i) → Unary .mov e (fun a => (a, false))) ∧
    ((e.ty = .a80f ∨ e.ty = .a80i) →
      Computes (.mov e) e [{ o := e.a, ty := e.ty }] 12 96 false (plain (fun vs =>
        let a := srcVal vs 0
        (a % 2 ^ 80 + (if e.ty = .a80i then ((BitVec.ofNat 80 a).toInt % 255).toNat else 0) * 2 ^ 80
          + a / 2 ^ 88 % 8 * 2 ^ 88, false)))) ∧
    ComputesWith (.sel e) e (ab e) (Ty.bytes e.ty) (Ty.bits e.ty) none false none (fun c l vs rs =>
      let k := if (c.x.predMask e.x.toNat).getLsbD l then 0 else 1
      { v := srcVal vs k, p := (vs[k]?.getD (0, false)).2, rs := rs }) ∧
    Binary .lea e (fun a b =>
      ((BitVec.ofNat 64 a + (if e.mod.getLsbD 3 then (BitVec.ofNat 32 b).signExtend 64 else BitVec.ofNat 64 b)
          <<< (e.mod.toNat % 8)).toNat, false))

/-- Bit fields, MOV, SEL and LEA (R116, R107, R108, R118). -/
def Obligations.FieldsAndMoves : Prop :=
  BitFields ∧
  Moves

/-! ### Predicates (R66, R113, R119, R124, R146) -/

namespace Sys2Proof.Claims

/-- The bit of a predicate in a lane. -/
def predBit (c : Iss) (k : Nat) (l : Nat) : Bool := (c.x.predMask k).getLsbD l

/-- The mask of the lanes where a function is true. -/
def maskWith (p : Nat → Bool) : Mask := maskOf ((List.range 32).filter p)

/-- Writes the bits of the lanes of `act` into a predicate destination. -/
def putPred (e : Enc) (s : State) (c : Iss) (m : Mask) : State :=
  s.modGroup c.g (fun x => x.setPred (predIdxOf e.d).toNat c.act m)

end Sys2Proof.Claims

/-- R66: a write to a predicate changes only the bits of the lanes it names, and no other predicate; a write to `p15` is discarded and
`p15` reads as all ones; nothing else of the group changes. -/
def Sys2Proof.Claims.PredicateWrite : Prop :=
  ∀ (x : Group) (k k' l : Nat) (lanes v : Mask), l < 32 →
    (x.predMask 15) = ~~~0 ∧ x.setPred 15 lanes v = x ∧
    (k ≠ 15 → ((x.setPred k lanes v).predMask k').getLsbD l =
      if k' = k ∧ lanes.getLsbD l then v.getLsbD l else (x.predMask k').getLsbD l) ∧
    ({ x.setPred k lanes v with rf := x.rf } = x) ∧
    ({ (x.setPred k lanes v).rf with preds := x.rf.preds } = x.rf)

/-- R113: ICMP sets bit l of pd, for each lane of `act`, to the truth of the comparison that the condition code names, signed for i types
and unsigned for b types. -/
def Sys2Proof.Claims.IntegerCompare : Prop :=
  ∀ e : Enc, (Instr.icmp e).wf = true →
    ComputesPred (.icmp e) e (ab e) (fun vs =>
      let a := asInt e.ty (srcVal vs 0)
      let b := asInt e.ty (srcVal vs 1)
      (([decide (a = b), decide (a ≠ b), decide (a < b), decide (a ≤ b), decide (a > b), decide (a ≥ b)][e.mod.toNat]?).getD false, 0))

/-- R119: PLOP combines two predicates bit by bit in the lanes of `act`, by the operation in MOD[2:0]. -/
def Sys2Proof.Claims.PredicateLogic : Prop :=
  ∀ e : Enc,
    Performs (.plop e) false (fun _ _ => []) false e (fun _ _ => True) (fun s c =>
      putPred e s c (maskWith (fun l =>
        let a := predBit c (predIdxOf e.a).toNat l
        let b := predBit c (predIdxOf e.b).toNat l
        ([a && b, a || b, a != b, a && !b, a || !b, !(a && b), !(a || b), a == b][e.mod.toNat % 8]?).getD false)))

/-- R119: PMOV's four forms: a lane's value tested for non-zero, the bits of a uniform value, a predicate as 1 or 0 per lane, and the
whole mask as a value of the type. -/
def Sys2Proof.Claims.PredicateMoves : Prop :=
  ∀ e : Enc,
    ((∃ k, e.d = .pred k) → e.mod.getLsbD 0 = false →
      ComputesPred (.pmov e) e [{ o := e.a, ty := e.ty }] (fun vs => (srcVal vs 0 != 0, 0))) ∧
    ((∃ k, e.d = .pred k) → e.mod.getLsbD 0 = true →
      Performs (.pmov e) false (opUses [{ o := e.a, ty := e.ty }] e.d 0) false e (fun _ _ => True) (fun s c =>
        putPred e s c (maskWith (fun l => (s.readSrc c.x [] { o := e.a, ty := e.ty } 0).1.testBit l)))) ∧
    ((∀ k, e.d ≠ .pred k) →
      ComputesWith (.pmov e) e [] (Ty.bytes e.ty) (Ty.bits e.ty) none false none (fun c l _ rs =>
        { v := if e.mod.getLsbD 0 then (c.x.predMask (predIdxOf e.a).toNat).toNat % 2 ^ Ty.bits e.ty
               else (predBit c (predIdxOf e.a).toNat l).toNat,
          p := false, rs := rs }))

/-- R124: FCMP's eight conditions; `.eq`, `.ne`, `.un` and `.ord` set NV for a signalling NaN alone, the others for any NaN. -/
def Sys2Proof.Claims.FloatCompare : Prop :=
  ∀ e : Enc,
    ComputesPred (.fcmp e) e (ab e) (fun vs =>
      let a := valOf e.ty (srcVal vs 0)
      let b := valOf e.ty (srcVal vs 1)
      let un := a.isNaN || b.isNaN
      let o := valCmp a b
      let cc := e.mod.toNat % 8
      ((([!un && o == .eq, un || o != .eq, !un && o == .lt, !un && (o == .lt || o == .eq), !un && o == .gt, !un && (o == .gt || o == .eq),
          un, !un][cc]?).getD false),
        if (2 ≤ cc ∧ cc ≤ 5 ∧ un = true) ∨ ((cc < 2 ∨ 5 < cc) ∧ (a.isSNaN || b.isSNaN) = true) then flNV else 0))

/-- Predicates and compares (R66, R113, R119, R124). -/
def Obligations.Predicates : Prop :=
  PredicateWrite ∧
  IntegerCompare ∧
  PredicateLogic ∧
  PredicateMoves ∧
  FloatCompare

/-- R146: VOTE reads the predicate over the contributors, the lanes of `act` that are no helpers; `.all` and `.eq` hold over none and
`.any` does not; `.ballot` writes the mask of the contributors whose bit is set. -/
def Sys2Proof.Claims.Votes : Prop :=
  ∀ e : Enc,
    (e.mod.toNat % 4 ≠ 3 →
      Performs (.vote e) false (fun _ _ => []) false e (fun _ _ => True) (fun s c =>
        let ls := lanesOf (c.act &&& ~~~c.x.helpers)
        let p := predBit c (predIdxOf e.a).toNat
        let v := if e.mod.toNat % 4 = 0 then ls.all p else if e.mod.toNat % 4 = 1 then ls.any p else ls.all p || ls.all (fun l => !p l)
        putPred e s c (if v then ~~~0 else 0))) ∧
    (e.mod.toNat % 4 = 3 →
      ComputesAcross (.vote e) (opUses [] e.d 4) e [] 4 32 (fun _ _ => True) (readsOwn []) (fun _ c _ _ =>
        ((maskWith (fun l => (c.act &&& ~~~c.x.helpers).getLsbD l && predBit c (predIdxOf e.a).toNat l)).toNat, false, 0)))

/-! ### Floating point and conversion (R45 to R49, R120 to R140) -/

namespace Sys2Proof.Claims

/-- The rational number of a finite value; 0 for any other. -/
def rat : Val → ℚ
  | .fin neg m e => (if neg then -1 else 1) * m * (2 : ℚ) ^ e
  | _ => 0

/-- A finite value. -/
def isFin : Val → Bool
  | .fin _ _ _ => true
  | _ => false

/-- The rounding mode of MOD[2:0] (R45). -/
def rm (e : Enc) : RMode := ([RMode.rne, .rtz, .rup, .rdn, .rsto][e.mod.toNat % 8]?).getD .rsto

/-- A lane's rounded result: the code, the flags of the rounding with NV where forming the exact value set it, the rounding state. -/
def rounded (vs : List (Nat × Bool)) (r : Rounded) (nv : Bool) : LaneOut :=
  { v := r.code, p := vs.any (fun v => v.2), fl := r.fl ||| (if nv then flNV else 0), rs := r.rs }

/-- The value of the k-th source in the type of the instruction. -/
def val (e : Enc) (vs : List (Nat × Bool)) (k : Nat) : Val := valOf e.ty (srcVal vs k)

/-- A floating-point instruction of one source: correctly rounded, or within the specified error. -/
def FUnary (i : Enc → Instr) (e : Enc) (f : Word32 → Val → Rounded) : Prop :=
  Computes (i e) e [{ o := e.a, ty := e.ty }] (Ty.bytes e.ty) (Ty.bits e.ty) false (fun _ vs rs => rounded vs (f rs (val e vs 0)) false)

/-- A 32-bit pair operand of FDOT2 and its two elements (R130). -/
def pairSrc (t : Ty) (o : Opnd) : Src := { o := o, ty := .b32, conv := some t }
/-- An element of a pair. -/
def half (t : Ty) (w k : Nat) : Val := valOf t (w / 2 ^ (16 * k) % 2 ^ 16)

/-- The NV of a product of an infinity and a zero, or of signalling NaNs, is kept when the sum is formed. -/
def withProducts (mode : RMode) (ps : List VF) (c : Val) : VF :=
  let x := sumVals mode (ps.map (fun p => p.v) ++ [c])
  ⟨x.v, x.nv || ps.any (fun p => p.nv)⟩

/-- The smaller, or the larger, of two values by R123. -/
def pick (t : Ty) (larger : Bool) (a b : Nat) : Nat :=
  match (valOf t a).isNaN, (valOf t b).isNaN with
  | true, true => canonNaN t
  | true, false => b
  | false, true => a
  | false, false => if (if larger then valLt (valOf t a) (valOf t b) else valLt (valOf t b) (valOf t a)) then b else a

end Sys2Proof.Claims

/-- R121, R122, R130: FADD, FSUB, FMUL, FFMA and FDOT2 write in each lane of `act` the sum or product of the values of its sources, formed
exactly and then rounded once by the mode in MOD[2:0], with the flags of the rounding and the NV of its special values, whenever no fault stands
in a pipe. -/
def Sys2Proof.Claims.FloatSums : Prop :=
  ∀ e : Enc,
    let n := Ty.bytes e.ty
    let w := Ty.bits e.ty
    let put := fun (vs : List (Nat × Bool)) (rs : Word32) (t : Ty) (x : VF) => rounded vs (round t (rm e) rs x.v) x.nv
    Computes (.fadd e) e (ab e) n w true (fun _ vs rs => put vs rs e.ty (sumVals (rm e) [val e vs 0, val e vs 1])) ∧
    Computes (.fsub e) e (ab e) n w true (fun _ vs rs => put vs rs e.ty (sumVals (rm e) [val e vs 0, (val e vs 1).neg])) ∧
    Computes (.fmul e) e (ab e) n w true (fun _ vs rs => put vs rs e.ty (mulVals (val e vs 0) (val e vs 1))) ∧
    Computes (.ffma e) e (abc e) n w true (fun _ vs rs =>
      put vs rs e.ty (withProducts (rm e) [mulVals (val e vs 0) (val e vs 1)] (val e vs 2))) ∧
    Computes (.fdot2 e) e [pairSrc e.ty e.a, pairSrc e.ty e.b, { o := cOpnd e, ty := .f32 }] 4 32 true (fun _ vs rs =>
      put vs rs .f32 (withProducts (rm e)
        [mulVals (half e.ty (srcVal vs 0) 0) (half e.ty (srcVal vs 1) 0), mulVals (half e.ty (srcVal vs 0) 1) (half e.ty (srcVal vs 1) 1)]
        (valOf .f32 (srcVal vs 2))))

/-- R121, R122: sums and products of finite values are exact, whatever the number of terms and whatever the exponents; ∞ − ∞ and
0 × ∞ give a NaN and set NV. -/
def Sys2Proof.Claims.SumsAndProductsExact : Prop :=
  (∀ (mode : RMode) (vs : List Val), vs.all isFin = true →
    isFin (sumVals mode vs).v = true ∧ (sumVals mode vs).nv = false ∧ rat (sumVals mode vs).v = (vs.map rat).sum) ∧
  (∀ a b : Val, isFin a = true → isFin b = true →
    isFin (mulVals a b).v = true ∧ (mulVals a b).nv = false ∧ rat (mulVals a b).v = rat a * rat b) ∧
  (∀ (mode : RMode) (vs : List Val), vs.any Val.isNaN = false → .inf false ∈ vs → .inf true ∈ vs →
    sumVals mode vs = ⟨.nan false, true⟩) ∧
  (∀ (n k : Bool) (e : Int), mulVals (.inf n) (.fin k 0 e) = ⟨.nan false, true⟩ ∧ mulVals (.fin k 0 e) (.inf n) = ⟨.nan false, true⟩)

/-- R45, R49: discarding sh bits of a magnitude m. rtz drops them, rup and rdn go up or down by the sign, rne goes to the nearest and on a
tie to an even count, and rsto adds the lane's stepped state to the first 32 discarded bits and carries; only an inexact rsto rounding
steps the state. -/
def Sys2Proof.Claims.RoundingModes : Prop :=
  ∀ (neg : Bool) (rs : Word32) (m sh : Nat),
    let r := fun mode => roundUnits mode neg rs m sh false
    (r .rtz).1 = m / 2 ^ sh ∧
    (r .rup).1 = (if neg then m / 2 ^ sh else (m + 2 ^ sh - 1) / 2 ^ sh) ∧
    (r .rdn).1 = (if neg then (m + 2 ^ sh - 1) / 2 ^ sh else m / 2 ^ sh) ∧
    2 * (((r .rne).1 * 2 ^ sh : Nat) - (m : Int)).natAbs ≤ 2 ^ sh ∧
    (2 * (((r .rne).1 * 2 ^ sh : Nat) - (m : Int)).natAbs = 2 ^ sh → 2 ∣ (r .rne).1) ∧
    (r .rsto).1 = (if m % 2 ^ sh = 0 then m / 2 ^ sh
      else m / 2 ^ sh + ((m % 2 ^ sh) * 2 ^ 32 / 2 ^ sh + (rsStep rs).toNat) / 2 ^ 32) ∧
    (∀ mode, (r mode).2.1 = decide (m % 2 ^ sh ≠ 0)) ∧
    (∀ mode, (r mode).2.2 = if mode = .rsto ∧ m % 2 ^ sh ≠ 0 then rsStep rs else rs)

/-- R123: FMIN and FMAX choose a source; −0 counts as smaller than +0, a NaN gives way to the other source, a signalling NaN sets NV. -/
def Sys2Proof.Claims.FloatExtremes : Prop :=
  ∀ e : Enc,
    let n := Ty.bytes e.ty
    let w := Ty.bits e.ty
    let nv := fun (vs : List (Nat × Bool)) => (val e vs 0).isSNaN || (val e vs 1).isSNaN
    Computes (.fmin e) e (ab e) n w false (fun _ vs rs => rounded vs ⟨pick e.ty false (srcVal vs 0) (srcVal vs 1), 0, rs⟩ (nv vs)) ∧
    Computes (.fmax e) e (ab e) n w false (fun _ vs rs => rounded vs ⟨pick e.ty true (srcVal vs 0) (srcVal vs 1), 0, rs⟩ (nv vs))

/-- The order of finite values is that of their rationals, with −0 below +0 where FMIN and FMAX ask (R123) and equal to it where FCMP asks
(R124). -/
def Sys2Proof.Claims.OrderOfValues : Prop :=
  ∀ a b : Val, isFin a = true → isFin b = true →
    (valCmp a b = .lt ↔ rat a < rat b) ∧ (valCmp a b = .gt ↔ rat b < rat a) ∧ (valCmp a b = .eq ↔ rat a = rat b) ∧
    (rat a < rat b → valLt a b = true) ∧ (rat b < rat a → valLt a b = false) ∧
    ∀ e e' : Int, valLt (.fin true 0 e) (.fin false 0 e') = true ∧ valLt (.fin false 0 e) (.fin true 0 e') = false

/-- R125: FCLASS writes a word of 32 bits with exactly one bit set, whatever the type: the class of the value. -/
def Sys2Proof.Claims.FloatClass : Prop :=
  ∀ e : Enc,
    Computes (.fclass e) e [{ o := e.a, ty := e.ty }] 4 32 false (plain (fun vs =>
      (2 ^ (match val e vs 0 with
        | .nan sig => if sig then 8 else 9
        | .inf neg => if neg then 0 else 7
        | .fin neg m _ =>
          if m = 0 then (if neg then 3 else 4)
          else if (Ty.fmt e.ty).any (fun f => decide (m < 2 ^ f.fb)) then (if neg then 2 else 5)
          else (if neg then 1 else 6)), false)))

/-- FMIN, FMAX, FCLASS, and the order of values (R123, R124, R125). -/
def Obligations.FloatOrder : Prop :=
  FloatExtremes ∧
  OrderOfValues ∧
  FloatClass

/-- R126 to R129: FRND, FDIV, FSQRT, FRCP, FRSQ, FEXP2, FLOG2, FSIN, FCOS and FSCALE write in each lane of `act` what the machine's function of
that instruction gives for the type, the mode in MOD[2:0], the lane's rounding state and the values of the lane's own sources, with its flags and
its next rounding state. Which value that is, this statement says for the special sources alone (below). -/
def Sys2Proof.Claims.FloatFunctions : Prop :=
  ∀ e : Enc,
    FUnary .frnd e (rndVal e.ty (rm e)) ∧ FUnary .fsqrt e (sqrtVal e.ty (rm e)) ∧
    FUnary .frcp e (fun rs a => divVals e.ty (rm e) rs (.fin false 1 0) a) ∧ FUnary .frsq e (rsqVal e.ty (rm e)) ∧
    FUnary .fexp2 e (exp2Val e.ty (rm e)) ∧ FUnary .flog2 e (log2Val e.ty (rm e)) ∧
    FUnary .fsin e (sinpiVal e.ty (rm e)) ∧ FUnary .fcos e (cospiVal e.ty (rm e)) ∧
    Computes (.fdiv e) e (ab e) (Ty.bytes e.ty) (Ty.bits e.ty) false (fun _ vs rs =>
      rounded vs (divVals e.ty (rm e) rs (val e vs 0) (val e vs 1)) false) ∧
    Computes (.fscale e) e [{ o := e.a, ty := e.ty }, { o := e.b, ty := .i32, raw := true }] (Ty.bytes e.ty) (Ty.bits e.ty) false
      (fun _ vs rs => rounded vs (scaleVal e.ty (rm e) rs (srcVal vs 0) (val e vs 0) (BitVec.ofNat 32 (srcVal vs 1)).toInt) false)

/-- R127: the special cases of the quotient, the root and the reciprocals, each with its flag. -/
def Sys2Proof.Claims.DivisionSpecials : Prop :=
  ∀ (t : Ty) (f : Fmt) (mode : RMode) (rs : Word32) (n k : Bool) (m m' : Nat) (x x' : Int), Ty.fmt t = some f → t ≠ .e4m3 →
    let z := fun neg => (⟨signBit t neg, 0, rs⟩ : Rounded)
    let inf := fun neg => (⟨infCode t f neg, 0, rs⟩ : Rounded)
    let nan := (⟨canonNaN t, flNV, rs⟩ : Rounded)
    (m ≠ 0 → divVals t mode rs (.fin n m x) (.fin k 0 x') = inf (n != k)) ∧
    divVals t mode rs (.fin n 0 x) (.fin k 0 x') = nan ∧ divVals t mode rs (.inf n) (.inf k) = nan ∧
    divVals t mode rs (.inf n) (.fin k m' x') = inf (n != k) ∧ divVals t mode rs (.fin n m x) (.inf k) = z (n != k) ∧
    sqrtVal t mode rs (.fin true 0 x) = z true ∧ (m ≠ 0 → sqrtVal t mode rs (.fin true m x) = nan) ∧ sqrtVal t mode rs (.inf true) = nan ∧
    (m ≠ 0 → rsqVal t mode rs (.fin true m x) = nan) ∧ rsqVal t mode rs (.inf true) = nan ∧
    rsqVal t mode rs (.fin n 0 x) = inf n ∧ rsqVal t mode rs (.inf false) = z false

/-- Exact sums and products, the five rounding modes, the special quotients and roots (R121, R122, R45, R49, R127). -/
def Obligations.RoundingAndExactness : Prop :=
  SumsAndProductsExact ∧
  RoundingModes ∧
  DivisionSpecials

/-- R131: AADD adds two accumulator elements: VALUE rounded or saturated, PSN, OVF and CHK gathered, RES recomputed; `%fstat` never
changes. -/
def Sys2Proof.Claims.AccumulatorAdd : Prop :=
  ∀ e : Enc,
    Computes (.aadd e) e (ab e) 12 96 (e.ty == .a80f) (fun _ vs rs =>
      let a := srcVal vs 0
      let b := srcVal vs 1
      let x := valOf .a80f (a % 2 ^ 80)
      let y := valOf .a80f (b % 2 ^ 80)
      let r := round .a80f (rm e) rs (sumVals (rm e) [x, y]).v
      let i := clampTo true .a80i (asInt .a80i a + asInt .a80i b)
      let isF := e.ty == .a80f
      let v := if isF then r.code else i.1
      let ovf := if isF then (valOf .a80f r.code).isInf && !x.isInf && !y.isInf else i.2
      let bit := fun k (also : Bool) => if a.testBit k || b.testBit k || also then 2 ^ k else 0
      { v := v + (if isF then 0 else (asInt .a80i v % 255).toNat * 2 ^ 80) + bit 88 (vs.any (fun v => v.2)) + bit 89 ovf + bit 90 false,
        p := vs.any (fun v => v.2), rs := if isF then r.rs else rs })

/-- R126, R128, R129: the special sources of FRND, FEXP2, FLOG2, FSIN, FCOS and FSCALE, each with its flag. -/
def Sys2Proof.Claims.FunctionSpecials : Prop :=
  ∀ (t : Ty) (f : Fmt) (mode : RMode) (rs : Word32) (n k : Bool) (m raw : Nat) (x i : Int), Ty.fmt t = some f → t ≠ .e4m3 →
    let inf := fun neg => (⟨infCode t f neg, 0, rs⟩ : Rounded)
    let nan := fun (nv : Bool) => (⟨canonNaN t, if nv then flNV else 0, rs⟩ : Rounded)
    rndVal t mode rs (.nan k) = nan k ∧ rndVal t mode rs (.inf n) = inf n ∧
    exp2Val t mode rs (.nan k) = nan k ∧ exp2Val t mode rs (.inf true) = ⟨0, 0, rs⟩ ∧ exp2Val t mode rs (.inf false) = inf false ∧
    log2Val t mode rs (.nan k) = nan k ∧ log2Val t mode rs (.fin n 0 x) = inf true ∧ (m ≠ 0 → log2Val t mode rs (.fin true m x) = nan true) ∧
    log2Val t mode rs (.inf true) = nan true ∧ log2Val t mode rs (.inf false) = inf false ∧
    sinpiVal t mode rs (.nan k) = nan k ∧ sinpiVal t mode rs (.inf n) = nan true ∧
    (0 ≤ x → sinpiVal t mode rs (.fin n m x) = ⟨signBit t n, 0, rs⟩) ∧
    cospiVal t mode rs (.nan k) = nan k ∧ cospiVal t mode rs (.inf n) = nan true ∧
    scaleVal t mode rs raw (.nan k) i = nan k ∧ scaleVal t mode rs raw (.inf n) i = ⟨raw, 0, rs⟩ ∧
    scaleVal t mode rs raw (.fin n 0 x) i = ⟨raw, 0, rs⟩

/-- Floating-point instructions compute lane by lane: the sums and products of R121 and R130 rounded once, the functions of R126 to R129 with
their special sources, and AADD (R121, R122, R126, R127, R128, R129, R130, R131). -/
def Obligations.FloatArithmetic : Prop :=
  FloatSums ∧
  FloatFunctions ∧
  FunctionSpecials ∧
  AccumulatorAdd

namespace Sys2Proof.Claims

/-- A value rounded to a type, with NV for a signalling NaN (R133). -/
def conv (t : Ty) (mode : RMode) (rs : Word32) (v : Val) : Rounded :=
  let r := round t mode rs v
  ⟨r.code, r.fl ||| (if v.isSNaN then flNV else 0), r.rs⟩

/-- The type of a type code (R32). -/
def tyAt (k : Nat) : Ty := (tyOfCode (BitVec.ofNat 5 k)).getD .b8

/-- Element j of n bits of a packed value, its negative zero written as 0 (R136, R137). -/
def smElem (n v j : Nat) : Nat := let x := v / 2 ^ (n * j) % 2 ^ n; if x = 2 ^ (n - 1) then 0 else x

/-- Both sources of PACK, read in a type. -/
def both (e : Enc) (t : Ty) : List Src := [{ o := e.a, ty := t }, { o := e.b, ty := t }]

/-- A value times 2^k. -/
def timesPow (v : Val) (k : Int) : Val :=
  match v with
  | .fin n m e => .fin n m (e + k)
  | v => v

/-- The lanes that share a lane's block (R138). -/
def sameBlock (e : Enc) (l k : Nat) : Bool := e.x != 0 || k / 16 == l / 16

/-- What QBLK finds in a lane: the rounded element, its poison, the block's scale, and whether the scale was clamped (R138). -/
def qblkLane (e : Enc) (s : State) (c : Iss) (pop : Popped) (l : Nat) : Rounded × Bool × Nat × Bool :=
  let src : Src := { o := e.a, ty := .f32 }
  let ks := (lanesOf c.act).filter (fun k => (c.x.lane k).st != .helper && sameBlock e l k)
  let at_ := fun k => s.readSrc c.x pop src k
  let sc := blockScale e.ty (ks.map (fun k => valOf .f32 (at_ k).1))
  let a := valOf .f32 (at_ l).1
  (if sc.1 = 255 then conv e.ty (rm e) (c.x.rstate l) (if a.isNaN then a else .nan false)
   else conv e.ty (rm e) (c.x.rstate l) (timesPow a (127 - sc.1)),
   (at_ l).2.1 || ks.any (fun k => (at_ k).2.1), sc)

end Sys2Proof.Claims

/-- R133, R139, R140: CVT rounds the exact value of the source type to the destination type, DQBLK the product with 2^(s − 127), where a scale
of 255 gives the canonical NaN, with NV only if a was a NaN; RESID writes the residue modulo 255, with bit 8 for an accumulator element
whose stored residue differs or is 255. -/
def Sys2Proof.Claims.ConversionsOfValues : Prop :=
  ∀ e : Enc,
    let sty := tyAt (styCode e.mod e.x)
    Computes (.cvt e) e [{ o := e.a, ty := sty }] (Ty.bytes e.ty) (if e.ty = .a80f then 96 else Ty.bits e.ty) false (fun _ vs rs =>
      let r := conv e.ty (rm e) rs (valOf sty (if sty = .a80f then srcVal vs 0 % 2 ^ 80 else srcVal vs 0))
      let p := vs.any (fun v => v.2)
      { v := r.code + (if e.ty = .a80f ∧ p = true then 2 ^ 88 else 0), p := p, fl := r.fl, rs := r.rs }) ∧
    Computes (.dqblk e) e [{ o := e.a, ty := tyAt e.x.toNat }, { o := e.b, ty := .sx8 }] 4 32 false (fun _ vs rs =>
      let a := valOf (tyAt e.x.toNat) (srcVal vs 0)
      let sc := srcVal vs 1 % 256
      rounded vs (if sc = 255 then ⟨canonNaN .f32, if a.isNaN then flNV else 0, rs⟩
        else conv .f32 (rm e) rs (timesPow a (sc - 127))) false) ∧
    Computes (.resid e) e [{ o := e.a, ty := e.ty }] 4 32 false (plain (fun vs =>
      let a := srcVal vs 0
      let r := (asInt e.ty a % 255).toNat
      let res := a / 2 ^ 80 % 2 ^ 8
      (r + (if e.ty = .a80i ∧ (res ≠ r ∨ res = 255) then 256 else 0), false)))

/-- R136, R137: PACK and UNPK of sign-magnitude elements, each written as 0 where it is a negative zero, and of 16-bit pairs; in the pair form
of PACK the state steps for element 0 first. -/
def Sys2Proof.Claims.PackingAndUnpacking : Prop :=
  ∀ e : Enc,
    let n := Ty.bits e.ty
    let sm := e.ty = .sm4 ∨ e.ty = .sm6
    (sm → Computes (.pack e) e (both e .b32) (if n = 4 then 4 else 8) (if n = 4 then 32 else 64) false (plain (fun vs =>
      (((List.range 8).map (fun j => smElem n (if j < 4 then srcVal vs 0 / 2 ^ (8 * j) else srcVal vs 1 / 2 ^ (8 * (j - 4))) 0
        * 2 ^ (n * j))).sum, false)))) ∧
    (¬sm → Computes (.pack e) e (both e .f32) 4 32 false (fun _ vs rs =>
      let lo := conv e.ty (rm e) rs (valOf .f32 (srcVal vs 0))
      let hi := conv e.ty (rm e) lo.rs (valOf .f32 (srcVal vs 1))
      rounded vs ⟨lo.code + hi.code * 2 ^ 16, lo.fl ||| hi.fl, hi.rs⟩ false)) ∧
    (sm → Computes (.unpk e) e [{ o := e.a, ty := if n = 4 then .b32 else .b64 }] 8 64 false (plain (fun vs =>
      (((List.range 8).map (fun j => smElem n (srcVal vs 0) j * 2 ^ (8 * j))).sum, false)))) ∧
    (¬sm → Computes (.unpk e) e [pairSrc e.ty e.a] 4 32 false (fun _ vs rs =>
      rounded vs (conv .f32 .rne rs (half e.ty (srcVal vs 0) (if e.x = 0 then 0 else 1))) false))

/-- R138: QBLK scales the lanes of a block by the power of two that the largest magnitude of its contributors needs; it writes each lane's
element to D and the scale to B, lane by lane, with flags from the lanes that are no helpers. A scalar D takes the lowest lane alone (log 86). -/
def Sys2Proof.Claims.BlockQuantisation : Prop :=
  ∀ (e : Enc) (s : State) (c : Iss) (st t : State) (pop : Popped),
    let src : Src := { o := e.a, ty := .f32 }
    let us := qblkUses e s c
    let c' := c.passed s us
    let ls := computeLanes e.d c'.act
    let q := qblkLane e st c' pop
    let fl := (ls.filter (fun l => isScalOp e.d || (c'.x.lane l).st != .helper)).foldl
      (fun a l => a ||| (q l).1.fl ||| (if (q l).2.2.2 then flST else 0)) 0
    CanIssue s e c → NoStop s e c us →
    (s.begun c us).popAll c' (portsOf [src]) = .ok (st, pop) →
    (st.modGroup c'.g (fun x => ((x.skip ((lanesOf c'.act).foldl (fun a l => a + (st.readSrc c'.x pop src l).2.2) 0)).addFlags fl).setStates
        (ls.map (fun l => (l, (q l).1.rs))))).putPairs c' e.d e.b (Ty.bits e.ty)
      (ls.map (fun l => ({ lane := l, v := (q l).1.code, p := (q l).2.1 }, { lane := l, v := (q l).2.2.1, p := (q l).2.1 }))) = .ok t →
    exec (.qblk e) s = .next (t.finish c' e false)

/-- R138: the scale of a block: 255 where a contributor is NaN, 127 where there is none or all are zero; else the least k with m ≤ F × 2^k for the
largest magnitude m, coded as 127 + k and clamped to 0 to 254, with 128 for k where m is infinite. The second component is the ST of the clamp. -/
def Sys2Proof.Claims.BlockScale : Prop :=
  ∀ (t : Ty) (vs : List Val),
    (vs.any Val.isNaN = true → blockScale t vs = (255, false)) ∧
    (vs.any Val.isNaN = false → vs.any Val.isInf = true → blockScale t vs = (254, true)) ∧
    (vs.all isFin = true → vs.any (fun v => rat v != 0) = false → blockScale t vs = (127, false)) ∧
    (vs.all isFin = true → vs.any (fun v => rat v != 0) = true →
    ∃ k : Int, (∀ v ∈ vs, |rat v| ≤ qblkMax t * (2 : ℚ) ^ k) ∧ (∃ v ∈ vs, qblkMax t * (2 : ℚ) ^ (k - 1) < |rat v|) ∧
      blockScale t vs = ((max 0 (min 254 (127 + k))).toNat, decide (127 + k < 0 ∨ 254 < 127 + k)))

/-- Conversions, packing and block quantisation (R133, R139, R140, R136, R137, R138). -/
def Obligations.Conversions : Prop :=
  ConversionsOfValues ∧
  PackingAndUnpacking ∧
  BlockQuantisation ∧
  BlockScale

/-! ### Across lanes (R141 to R150) -/

namespace Sys2Proof.Claims

/-- What a lane reads from a source lane: +0 of the type from an empty one, its own value where there is none (R141). -/
def fromLane (s : State) (c : Iss) (pop : Popped) (q : Src) (reader : Nat) (src : Option Nat) : Nat × Bool × Nat :=
  match src with
  | some l => if (c.x.lane l).st = .empty then (if q.ty = .ts8 then 0x77 else 0, false, 0) else s.readSrc c.x pop q l
  | none => s.readSrc c.x pop q reader

/-- The index operand of a shuffle: an integer whatever the type (R144). -/
def indexSrc (e : Enc) : Src := { o := e.b, ty := e.ty, raw := true }

/-- A source lane given as an integer: none outside 0 to 31. -/
def inGroup (i : Int) : Option Nat := if 0 ≤ i ∧ i < 32 then some i.toNat else none

/-- The lanes whose source a shuffle accesses, by the index of each lane: `act`, and the lanes read that are not empty (R63, R141). -/
def accessed (c : Iss) (src : Nat → Nat → Option Nat) (idx : Nat → Nat) : Mask :=
  c.act ||| (maskOf ((lanesOf c.act).filterMap (fun l => src l (idx l))) &&& ~~~c.x.empties)

/-- The lanes whose source a shuffle accesses, as far as the index is known at its checks: it stands in no port, is not still to be written, and
no matrix operation locks it. -/
def shuffled (s : State) (c : Iss) (e : Enc) (src : Nat → Nat → Option Nat) : Mask :=
  if s.indexKnown c e (indexSrc e) then accessed c src (fun l => (s.readSrc c.x [] (indexSrc e) l).1) else c.act

/-- Where the index stands in a port, the elements read lie in the window, and no matrix operation locks them (R63, R235). -/
def indexInWindow (s : State) (c : Iss) (e : Enc) (src : Nat → Nat → Option Nat) : Prop :=
  ∀ k st pop, e.b = .port k → s.popAll c [k] = .ok (st, pop) →
    let u : Use := { o := e.a, n := Ty.bytes e.ty, lanes := accessed c src (fun l => (st.readSrc c.x pop (indexSrc e) l).1) }
    Use.outOfBounds c.x u = false ∧ s.matrixHolds c.g c.x e [u] = false

/-- A shuffle: lane l takes a from the lane that `src` gives for it and its index. -/
def Shuffles (i : Enc → Instr) (e : Enc) (src : Nat → Nat → Option Nat) : Prop :=
  let n := Ty.bytes e.ty
  let bs := if e.b = .nil then [] else [indexSrc e]
  ComputesAcross (i e) (fun s c =>
      { o := e.d, n := n, lanes := c.act, dest := true } :: { o := e.a, n := n, lanes := shuffled s c e src } ::
        bs.map (fun q => { o := q.o, n := n, lanes := c.act })) e ({ o := e.a, ty := e.ty } :: bs) n (Ty.bits e.ty) (fun s c => indexInWindow s c e src)
    (fun s c pop l =>
      let b := s.readSrc c.x pop (indexSrc e) l
      b.2.2 + (fromLane s c pop { o := e.a, ty := e.ty } l (src l b.1)).2.2)
    (fun s c pop l =>
      let b := s.readSrc c.x pop (indexSrc e) l
      let v := fromLane s c pop { o := e.a, ty := e.ty } l (src l b.1)
      (v.1, v.2.1 || b.2.1, 0))

/-- The contributors: the lanes of `act` that are no helpers (R142). -/
def contributors (c : Iss) : List Nat := lanesOf (c.act &&& ~~~c.x.helpers)

/-- Whether two lanes lie in one segment of `.seg`: no start lies above the lower one up to the higher one (R142). -/
def oneSegment (e : Enc) (c : Iss) (a b : Nat) : Bool :=
  !e.mod.getLsbD 3 || (List.range 32).all (fun k => !(decide (min a b < k) && decide (k ≤ max a b) && predBit c e.x.toNat k))

/-- The reduction of a over some lanes, its poison and its flags. -/
def reduced (e : Enc) (s : State) (c : Iss) (pop : Popped) (op : Nat) (ls : List Nat) : Nat × Bool × Flags :=
  let v := fun l => s.readSrc c.x pop { o := e.a, ty := e.ty } l
  let r := reduce e.ty op (ls.map (fun l => (v l).1))
  (r.1, ls.any (fun l => (v l).2.1), r.2)

/-- An instruction that reduces over lanes. -/
def Reduces (i : Enc → Instr) (e : Enc) (op : Nat) (ls : Iss → Nat → List Nat) : Prop :=
  ComputesAcross (i e) (opUses [{ o := e.a, ty := e.ty }] e.d (Ty.bytes e.ty)) e [{ o := e.a, ty := e.ty }] (Ty.bytes e.ty) (Ty.bits e.ty)
    (fun _ _ => True) (readsOwn [{ o := e.a, ty := e.ty }]) (fun s c pop l => reduced e s c pop op (ls c l))

end Sys2Proof.Claims

/-- R144, R145: the five shuffles and the lane each reads. -/
def Sys2Proof.Claims.ShuffleSources : Prop :=
  ∀ e : Enc,
    Shuffles .shfi e (fun _ i => inGroup i) ∧
    Shuffles .shfx e (fun l i => if i < 32 then inGroup ((l ^^^ i : Nat) : Int) else none) ∧
    Shuffles .shfn e (fun l i =>
      let t : Int := l + (BitVec.ofNat (Ty.bits e.ty) i).toInt
      inGroup (if e.mod.getLsbD 0 then t % 32 else t)) ∧
    Shuffles .qswp e (fun l _ => inGroup ((l ^^^ (e.x.toNat % 4 + 1) : Nat) : Int)) ∧
    Shuffles .qbc e (fun l i => if i < 4 then inGroup (4 * (l / 4) + i : Nat) else none)

/-- R145, R147, R148: QRED reduces over the quad's lanes of `act`, GRED over the contributors of the lane's segment, GSCAN over those at or
below the lane, or below it under `.xadd`. -/
def Sys2Proof.Claims.Reductions : Prop :=
  ∀ e : Enc,
    let op := e.mod.toNat % 8
    Reduces .qred e op (fun c l => (lanesOf c.act).filter (fun k => k / 4 == l / 4)) ∧
    Reduces .gred e op (fun c l => (contributors c).filter (fun k => oneSegment e c k l)) ∧
    Reduces .gscan e op (fun c l => (contributors c).filter (fun k =>
      oneSegment e c k l && (if op = 6 then decide (k < l) else decide (k ≤ l))))

/-- R147: integer reductions: the sum wraps, min and max are those of the type, and, or and xor are bitwise; an empty set gives the identity. -/
def Obligations.IntegerReductions : Prop :=
  ∀ (t : Ty) (vs : List Nat), Ty.isFloat t = false → (∀ v ∈ vs, v < 2 ^ Ty.bits t) →
    reduce t 0 vs = (code t (vs.map (asInt t)).sum, 0) ∧
    reduce t 3 vs = ((List.range (Ty.bits t)).foldl (fun r i => if vs.all (fun v => v.testBit i) then r + 2 ^ i else r) 0, 0) ∧
    reduce t 4 vs = (vs.foldl (fun r v => r ||| v) 0, 0) ∧
    reduce t 5 vs = (vs.foldl (fun r v => r ^^^ v) 0, 0) ∧
    (∀ v ∈ vs, asInt t (reduce t 1 vs).1 ≤ asInt t v ∧ asInt t v ≤ asInt t (reduce t 2 vs).1) ∧
    (vs ≠ [] → (reduce t 1 vs).1 ∈ vs ∧ (reduce t 2 vs).1 ∈ vs) ∧
    reduce t 1 [] = (code t (hi t), 0) ∧ reduce t 2 [] = (code t (lo t), 0)

/-- R149, R150: MATCH writes the mask of the contributors whose a is bit-equal to the lane's own, poisoned by any contributor's; CMPK gives the
j-th lane of `act` the j-th contributor's value whose predicate bit is set, and +0 beyond the last. -/
def Sys2Proof.Claims.MatchAndCompact : Prop :=
  ∀ e : Enc,
    let q : Src := { o := e.a, ty := e.ty }
    ComputesAcross (.matchL e) (opUses [q] e.d 4) e [q] 4 32 (fun _ _ => True) (readsOwn [q]) (fun s c pop l =>
      ((maskOf ((contributors c).filter (fun k => (s.readSrc c.x pop q k).1 == (s.readSrc c.x pop q l).1))).toNat,
        (s.readSrc c.x pop q l).2.1 || (contributors c).any (fun k => (s.readSrc c.x pop q k).2.1), 0)) ∧
    ComputesAcross (.cmpk e) (opUses [q] e.d (Ty.bytes e.ty)) e [q] (Ty.bytes e.ty) (Ty.bits e.ty) (fun _ _ => True) (readsOwn [q]) (fun s c pop l =>
      match ((contributors c).filter (fun k => predBit c (predIdxOf e.b).toNat k))[((lanesOf c.act).takeWhile (fun k => k != l)).length]? with
      | some k => ((s.readSrc c.x pop q k).1, (s.readSrc c.x pop q k).2.1, 0)
      | none => (if e.ty = .ts8 then 0x77 else 0, false, 0))

/-- Shuffles, reductions, votes, MATCH and CMPK (R146, R144, R145, R147, R148, R149, R150). -/
def Obligations.CrossLane : Prop :=
  Votes ∧
  ShuffleSources ∧
  Reductions ∧
  MatchAndCompact

/-! ### Control flow (R152 to R163) -/

namespace Sys2Proof.Claims

/-- The offset of the branch form, and the priorities in A and B (R83, R156). -/
def offset (e : Enc) : Int := match e.d with | .raw f => f.toInt | _ => 0
/-- The priority of the lanes taken. -/
def takenPrio (e : Enc) : BitVec 12 := match e.a with | .raw f => f.setWidth 12 | _ => 0
/-- The priority of the lanes that fall through. -/
def fallPrio (e : Enc) : BitVec 12 := match e.b with | .raw f => f.setWidth 12 | _ => 0
/-- The priority that CALLI's immediate gives. -/
def calliPrio (e : Enc) : BitVec 12 := match e.b with | .imm k => k.setWidth 12 | _ => 0

/-- The lanes of the entry leave it: each taken lane goes to its destination with its priority, the rest to the next instruction (R153). -/
def jump (c : Iss) (taken : Mask) (dest : Nat → Int × BitVec 12) (fall : BitVec 12) (x : Group) : Group :=
  x.setFront (insertLanes
    ((lanesOf taken).foldl (fun f l => insertLanes f (BitVec.ofInt 24 (dest l).1) (dest l).2 ((1#32) <<< l)) (removeLanes x.front c.m))
    (c.ent.pc + 1) fall (c.m &&& ~~~taken))

/-- The instruction is uniform, or need not be (R155). -/
abbrev isUniform (e : Enc) (c : Iss) (dest : Nat → Int) : Prop :=
  e.uni = false ∨ c.act = 0 ∨ (c.act = c.m ∧ ∀ l ∈ lanesOf c.act, ∀ k ∈ lanesOf c.act, dest l = dest k)

/-- Every taken lane's target is a PC (R154). -/
abbrev onCode (taken : Mask) (dest : Nat → Int) : Prop := ∀ l ∈ lanesOf taken, 0 ≤ dest l ∧ dest l < 2 ^ 24

/-- The target of a branch: its PC and offset. -/
def target (e : Enc) (c : Iss) : Int := c.ent.pc.toNat + offset e

/-- The index that BRI reads in a lane: an operand-file entry as i32. -/
def briSrc (e : Enc) : Src := { o := .opf (e.x.setWidth 3), ty := .i32 }
/-- The target of BRI in a lane. -/
def briTarget (e : Enc) (s : State) (c : Iss) (l : Nat) : Int :=
  target e c + (BitVec.ofNat 32 (s.readSrc c.x [] (briSrc e) l).1).toInt

/-- The address that CALLI reads in a lane. -/
def calliSrc (e : Enc) : Src := { o := e.a, ty := .b32 }

/-- No lane of `act` has a poisoned value of a source. -/
abbrev unpoisoned (s : State) (c : Iss) (q : Src) : Prop := ∀ l ∈ lanesOf c.act, (s.readSrc c.x [] q l).2.1 = false

/-- Pushes a return entry on the stack in force of every lane of `act`. -/
def pushAll (c : Iss) (r : Ret) (s : State) : State :=
  s.modGroup c.g (fun x => (lanesOf c.act).foldl (fun x l => x.setStack l (r :: x.stack l)) x)

/-- No lane's stack is full: 16 entries outside handler mode, 4 inside (R158). -/
abbrev roomToCall (c : Iss) : Prop := ∀ l ∈ lanesOf c.act, (c.x.stack l).length < if c.x.handler then 4 else 16

/-- The top of a lane's return stack. -/
def top (c : Iss) (l : Nat) : Ret := ((c.x.stack l).head?).getD { pc := 0, prio := 0 }

/-- The operand BRI checks, and CALLI's. -/
def perLane (o : Opnd) (_ : State) (c : Iss) : List Use := [{ o := o, n := 4, lanes := c.act }]

end Sys2Proof.Claims

/-- R153, R154, R156: BRA, BRI and BEOS move the lanes of `act` (of BEOS, those whose `%eos` bit is set) to their targets with the taken
priority and the others to the next instruction; BEOS.clr clears the bits of the lanes taken. -/
def Sys2Proof.Claims.BranchesMove : Prop :=
  ∀ e : Enc,
    Performs (.bra e) false (fun _ _ => []) true e
      (fun _ c => isUniform e c (fun _ => target e c) ∧ onCode c.act (fun _ => target e c))
      (fun s c => s.modGroup c.g (jump c c.act (fun _ => (target e c, takenPrio e)) (fallPrio e))) ∧
    Performs (.bri e) false (perLane (.opf (e.x.setWidth 3))) true e
      (fun s c => unpoisoned s c (briSrc e) ∧ isUniform e c (briTarget e s c) ∧ onCode c.act (briTarget e s c))
      (fun s c => s.modGroup c.g (jump c c.act (fun l => (briTarget e s c l, takenPrio e)) (fallPrio e))) ∧
    Performs (.beos e) false (fun _ _ => []) true e
      (fun _ c => isUniform e c (fun l => if (c.act &&& c.x.sr.eos).getLsbD l then target e c else c.ent.pc.toNat + 1) ∧
        onCode (c.act &&& c.x.sr.eos) (fun _ => target e c))
      (fun s c =>
        let tk := c.act &&& c.x.sr.eos
        let s := s.modGroup c.g (jump c tk (fun _ => (target e c, takenPrio e)) (fallPrio e))
        if e.mod.getLsbD 0 then s.modGroup c.g (fun x => { x with sr := { x.sr with eos := x.sr.eos &&& ~~~tk } }) else s)

/-- R158: CALL and CALLI push the next instruction with the priority of the fall-through and move the lanes; RET pops and returns to what
it popped. -/
def Sys2Proof.Claims.CallsAndReturns : Prop :=
  ∀ e : Enc,
    Performs (.call e) false (fun _ _ => []) true e
      (fun _ c => roomToCall c ∧ isUniform e c (fun _ => target e c) ∧ onCode c.act (fun _ => target e c))
      (fun s c => pushAll c { pc := c.ent.pc + 1, prio := fallPrio e }
        (s.modGroup c.g (jump c c.act (fun _ => (target e c, takenPrio e)) (fallPrio e)))) ∧
    Performs (.calli e) false (perLane e.a) true e
      (fun s c => unpoisoned s c (calliSrc e) ∧ roomToCall c ∧ isUniform e c (fun l => ((s.readSrc c.x [] (calliSrc e) l).1 : Int)))
      (fun s c =>
        let a := fun l => s.readSrc c.x [] (calliSrc e) l
        let skips := (lanesOf c.act).foldl (fun n l => n + (a l).2.2) 0
        pushAll c { pc := c.ent.pc + 1, prio := c.ent.prio }
          ((s.modGroup c.g (fun x => x.skip skips)).modGroup c.g
            (jump c c.act (fun l => (((a l).1 % 2 ^ 24 : Nat), calliPrio e)) c.ent.prio))) ∧
    Performs (.ret e) false (fun _ _ => []) true e
      (fun _ c => (∀ l ∈ lanesOf c.act, c.x.stack l ≠ []) ∧ isUniform e c (fun l => (top c l).pc.toNat * 4096 + (top c l).prio.toNat))
      (fun s c => (s.modGroup c.g (jump c c.act (fun l => ((top c l).pc.toNat, (top c l).prio)) c.ent.prio)).modGroup c.g
        (fun x => (lanesOf c.act).foldl (fun x l => x.setStack l (x.stack l).tail) x))

/-- Branches, calls and returns move their lanes (R153, R154, R156, R158). -/
def Obligations.Branches : Prop :=
  BranchesMove ∧
  CallsAndReturns

/-- R153: lanes that go to one PC with one priority go there together, join an entry that holds it, and the entry takes the larger
priority; a lane that leaves is in no other entry. -/
def Obligations.LanesMove : Prop :=
  ∀ (f : List Ent) (pc : BitVec 24) (prio : BitVec 12) (m : Mask),
    (lanesOf m).foldl (fun f l => insertLanes f pc prio ((1#32) <<< l)) f = insertLanes f pc prio m ∧
    (∀ e ∈ removeLanes f m, e.mask &&& m = 0 ∧ e.mask ≠ 0) ∧
    (m ≠ 0 → ∃ e ∈ insertLanes f pc prio m, e.pc = pc ∧ e.mask &&& m = m ∧ prio ≤ e.prio) ∧
    (∀ e ∈ insertLanes f pc prio m, e ∈ f ∨ (e.pc = pc ∧ m ≠ 0)) ∧
    (∀ (g : List Ent) (l : Nat), (∀ e ∈ g, e.mask.getLsbD l = true → m.getLsbD l = false → ∃ e' ∈ insertLanes (removeLanes g m) pc prio m,
      e'.pc = e.pc ∧ e'.mask.getLsbD l = true))

/-- R154, R155, R156, R158: what stops a branch before any lane moves: lanes that disagree raise UNIFORMITY for all of the entry's lanes, a
target that is no PC raises FETCH_BOUNDS for the lanes that would go to it, a full stack CALL_DEPTH, an empty one RET_EMPTY, a
poisoned index or address POISON_CONSUMED. -/
def Obligations.BranchStops : Prop :=
  ∀ e : Enc,
    Stops (.bra e) false (fun _ _ => []) e (fun _ c => ¬isUniform e c (fun _ => target e c)) (fun _ c => .plain cUNIFORMITY c.m) ∧
    Stops (.bra e) false (fun _ _ => []) e
      (fun _ c => isUniform e c (fun _ => target e c) ∧ c.act ≠ 0 ∧ (target e c < 0 ∨ 2 ^ 24 ≤ target e c))
      (fun _ c => .plain cFETCH_BOUNDS c.act) ∧
    Stops (.bri e) false (perLane (.opf (e.x.setWidth 3))) e
      (fun s c => unpoisoned s c (briSrc e) ∧ isUniform e c (briTarget e s c) ∧ ¬onCode c.act (briTarget e s c))
      (fun s c => .plain cFETCH_BOUNDS
        (maskOf ((lanesOf c.act).filter (fun l => decide (briTarget e s c l < 0 ∨ 2 ^ 24 ≤ briTarget e s c l))))) ∧
    Stops (.bri e) false (perLane (.opf (e.x.setWidth 3))) e (fun s c => ¬unpoisoned s c (briSrc e))
      (fun s c => .plain cPOISON_CONSUMED (maskOf ((lanesOf c.act).filter (fun l => (s.readSrc c.x [] (briSrc e) l).2.1)))) ∧
    Stops (.call e) false (fun _ _ => []) e (fun _ c => ¬roomToCall c) (fun _ c => .plain cCALL_DEPTH c.act) ∧
    Stops (.calli e) false (perLane e.a) e (fun s c => unpoisoned s c (calliSrc e) ∧ ¬roomToCall c)
      (fun _ c => .plain cCALL_DEPTH c.act) ∧
    Stops (.ret e) false (fun _ _ => []) e (fun _ c => ∃ l ∈ lanesOf c.act, c.x.stack l = []) (fun _ c => .plain cRET_EMPTY c.act)

namespace Sys2Proof.Claims

/-- A count or a value that every lane of `act` has alike (R152: U). -/
def uni (s : State) (c : Iss) (o : Opnd) (t : Ty) : Nat × Bool :=
  ((s.readSrc c.x [] { o := o, ty := t } (lowLane c.act)).1, (s.readSrc c.x [] { o := o, ty := t } (lowLane c.act)).2.1)

/-- The checks of such operands. -/
def uniChecks (os : List Opnd) (_ : State) (c : Iss) : List Use := os.map (fun o => { o := o, n := 8, lanes := c.act })

/-- The group changes. -/
def upd (s : State) (c : Iss) (f : Group → Group) : State := s.modGroup c.g f

/-- No capture and no replay observes what groups read (R432, R433). -/
abbrev Unlogged (s : State) : Prop := s.caps = [] ∧ s.replays = []

/-- A scalar destination takes a value of 64 bits. -/
def scalTo (s : State) (c : Iss) (d : Opnd) (v : Nat) : State :=
  upd s c (fun x => x.setScal (match d with | .scal k => k.toNat | _ => 0) v 64 false)

/-- The lanes of an EXIT that hold open copies. -/
def sealing (c : Iss) : List Nat := (lanesOf (c.act &&& ~~~c.x.helpers)).filter (fun l => decide (0 < (c.x.lane l).openN))

end Sys2Proof.Claims

/-- R152, R161, R162, R163: NOP only moves on; YIELD marks the group for 64 cycles and acts as the YLD hint; SLEEP makes it sleep for its
count, at most 2^24 cycles, 0 for a NOP; HBEAT restarts the watchdog's interval unless helpers alone execute it. -/
def Sys2Proof.Claims.YieldSleepHeartbeat : Prop :=
  ∀ e : Enc,
    Performs (.nop e) false (fun _ _ => []) false e (fun _ _ => True) (fun s _ => s) ∧
    Performs (.yield e) false (fun _ _ => []) false { e with yld := true } (fun _ _ => True)
      (fun s c => upd s c (fun x => { x with yieldEnd := some (s.cycle + 64) })) ∧
    Performs (.sleep e) false (uniChecks [e.a]) false e (fun s c => c.act = 0 ∨ (uni s c e.a .b32).2 = false)
      (fun s c => if c.act = 0 ∨ (uni s c e.a .b32).1 = 0 then s
        else upd s c (fun x => { x with sleepEnd := some (s.cycle + min (uni s c e.a .b32).1 (2 ^ 24)) })) ∧
    Performs (.hbeat e) false (fun _ _ => []) false e (fun _ _ => True)
      (fun s c => if c.act &&& ~~~c.x.helpers = 0 then s else upd s c (fun x => { x with wd := { x.wd with w := 0 } })) ∧
    ∀ (s : State) (g : Nat) (x : Group) (t : Nat), s.group? g = some x →
      (x.yieldEnd = some t → t ≤ s.cycle → exec (.yieldMarkExpiry g) s = .next (s.setGroup g { x with yieldEnd := none })) ∧
      (x.sleepEnd = some t → t ≤ s.cycle → x.st ≠ .saved → exec (.sleepExpiry g) s = .next (s.setGroup g { x with sleepEnd := none })) ∧
      (x.sleepEnd = some t → s.cycle < t → exec (.sleepExpiry g) s = .next (s.setGroup g x))

/-- R159, R160, R205: EXIT outside handler mode: held while a port is locked or a lane's batches are all outstanding; else the lanes'
open copies are sealed, the team gives out its next items, and the lanes go on as `exitLanes` says; a group whose lanes are all empty
drains. In handler mode it raises HANDLER_EXIT. -/
def Sys2Proof.Claims.ExitIssues : Prop :=
  ∀ e : Enc,
    Performs (.exit e) false (fun _ _ => []) true e
      (fun s c => c.x.handler = false ∧ s.portLocked c.g c.x.core = false ∧ (∀ l ∈ sealing c, (c.x.lane l).outstanding < 8) ∧ Unlogged s)
      (fun s c =>
        let s := (sealing c).foldl (fun s l => s.seal c.g l) s
        let t := s.teamOf c.x
        let h := (s.launchOf c.x).hdr
        let avail := t.first + t.count - t.next
        let taken := min avail (lanesOf (c.act &&& ~~~c.x.helpers)).length
        let s := s.modTeam c.x.team (fun q => { q with next := q.next + taken })
        let s := upd s c (fun x => x.exitLanes c.act c.m t.next avail c.ent.pc c.ent.prio h.refill h.refPrio)
        let s := if c.act &&& ~~~c.x.helpers = 0 then s else upd s c (fun x => { x with wd := { x.wd with w := 0 } })
        upd s c (fun x => if x.empties = ~~~0 then { x with st := .draining } else x)) ∧
    HeldBack (.exit e) false (fun _ _ => []) e
      (fun s c => c.x.handler = false ∧ (s.portLocked c.g c.x.core = true ∨ ∃ l ∈ sealing c, 8 ≤ (c.x.lane l).outstanding)) ∧
    Stops (.exit e) false (fun _ _ => []) e (fun _ c => c.x.handler = true)
      (fun _ c => .plain cHANDLER_EXIT (if c.act = 0 then c.m else c.act))

/-- R159: the lanes of an EXIT: of the live lanes of `act` in ascending order, as many as there are items take the next ones, with the age
one higher, an empty return stack and `%eos` clear; any other lane of `act` becomes a helper while its quad keeps a live lane, and
empty otherwise; helpers of a quad without a live lane become empty; every other lane stays what it is. -/
def Sys2Proof.Claims.ExitLanes : Prop :=
  ∀ (x : Group) (act m : Mask) (next avail : Nat) (pc rpc : BitVec 24) (prio rprio : BitVec 12) (l : Nat), l < 32 →
    let y := x.exitLanes act m next avail pc prio rpc rprio
    let live := lanesOf (act &&& x.live)
    let refilled := live.take avail
    let stays := fun k => refilled.contains k || ((x.lane k).st == .live && !act.getLsbD k)
    let quadLive := (List.range 4).any (fun k => stays (4 * (l / 4) + k))
    (l ∈ refilled → (y.lane l).st = .live ∧ (y.lane l).item = BitVec.ofNat 32 (next + refilled.idxOf l) ∧
      (y.lane l).age = (x.lane l).age + 1 ∧ (y.lane l).rstk = [] ∧ y.sr.eos.getLsbD l = false ∧ (y.lane l).rstate = (x.lane l).rstate) ∧
    (act.getLsbD l = true → l ∉ refilled → quadLive = true →
      (y.lane l).st = .helper ∧ (y.lane l).item = 0xFFFFFFFF ∧ (y.lane l).rstk = []) ∧
    (act.getLsbD l = true → l ∉ refilled → quadLive = false → (y.lane l).st = .empty) ∧
    (act.getLsbD l = false → (y.lane l).st = if (x.lane l).st = .helper ∧ quadLive = false then .empty else (x.lane l).st)

/-- NOP, YIELD, SLEEP, HBEAT and EXIT (R152, R161, R162, R163, R159, R160, R205). -/
def Obligations.ExitYieldSleep : Prop :=
  YieldSleepHeartbeat ∧
  ExitIssues ∧
  ExitLanes

/-! ### Traps, the handler, system registers (R164 to R176, R273) -/

namespace Sys2Proof.Claims

/-- The instructions that are privileged (R93, R166 to R174), SWR by its destination (R69, R165). -/
def privileged : Instr → Bool
  | .rft _ | .endg _ | .tlbi _ | .rply _ | .errd _ | .wdset _ => true
  | .msync e => e.mod.getLsbD 0
  | .swr e => match e.d with
    | .sys .tvec | .sys .split | .sys .tcause | .sys .tpc | .sys .tprio | .sys .tmask | .sys .tinfo => true
    | _ => false
  | _ => false

/-- A group whose chosen entry a cause may be raised for now. -/
abbrev trappable (s : State) (g : Nat) (x : Group) (e : Ent) (mask : Mask) : Prop :=
  s.unitBusy g x = false ∧ s.group? g = some x ∧ x.chosen = some e ∧ (x.st = .active ∨ x.st = .pending ∨ x.st = .draining) ∧ mask ≠ 0 ∧ mask &&& ~~~e.mask = 0

/-- What trap entry leaves of a group (R165): the trap registers, the handler's sole entry at the slot of the cause, the copy of the
last-result file, no long-latency instruction, no open window, empty handler stacks, and everything else as the completion of the
outstanding instructions left it, with an entry of its log where the team is captured (R432). -/
def enteredHandler (x y : Group) (cause : BitVec 9) (e : Ent) (mask : Mask) (info : Word64) : Prop :=
  y = { x.completeAll with
    handler := true, held := false, sketch := none,
    frontier := removeLanes x.frontier mask,
    hfrontier := [{ pc := BitVec.ofNat 24 (64 * cause.toNat), prio := 0xFFF, mask := mask }],
    sr := { x.completeAll.sr with trap := { cause := cause, pc := e.pc, prio := e.prio, mask := mask, info := info } },
    rf := { x.completeAll.rf with lsave := x.completeAll.rf.lf },
    lanes := y.lanes, capSeq := y.capSeq } ∧
  (∀ l, y.lane l = { x.lane l with hstk := if l < 32 then [] else (x.lane l).hstk }) ∧
  y.pend = [] ∧ ∀ q ∈ y.cvts, q.window = 0

end Sys2Proof.Claims

/-- R165: taking an exception outside handler mode, whatever trapping cause of R425 it is: the cause, the PC and the priority of the entry, the lanes and the
cause's word go into the trap registers; the lanes leave their entry and stand alone at `%tvec` + 768 × cause. -/
def Sys2Proof.Claims.EntryToHandler : Prop :=
  ∀ (s : State) (g : Nat) (x : Group) (e : Ent) (cause : BitVec 9) (mask : Mask) (info : Word64),
    trappable s g x e mask → raisable cause = true → x.handler = false →
    ∃ t y, exec (.trapEntry g cause mask info) s = .next t ∧ t.group? g = some y ∧ enteredHandler x y cause e mask info ∧
      t.fetchVa y (64 * cause.toNat) = y.sr.tvec.toNat + 768 * cause.toNat

/-- R168, R273: a trapping cause in handler mode freezes the group in its handler with the entering cause kept; a running context becomes FAULTED with
the two causes; a context that is FAULTED already keeps its causes. -/
def Sys2Proof.Claims.DoubleFault : Prop :=
  ∀ (s : State) (g : Nat) (x : Group) (e : Ent) (cause : BitVec 9) (mask : Mask) (info : Word64),
    trappable s g x e mask → raisable cause = true → x.handler = true →
    ∃ t y, exec (.trapEntry g cause mask info) s = .next t ∧ t.group? g = some y ∧
      y.st = .frozen ∧ y.handler = true ∧ y.sr.trap = x.sr.trap ∧ y.hfrontier = x.hfrontier ∧ y.frontier = x.frontier ∧ y.pend = [] ∧
      ((s.ctx x.ctx).st = .idle ∨ (s.ctx x.ctx).st = .active →
        (t.ctx x.ctx).st = .faulted ∧ (t.ctx x.ctx).fcause = cause ∧ (t.ctx x.ctx).pcause = x.sr.trap.cause) ∧
      ((s.ctx x.ctx).st = .faulted → (t.ctx x.ctx).st = .faulted ∧ (t.ctx x.ctx).fcause = (s.ctx x.ctx).fcause ∧
        (t.ctx x.ctx).pcause = (s.ctx x.ctx).pcause)

/-- R240, R316: a cause that a group did not raise itself is delivered at an issue boundary outside handler mode, a matrix cause before the
watchdog's; the chosen entry becomes the handler's; a barrier wait is set aside; the watchdog's delivery starts the second
interval (R431). -/
def Sys2Proof.Claims.AsynchronousDelivery : Prop :=
  ∀ (s : State) (g : Nat) (x : Group) (e : Ent) (a : Async),
    s.group? g = some x → x.chosen = some e → x.takesAsync = true → s.mayRun x = true → s.unitBusy g x = false →
    (x.asyncMat = some a ∨ (x.asyncMat = none ∧ x.asyncWd = some a)) →
    ∃ t y, exec (.asyncCauseDelivery g) s = .next t ∧ t.group? g = some y ∧
      y.handler = true ∧ y.sr.trap = { cause := a.cause, pc := e.pc, prio := e.prio, mask := e.mask, info := a.info } ∧
      y.hfrontier = insertLanes [] (BitVec.ofNat 24 (64 * a.cause.toNat)) 0xFFF e.mask ∧ y.asyncMat = none ∧
      y.asyncWd = (if x.asyncMat.isSome then x.asyncWd else none) ∧ y.wait = none ∧
      (x.asyncMat = none → y.wd.second = some (if a.info.getLsbD 0 then 65536 else x.wd.interval))

/-- Taking an exception, a double fault, asynchronous delivery (R165, R168, R273, R240, R316, R431). -/
def Obligations.TrapEntry : Prop :=
  EntryToHandler ∧
  DoubleFault ∧
  AsynchronousDelivery

/-- R80, R89, R92: a word that decode rejects raises its own cause, and a PC beyond the code raises FETCH_BOUNDS, for the lanes of the chosen
entry. -/
def Sys2Proof.Claims.WordTraps : Prop :=
  ∀ (s : State) (x : Group) (e : Ent) (why : DecodeCause),
    s.group? s.cur = some x → x.chosen = some e → x.issuable = true → s.mayRun x = true → s.unitBusy s.cur x = false →
    let m := e.mask &&& ~~~x.empties
    let cause : BitVec 9 := match why with
      | .illegalOpcode => 0x001 | .fillOpcode => 0x002 | .illegalClass => 0x003 | .illegalType => 0x004 | .illegalHint => 0x005
      | .illegalMod => 0x006 | .illegalRounding => 0x007 | .illegalSysreg => 0x008
    exec (.illegalOpcode why) s = .next ((s.takeTrap s.cur cause m 0 0).capAppend s.cur 8 e.pc.toNat m []) ∧
    ((if x.handler then 32768 else (s.launchOf x).hdr.codeLen) ≤ e.pc.toNat →
      exec .fetchBounds s = .next ((s.takeTrap s.cur 0x00F m 0 0).capAppend s.cur 8 e.pc.toNat m []))

/-- R93, R168: outside handler mode a privileged instruction raises PRIV for the lanes of its entry, before any other check of issue. -/
def Sys2Proof.Claims.PrivilegeTrap : Prop :=
  ∀ (i : Instr) (op : Nat) (e : Enc) (s : State) (c : Iss), i.parts = some (op, e) → privileged i = true →
    s.iss? e = some c → c.x.issuable = true → s.mayRun c.x = true → c.x.engineWait = false → s.unitBusy c.g c.x = false →
    c.x.handler = false → exec i s = .next ((s.takeTrap c.g 0x009 c.m 0 0).capAppend c.g 8 c.ent.pc.toNat c.m [])

/-- R84, R87: with the guard `!p15` every instruction that may execute is a NOP: it counts as issued, its lanes move on, its YLD hint acts. -/
def Sys2Proof.Claims.GuardNever : Prop :=
  ∀ (i : Instr) (op : Nat) (e : Enc) (s : State) (c : Iss), i.parts = some (op, e) → e.neg = true → e.grd = 15 →
    s.iss? e = some c → c.x.issuable = true → s.mayRun c.x = true → c.x.engineWait = false → s.unitBusy c.g c.x = false →
    (privileged i = true → c.x.handler = true) →
    exec i s = .next ((s.setGroup c.g c.x.countWindows).finish c e false)

/-- R164: TRAP raises TRAP for the lanes of `act` with its code in `%tinfo`; BRK raises BREAKPOINT while the context's debug enable is 0, and
else stops the group and signals the host; over an empty `act` both only move on. -/
def Sys2Proof.Claims.TrapAndBreak : Prop :=
  ∀ e : Enc,
    Stops (.trap e) false (fun _ _ => []) e (fun _ c => c.act ≠ 0)
      (fun _ c => .trap 0x012 c.act (match e.a with | .imm k => (k.setWidth 12 : BitVec 12).setWidth 64 | _ => 0) 0) ∧
    Performs (.trap e) false (fun _ _ => []) false e (fun _ c => c.act = 0) (fun s _ => s) ∧
    Stops (.brk e) false (fun _ _ => []) e (fun s c => c.act ≠ 0 ∧ (s.ctx c.x.ctx).desc.dbg = false) (fun _ c => .plain 0x013 c.act) ∧
    Performs (.brk e) false (fun _ _ => []) false e (fun _ c => c.act = 0) (fun s _ => s) ∧
    Ends (.brk e) false (fun _ _ => []) e (fun s c => c.act ≠ 0 ∧ (s.ctx c.x.ctx).desc.dbg = true)
      (fun s c => (upd s c (fun x => { x with st := .stopped })).notify)

/-- R166: RFT ends handler mode, discards the handler's entries, restores the last-result file, and inserts the lanes of `%tmask` that are not
empty at `%tpc`, or one beyond it under `.skip`, with `%tprio`; outside handler mode the trap registers read zero. -/
def Sys2Proof.Claims.ReturnFromTrap : Prop :=
  (∀ e : Enc,
    Performs (.rft e) true (fun _ _ => []) true e (fun _ c => c.act ≠ 0) (fun s c =>
      ((upd s c (fun x => x.returnFromTrap (e.mod.getLsbD 0))).resumeMatrix c.g c.x.core).resumeWait c.g) ∧
    Performs (.rft e) true (fun _ _ => []) true e (fun _ c => c.act = 0) (fun s c =>
      upd s c (fun x => x.moveLanes c.m (c.ent.pc + 1) c.ent.prio))) ∧
  ∀ (x : Group) (skip : Bool),
    let y := x.returnFromTrap skip
    let t := x.sr.trap
    y.handler = false ∧ y.hfrontier = [] ∧ y.rf = { x.rf with lf := x.rf.lsave } ∧ y.sr = { x.sr with trap := {} } ∧
    y.frontier = insertLanes x.frontier (if skip then t.pc + 1 else t.pc) t.prio (t.mask &&& ~~~x.empties) ∧
    (∀ l, y.lane l = { x.lane l with hstk := if l < 32 then [] else (x.lane l).hstk }) ∧ y.ports = x.ports ∧ y.pend = x.pend ∧
    ∀ (s : State) (l : Nat), ∀ r ∈ [SysReg.tcause, .tpc, .tprio, .tmask, .tinfo], s.sysRead y r l = 0

/-- R167: ENDG empties every lane, seals their open copies, discards every entry, ends handler mode, leaves the team BROKEN, its untaken items
where they are, and the group draining; last it writes one record: GROUP_ENDED of severity CONTAINED, with the cause in `%tcause` as SCAUSE. -/
def Sys2Proof.Claims.EndGroup : Prop :=
  (∀ e : Enc,
    Performs (.endg e) true (fun _ _ => []) true e (fun _ c => c.act ≠ 0) (fun s c => s.endGroup c.g) ∧
    Performs (.endg e) true (fun _ _ => []) true e (fun _ c => c.act = 0) (fun s c =>
      upd s c (fun x => x.moveLanes c.m (c.ent.pc + 1) c.ent.prio))) ∧
  ∀ (s : State) (g : Nat) (x : Group) (q : Team), s.group? g = some x → s.team? x.team = some q →
    (∃ y, (s.endGroup g).group? g = some y ∧ y.st = .draining ∧ y.handler = false ∧ y.frontier = [] ∧ y.hfrontier = [] ∧
      (∀ l, l < 32 → (y.lane l).st = .empty ∧ (y.lane l).openN = 0) ∧ y.wait = none ∧ y.pend = []) ∧
    (∃ q', (s.endGroup g).team? x.team = some q' ∧ q'.broken = true ∧ q'.next = q.next) ∧
    ∃ (t : State) (r : ErrRec), s.endGroup g = t.writeErr r ∧ r.cause = 0x016 ∧ r.sev = 2 ∧ r.ctxn = x.ctx ∧ r.group = x.num ∧
      r.scause = if x.handler then x.sr.trap.cause else 0

/-- TRAP, BRK, RFT and ENDG (R164, R166, R167). -/
def Obligations.TrapsAndReturns : Prop :=
  TrapAndBreak ∧
  ReturnFromTrap ∧
  EndGroup

/-- R169, R204: SRD reads a system register in each lane of `act`, in the width of the type; of a write pointer it is an acquire, which is
held until the positions delivered by its core's channels are performed. No capture or replay observes the read. -/
def Sys2Proof.Claims.SystemRegisterRead : Prop :=
  (∀ (e : Enc) (k : BitVec 3), e.a = .sys (.wp k) →
    HeldBack (.srd e) false (opUses [] e.d (Ty.bytes e.ty)) e
      (fun s c => c.act ≠ 0 ∧ ∃ n, n < 8 ∧ (s.grantUpTo (whoCore c.x.core)).unperformed (chanAgent c.x.core n) = true)) ∧
  ∀ (e : Enc) (r : SysReg) (s : State) (c : Iss) (w : State), e.a = .sys r → Unlogged s → CanIssue s e c → NoStop s e c (opUses [] e.d (Ty.bytes e.ty) s c) →
    let us := opUses [] e.d (Ty.bytes e.ty) s c
    let c' := c.passed s us
    let src : Src := { o := e.a, ty := e.ty }
    let isWp := match r with | .wp _ => true | _ => false
    let own := (s.begun c us).grantUpTo (whoCore c'.x.core)
    (isWp = true → c'.act ≠ 0 → ∀ n, n < 8 → own.unperformed (chanAgent c'.x.core n) = false) →
    let s1 := if isWp = true ∧ c'.act ≠ 0 then own.acquire c.g 1 else s.begun c us
    let outs : List (Nat × LaneOut) :=
      (computeLanes e.d c'.act).map (fun l => (l, { v := s1.sysRead c'.x r l % 2 ^ Ty.bits e.ty, p := false, rs := c'.x.rstate l }))
    (s1.laneFlags e.d [src] c' [] outs).putResults c' e.d (Ty.bytes e.ty) (Ty.bits e.ty)
      (outs.map (fun (o : Nat × LaneOut) => { lane := o.1, v := o.2.v, p := o.2.p })) none = .ok w →
    exec (.srd e) s = .next (w.finish c' e false)

/-- R170: SWR writes the uniform value to the register that D names, and nothing over an empty `act`; a bit that hardware set in the same cycle
stays set (`hwTie`, below); `%split` belongs to the context. A poisoned value raises POISON_CONSUMED. -/
def Sys2Proof.Claims.SystemRegisterWrite : Prop :=
  ∀ (e : Enc) (r : SysReg), e.d = .sys r →
    let priv := privileged (.swr e)
    Performs (.swr e) priv (uniChecks [e.a]) false e (fun s c => c.act = 0 ∨ (uni s c e.a e.ty).2 = false)
      (fun s c => if c.act = 0 then s
        else if r = .split then s.modCtx c.x.ctx (fun q => { q with split := BitVec.ofNat 2 (uni s c e.a e.ty).1 })
        else upd s c (fun x => x.hwTie (x.sysWrite r (BitVec.ofNat 64 (uni s c e.a e.ty).1)) s.cycle r)) ∧
    Stops (.swr e) priv (uniChecks [e.a]) e (fun s c => c.act ≠ 0 ∧ (uni s c e.a e.ty).2 = true) (fun _ c => .plain cPOISON_CONSUMED c.act)

/-- R4, R52, R53, R62, R69, R165, R268: what a write does to each system register of a group: write-one-to-clear for `%eos` and the flags
of `%fstat`, reserved bits kept zero in a view, the seed's effect on every lane's rounding state, the low bits of `%tpc` and
`%tprio`, the aligned bits of `%tvec`; the others only read. A bit of `%eos` or `%fstat` that hardware set in the cycle of the write ends set. -/
def Sys2Proof.Claims.SystemRegisterEffects : Prop :=
  ∀ (x : Group) (v : Word64),
    (∀ b, b < 32 → (x.sysWrite .eos v).sr.eos.getLsbD b = (x.sr.eos.getLsbD b && !v.getLsbD b)) ∧
    (∀ b, b < 64 → (x.sysWrite .fstat v).sr.fstat.getLsbD b = (x.sr.fstat.getLsbD b && !(v.getLsbD b && decide (b < 5)))) ∧
    (∀ (k : BitVec 2) (b : Nat), b < 64 →
      (cget 0 (x.sysWrite (.vw k) v).rf.vw k.toNat).getLsbD b = (v.getLsbD b && !decide (12 ≤ b ∧ b < 16))) ∧
    (x.sysWrite .seed v).sr.seed = v.setWidth 32 ∧
    (∀ l, l < 32 → ((x.sysWrite .seed v).lane l).rstate =
      if (v.setWidth 32 : Word32) = BitVec.ofNat 32 l then 0xFFFFFFFF else v.setWidth 32 ^^^ BitVec.ofNat 32 l) ∧
    (∀ b, b < 64 → (x.sysWrite .tvec v).sr.tvec.getLsbD b = (v.getLsbD b && decide (12 ≤ b ∧ b < 55))) ∧
    (x.sysWrite .tpc v).sr.trap.pc = v.setWidth 24 ∧ (x.sysWrite .tprio v).sr.trap.prio = v.setWidth 12 ∧
    (∀ r ∈ [SysReg.lane, .item, .age, .helper, .live, .cdepth, .zskip, .place, .step, .scrbase, .clubase, .prvbase, .capbase, .wp 0, .team,
        .group, .clu, .cluteam, .trange, .tcause, .tmask, .tinfo], x.sysWrite r v = x) ∧
    (∀ (r : SysReg) (y : Group) (n : Nat), (∀ h, x.hwSet = some h → h.cycle ≠ n) → x.hwTie y n r = y) ∧
    (∀ (r : SysReg) (y : Group) (n : Nat), r ≠ .eos → r ≠ .fstat → x.hwTie y n r = y) ∧
    ∀ h, x.hwSet = some h →
      (∀ b, b < 32 → (x.hwTie (x.sysWrite .eos v) h.cycle .eos).sr.eos.getLsbD b =
        (x.sr.eos.getLsbD b && (!v.getLsbD b || h.eos.getLsbD b))) ∧
      ∀ b, b < 64 → (x.hwTie (x.sysWrite .fstat v) h.cycle .fstat).sr.fstat.getLsbD b =
        (x.sr.fstat.getLsbD b && (!(v.getLsbD b && decide (b < 5)) || h.fstat.getLsbD b))

/-- Reading and writing system registers (R169, R204, R170, R4, R52, R53, R62, R69, R165, R268). -/
def Obligations.SystemRegisters : Prop :=
  SystemRegisterRead ∧
  SystemRegisterWrite ∧
  SystemRegisterEffects

/-- R171, R172, R173, R174: TLBI removes the translations that its form and scope name and waits until they are acknowledged; RPLY wakes the
groups parked under an entry and counts them; ERRD writes the oldest record, or zeros, and `.pop` removes it; WDSET arms or disarms
the watchdog with at most 2^20 × 1,024 cycles. -/
def Sys2Proof.Claims.PrivilegedInstructions : Prop :=
  ∀ e : Enc,
    Ends (.tlbi e) true (uniChecks [e.a, e.b]) e
      (fun s c => c.act ≠ 0 ∧ (uni s c e.a .b64).2 = false ∧ (uni s c e.b .b64).2 = false)
      (fun s c =>
        let form := e.mod.toNat % 4
        let asid : BitVec 16 := BitVec.ofNat 16 (uni s c e.a .b64).1
        let va := (uni s c e.b .b64).1 % 2 ^ 55
        let gone := fun (t : TlbEnt) => tlbInScope (if e.x.toNat % 8 = 3 then some (dieOf c.x.core) else none) t &&
          (form == 0 || (t.asid == asid && (form == 1 || (t.unit != 4 && t.tag == va >>> lvlShift t.level))))
        ({ s with tlbs := s.tlbs.filter (fun t => !gone t), wcache := s.wcache.filter (fun t => !gone t) }).waitOn c e .tlbi) ∧
    Performs (.rply e) true (fun s c => { o := e.d, n := 8, lanes := c.act, dest := true } :: uniChecks [e.a, e.b] s c) false e
      (fun _ _ => True) (fun s c =>
        let a := (uni s c e.a .b64).1
        let r := s.reply (dieOf c.x.core)
          (if e.mod.getLsbD 0 then .token a else .page (BitVec.ofNat 16 a) ((uni s c e.b .b64).1 % 2 ^ 55 / 2 ^ 16))
        if c.act = 0 then s else scalTo r.1.resumeAll c e.d r.2) ∧
    (∀ a, e.d = .rs a →
      Performs (.errd e) true (fun _ c => [{ o := e.d, n := 64, lanes := c.act, dest := true }]) false e (fun _ _ => True) (fun s c =>
        let q := s.ctx c.x.ctx
        let bytes := if q.errq.count = 0 then List.replicate 64 0 else s.memBytes (q.desc.errqb + 64 * (q.errq.head % q.desc.errqn)) 64
        let t := upd s c (fun x => x.rswrite a.toNat 64 (leNat bytes) false)
        if c.act = 0 then s
        else if e.mod.getLsbD 0 then t.modCtx c.x.ctx (fun q => { q with errq := if q.errq.count = 0 then q.errq else
          { q.errq with head := (q.errq.head + 1) % q.desc.errqn, count := q.errq.count - 1 } })
        else t)) ∧
    Performs (.wdset e) true (uniChecks [e.a]) false e (fun s c => c.act = 0 ∨ (uni s c e.a .b64).2 = false) (fun s c =>
      let a := (uni s c e.a .b64).1
      if c.act = 0 then s
      else upd s c (fun x => { x with wd := { x.wd with
        armed := a != 0, w := 0, interval := min a (2 ^ 20) * 1024, expired := false,
        second := if e.mod.getLsbD 0 then none else x.wd.second } })) ∧
    ∀ (s : State) (g : Nat) (x : Group) (w : Wait), s.group? g = some x → x.wait = some w → w.kind = .tlbi →
      exec (.tlbiAck g) s = .next (s.setGroup g (x.endWait w))

/-- R175, R176: TIME gives the 1 GHz timebase, or the cycle count; PMCRD a counter of the core, 0 for one that does not exist. No capture or
replay observes the read. -/
def Sys2Proof.Claims.TimeAndCounters : Prop :=
  ∀ e : Enc,
    Performs (.timeI e) false (fun _ c => [{ o := e.d, n := 8, lanes := c.act, dest := true }]) false e (fun s _ => Unlogged s)
      (fun s c => if c.act = 0 then s else scalTo s c e.d (if e.mod.getLsbD 0 then s.cycle % 2 ^ 64 else s.timebase.toNat)) ∧
    Performs (.pmcrd e) false (fun s c => { o := e.d, n := 8, lanes := c.act, dest := true } :: uniChecks [e.a] s c) false e
      (fun s c => Unlogged s ∧ (c.act = 0 ∨ (uni s c e.a .b64).2 = false))
      (fun s c =>
        let k := (uni s c e.a .b64).1
        if c.act = 0 then s else scalTo s c e.d (if k < 10 then (cget 0 (s.core c.x.core).pmc k).toNat else 0))

/-- TLBI, RPLY, ERRD, WDSET, TIME and PMCRD (R171, R172, R173, R174, R175, R176). -/
def Obligations.PrivilegedOperations : Prop :=
  PrivilegedInstructions ∧
  TimeAndCounters

/-! ### Memory (R177 to R192, R329, R341) -/

namespace Sys2Proof.Claims

/-- The effective addresses of an access (R177). -/
def eas (e : Enc) (offset : Bool) (s : State) (c : Iss) : List (Nat × Nat × Bool × Nat) := s.effAddrs c e offset (accLanes e c)

/-- The checks of the operands of a load, and of a store. -/
def loadUses (e : Enc) (n : Nat) (_ : State) (c : Iss) : List Use :=
  { o := e.d, n := n, lanes := c.act, dest := true } :: { o := e.a, n := 8, lanes := c.act, exact := true } :: [{ o := e.b, n := 4, lanes := c.act }]
/-- The checks of a store's operands: D is a source. -/
def storeUses (e : Enc) (n : Nat) (_ : State) (c : Iss) : List Use :=
  { o := e.d, n := n, lanes := c.act } :: { o := e.a, n := 8, lanes := c.act, exact := true } :: [{ o := e.b, n := 4, lanes := c.act }]
/-- The checks of a packed block's operands (R186). -/
def packUses (e : Enc) (dest : Bool) (_ : State) (c : Iss) : List Use :=
  { o := e.d, n := 8 * 2 ^ (e.mod.toNat / 4), lanes := c.act, dest := dest, block := true } :: { o := e.a, n := 8, lanes := c.act, exact := true } ::
    [{ o := e.b, n := 4, lanes := c.act }]

/-- A byte of device memory as it will stand when the pending write requests have been granted (R341). -/
def settled (s : State) (a : Nat) : List Byte := s.grantAll.memBytes a 1

/-- The bytes that a store writes: those of its places, and of the leaf entries whose dirty bit it sets (R358). -/
def storedTo (pls : List (LaneAcc × Place)) (a : Nat) : Prop :=
  ∃ p ∈ pls, ∃ segs, p.2 = .mem segs ∧ ∃ q ∈ segs, (q.pa ≤ a ∧ a < q.pa + q.n) ∨ (q.addr ≠ noEntry ∧ q.addr ≤ a ∧ a < q.addr + 8)

/-- The values of a byte that are on their way to memory: those of the pending write requests, and the dirty ones of the copies in an
L2. -/
def onTheWay (s : State) (a : Nat) : List Byte :=
  s.mergeQ.filterMap (fun r => if r.scr = none ∧ r.pa ≤ a then r.bytes[a - r.pa]? else none) ++
    (s.line (a / 128)).l2c.filterMap (fun q => if q.2.dirty.testBit (a % 128) then some (BitVec.ofNat 8 (q.2.v / 2 ^ (8 * (a % 128)))) else none)

/-- The data of a store in a lane that makes an access, its poison, and the words skipped in reading it. -/
def stData (e : Enc) (s : State) (c : Iss) (l : Nat) : Nat × Bool × Nat := if l ∈ accLanes e c then s.storeData c e l else (0, false, 0)

/-- The state once a store has read its operands, and once what must be performed before it has been: the release that its ordering asks
for, and the group's own writes that a fence or a release has put before it (R256, R336). -/
def storeRead (e : Enc) (s : State) (c : Iss) : State :=
  upd s c (fun x => x.skip (skipsOf (eas e true s c) + (accLanes e c).foldl (fun m l => m + (stData e s c l).2.2) 0))
/-- The state from which a store writes. -/
def storeOrdered (e : Enc) (s : State) (c : Iss) (pls : List (LaneAcc × Place)) : Except Stop State :=
  let s1 := storeRead e s c
  let at_ := pls.map (fun p => p.2)
  (if releases e && !pls.isEmpty then s1.release c.x (s1.scopeOver (scopeOf e) at_) else s1).orderWrites c.x at_

/-- A store that reaches no copy aperture: no lane's address lies in it (R178). -/
abbrev offAperture (e : Enc) (s : State) (c : Iss) : Prop :=
  ∀ q ∈ eas e true s c, s.inAperture c.x q.2.1 (Ty.bytes e.ty) = none

end Sys2Proof.Claims

/-- R177, R182: an effective address is the sum modulo 2^64 of a and the offset sign-extended from 32 bits; an access is made by the lanes of
`act` that are no helpers, and by one of them for all in a scalar form. -/
def Sys2Proof.Claims.EffectiveAddress : Prop :=
  ∀ (s : State) (c : Iss) (e : Enc) (l : Nat),
    let a := s.readSrc c.x [] { o := e.a, ty := .b64 } l
    let b := s.readSrc c.x [] { o := e.b, ty := .b32, raw := true } l
    (s.effAddr c e true l).1 = (BitVec.ofNat 64 a.1 + (BitVec.ofNat 32 b.1).signExtend 64).toNat ∧
    (s.effAddr c e true l).2.1 = (a.2.1 || b.2.1) ∧ s.effAddr c e false l = a ∧
    (scalarForm e = false → accLanes e c = lanesOf (c.act &&& ~~~c.x.helpers)) ∧
    (scalarForm e = true → c.act &&& ~~~c.x.helpers ≠ 0 → accLanes e c = [lowLane (c.act &&& ~~~c.x.helpers)])

/-- R180: the checks of an access in their order: a poisoned address, an address beyond 2^55, a misaligned one, one beyond a window's
contents, one in the copy aperture; the first that any lane meets decides, for the lanes that meet it. -/
def Sys2Proof.Claims.AccessChecks : Prop :=
  ∀ (s : State) (x : Group) (k : AccKind) (pois : Mask) (align : Nat) (accs : List LaneAcc),
    let where_ := fun (p : LaneAcc → Bool) => maskOf ((accs.filter p).map (fun a => a.lane))
    let far := where_ (fun a => decide (2 ^ 55 ≤ a.ea))
    let odd := where_ (fun a => decide (a.ea % align ≠ 0))
    let isBad := fun (a : LaneAcc) => match s.reach x a.ea a.n with | .bad _ => true | _ => false
    let isAper := fun (a : LaneAcc) => match s.reach x a.ea a.n with | .aper _ => true | _ => false
    let r := s.checkLanes x k pois align accs
    (pois ≠ 0 → ∃ addr, r = .error (.trap 0x042 pois 0 addr)) ∧
    (pois = 0 → far ≠ 0 → r = .error (.plain cADDR_RANGE far)) ∧
    (pois = 0 → far = 0 → odd ≠ 0 → r = .error (.plain cMISALIGNED odd)) ∧
    (pois = 0 → far = 0 → odd = 0 → where_ isBad ≠ 0 → ∃ cause, (cause = cSCR_BOUNDS ∨ cause = cCLU_RANGE) ∧ r = .error (.plain cause (where_ isBad))) ∧
    (pois = 0 → far = 0 → odd = 0 → where_ isBad = 0 → where_ isAper ≠ 0 → r = .error (.plain cCOPY_APERTURE (where_ isAper)))

/-- R178, R179: the windows: an address of the scratchpad window reaches the team's own scratchpad while it ends within it, one of the cluster
window the scratchpad of the team of the cluster that bits [21:19] name, one of the private window 4 GiB of the group's own; any
other address is virtual. -/
def Sys2Proof.Claims.AccessWindows : Prop :=
  ∀ (s : State) (x : Group) (ea n : Nat),
    let d := (s.ctx x.ctx).desc
    let within := fun b z => b ≤ ea ∧ ea < b + z
    let size := (s.launchOf x).hdr.scratch * 1024
    (within d.scrb (2 ^ 32) → s.reach x ea n = if ea - d.scrb + n ≤ size then .scr x.team (ea - d.scrb) else .bad cSCR_BOUNDS) ∧
    (¬within d.scrb (2 ^ 32) → within d.club (2 ^ 32) → ∀ t, (s.clusterOf x).teams[(ea - d.club) / 2 ^ 19 % 8]? = some t →
      ea - d.club < 2 ^ 22 → (ea - d.club) % 2 ^ 19 + n ≤ size → s.reach x ea n = .scr t ((ea - d.club) % 2 ^ 19)) ∧
    (¬within d.scrb (2 ^ 32) → ¬within d.club (2 ^ 32) → within d.prvb (2 ^ 32) →
      s.reach x ea n = .virt (((s.launchOf x).prvb + ((s.teamOf x).num * 16 + x.num) * 2 ^ 32 + (ea - d.prvb)) % 2 ^ 55)) ∧
    (¬within d.scrb (2 ^ 32) → ¬within d.club (2 ^ 32) → ¬within d.prvb (2 ^ 32) → within d.capb (2 ^ 16) →
      s.reach x ea n = .aper (ea - d.capb)) ∧
    (¬within d.scrb (2 ^ 32) → ¬within d.club (2 ^ 32) → ¬within d.prvb (2 ^ 32) → ¬within d.capb (2 ^ 16) → s.reach x ea n = .virt ea)

/-- R182, R184, R185, R333, R336: LD reads each lane's bytes once its checks pass, with the acquire that its ordering asks for, and writes them
to D; ST writes each lane's data to its place, with its poison, after the release that its ordering asks for, at the scope that its
places narrow, once the group's own writes that must come before it are performed; while one of them is refused it is held. -/
def Sys2Proof.Claims.LoadAndStore : Prop :=
  ∀ e : Enc,
    let n := Ty.bytes e.ty
    Acts (.ld e) false (loadUses e n) false e (fun s c w =>
      ∃ pls, s.checkLanes c.x .read (poisAddrs (eas e true s c)) n (accsOf (eas e true s c) n) = .ok pls ∧
        let s1 := upd s c (fun x => x.skip (skipsOf (eas e true s c)))
        let r := s1.readPlaces c.x .read (polOf e) n pls
        let r := s1.capRead r.1 c.g 2 c.ent.pc.toNat 8 r.2
        (if acquires e = true ∧ c.act &&& ~~~c.x.helpers ≠ 0 then r.1.acquire c.g (s1.scopeOver (scopeOf e) (pls.map (fun p => p.2)))
          else r.1).putResults c e.d n (Ty.bits e.ty) (loadResults e c r.2) (loadLate e (s1.missOf c.x pls)) = .ok w) ∧
    HeldAs true (.st e) false (storeUses e n) e (fun s c => c.act &&& ~~~c.x.helpers ≠ 0 ∧ offAperture e s c ∧
      ∃ pls, s.checkLanes c.x .write (poisAddrs (eas e true s c)) n (accsOf (eas e true s c) n) = .ok pls ∧
        (storeOrdered e s c pls).isOk = false) ∧
    Acts (.st e) false (storeUses e n) false e (fun s c w =>
      (c.act &&& ~~~c.x.helpers = 0 ∧ w = s) ∨
      (c.act &&& ~~~c.x.helpers ≠ 0 ∧ offAperture e s c ∧
        ∃ pls, s.checkLanes c.x .write (poisAddrs (eas e true s c)) n (accsOf (eas e true s c) n) = .ok pls ∧
          let dat := stData e s c
          let s1 := storeRead e s c
          ∃ s0, storeOrdered e s c pls = .ok s0 ∧
          let s2 := pls.foldl (fun s p => s.writePlace c.x c.x.agent .write (polOf e) p.2 n (dat p.1.lane).1 (dat p.1.lane).2.1) s0
          w = (s1.capWrite s2 c.g 4 c.ent.pc.toNat 16
            ((eas e true s c).map (fun q => (q.1, q.2.1 + 2 ^ 64 * (dat q.1).1, (dat q.1).2.1)))).progress c.g))

/-- R184, R341, R348: what a store leaves alone: once the pending requests have been granted, every byte of device memory outside the stored
bytes and the dirty bits' entries is what it was to be, or takes another value that was on its way to it already (a release and an
eviction write back dirty bytes; which of several pending requests comes last may change); and no register of the group changes.
Nothing captures or replays the team. -/
def Obligations.StoreFrame : Prop :=
  ∀ (e : Enc) (s t : State) (c : Iss) (pls : List (LaneAcc × Place)),
    let n := Ty.bytes e.ty
    let us := storeUses e n s c
    let b := s.begun c us
    let c' := c.passed s us
    CanIssue s e c → NoStop s e c us → Unlogged s → c'.act &&& ~~~c'.x.helpers ≠ 0 → offAperture e b c' →
    b.checkLanes c'.x .write (poisAddrs (eas e true b c')) n (accsOf (eas e true b c') n) = .ok pls →
    exec (.st e) s = .next t →
    (∀ a, ¬storedTo pls a → settled t a = settled s a ∨ ∃ v ∈ onTheWay s a, settled t a = [v]) ∧
    ∃ x, t.group? c.g = some x ∧ x.rf = c'.x.rf ∧ x.lanes = c'.x.lanes ∧ x.handler = c'.x.handler ∧
      x.sr = { c'.x.sr with zskip := x.sr.zskip } ∧ t.ctxs = s.ctxs ∧
      ∀ k, (t.team? k).map (fun q => { q with scr := [] }) = (s.team? k).map (fun q => { q with scr := [] })

/-- R2, R17: bytes written to device memory read back in their order, every other byte is what it was; so do the bytes of a
scratchpad or a window, where poisoned data poisons the words it meets. -/
def Sys2Proof.Claims.MemoryReadsBack : Prop :=
  (∀ (s : State) (pa : Nat) (bs : List Byte) (p : Bool) (a : Nat),
    (s.memWrite pa bs p).memBytes pa bs.length = bs ∧
    (¬(pa ≤ a ∧ a < pa + bs.length) → (s.memWrite pa bs p).memBytes a 1 = s.memBytes a 1)) ∧
  (∀ (t : Cells WP) (a n v : Nat) (p : Bool) (b : Nat), 0 < n →
    (readWords (writeWords t a n v p).1 a n).1 = v % 2 ^ (8 * n) ∧
    (p = true → (readWords (writeWords t a n v p).1 a n).2.1 = true) ∧
    (¬(a ≤ b ∧ b < a + n) → (readWords (writeWords t a n v p).1 b 1).1 = (readWords t b 1).1))

/-- Effective addresses, windows, the checks of an access, bytes read back (R177, R182, R180, R178, R179, R2, R17). -/
def Obligations.AddressesAndMemory : Prop :=
  EffectiveAddress ∧
  AccessChecks ∧
  AccessWindows ∧
  MemoryReadsBack

/-- R186, R187: LDPK and STPK move blocks of 8 to 64 bytes between a lane's window and memory, byte-aligned, the poison of each register word
that of the sectors it meets; PREF fetches what its lanes' translations reach and drops what they do not, and a line whose tokens are promised to another die. -/
def Sys2Proof.Claims.PackedBlocks : Prop :=
  ∀ e : Enc,
    let n := 8 * 2 ^ (e.mod.toNat / 4)
    let live := fun (c : Iss) => lanesOf (c.act &&& ~~~c.x.helpers)
    Acts (.ldpk e) false (packUses e true) false e (fun s c w =>
      let ea := s.effAddrs c e true (live c)
      ∃ pls, s.checkLanes c.x .read (poisAddrs ea) 1 (accsOf ea n) = .ok pls ∧
        let s1 := upd s c (fun x => x.skip (skipsOf ea))
        let r0 := s1.readPlaces c.x .read (polOf e) n pls
        let r := s1.capRead r0.1 c.g 2 c.ent.pc.toNat n r0.2
        let data := fun l => ((r.2.find? (fun v => v.1 == l)).map (fun v => v.2.1)).getD 0
        let pois := fun l =>
          if s1.replaysTeam c.x.team then ((r.2.find? (fun v => v.1 == l)).map (fun v => List.replicate n v.2.2)).getD []
          else ((pls.find? (fun p => p.1.lane == l)).map (fun p => r0.1.placePoisons c.x.agent c.x.core p.2 n)).getD []
        let dst := blockAddr c e.d
        let ws := (lanesOf c.act).flatMap (fun l => (wordPieces (dst l) n).map (fun p =>
          RWrite.rs (dst l + p.1) p.2 (data l / 2 ^ (8 * p.1) % 2 ^ (8 * p.2)) (((pois l).drop p.1).take p.2 |>.any id)))
        let le := (lanesOf c.act).foldl (fun (t : Cells PW) l => cput {} t l
          { v := BitVec.ofNat 64 (data l),
            p := (if ((pois l).take 4).any id then 1 else 0) ||| (if (((pois l).drop 4).take 4).any id then 2 else 0) }) []
        w = upd r.1 c (fun x => match loadLate e (s1.missOf c.x pls) with
          | none => (ws.foldl Group.applyWrite x).shiftLast le
          | some (k, m1, m2) => { x.shiftLast [] with
              pend := (x.shiftLast []).pend ++ [{ window := k, writes := ws, lvals := le, lpos := some 0, missL1 := m1, missL2 := m2 }] })) ∧
    Acts (.stpk e) false (packUses e false) false e (fun s c w =>
      (live c = [] ∧ w = s) ∨
      (c.act &&& ~~~c.x.helpers ≠ 0 ∧
        let ea := s.effAddrs c e true (live c)
        ∃ pls, s.checkLanes c.x .write (poisAddrs ea) 1 (accsOf ea n) = .ok pls ∧
          let at_ := blockAddr c e.d
          let dat := fun l => readWords c.x.rf.win (at_ l) n
          let s1 := upd s c (fun x => x.skip (skipsOf ea + (live c).foldl (fun m l => m + (dat l).2.2) 0))
          ∃ s0, s1.orderWrites c.x (pls.map (fun p => p.2)) = .ok s0 ∧
          let s2 := pls.foldl (fun s p =>
            (wordPieces (at_ p.1.lane) n).foldl (fun s q =>
              if (c.x.rf.word ((at_ p.1.lane + q.1) / 4)).p then
                s.writePlace c.x c.x.agent .write (polOf e) (p.2.sub q.1 q.2) q.2 ((dat p.1.lane).1 / 2 ^ (8 * q.1) % 2 ^ (8 * q.2)) true
              else s) (s.writePlace c.x c.x.agent .write (polOf e) p.2 n (dat p.1.lane).1 false)) s0
          w = (s0.capWrite s2 c.g 4 c.ent.pc.toNat (8 + n)
            (ea.map (fun q => (q.1, q.2.1 + 2 ^ 64 * (dat q.1).1, (dat q.1).2.1)))).progress c.g)) ∧
    Acts (.pref e) false (fun _ c => [{ o := e.a, n := 8, lanes := c.act, exact := true }, { o := e.b, n := 4, lanes := c.act }]) false e (fun s c w =>
      let ea := eas e true s c
      let outs := ea.filterMap (fun q => match s.reach c.x q.2.1 1 with
        | .virt va => some (q.1, va, s.xlate c.x.core (s.ctx c.x.ctx).desc .pref va)
        | _ => none)
      poisAddrs ea = 0 ∧ (∀ q ∈ ea, q.2.1 < 2 ^ 55) ∧ (∀ o ∈ outs, o.2.2 ≠ .tier) ∧
      w = outs.foldl (fun s o => match o.2.2 with
        | .ok pa pte level addr =>
          if s.cohOf pa (bitsOf pte 6 5) = 0 ∧ s.promised (dieOf c.x.core) (pa / 128) = true then s else
          (s.touchRead c.x.core pa 1 (polOf e) (s.cohOf pa (bitsOf pte 6 5))).useLeaf c.x.core (s.ctx c.x.ctx).desc .pref o.2.1 pte level addr
        | _ => s) (upd s c (fun x => x.skip (skipsOf ea))))

/-- LD, ST, LDPK, STPK and PREF (R182, R184, R185, R186, R187). -/
def Obligations.LoadsAndStores : Prop :=
  LoadAndStore ∧
  PackedBlocks

namespace Sys2Proof.Claims

/-- A lane's value of a source. -/
def srcOf (s : State) (c : Iss) (o : Opnd) (t : Ty) (l : Nat) : Nat × Bool × Nat := s.readSrc c.x [] { o := o, ty := t } l

/-- The checks of an atomic's operands. -/
def atomUses (e : Enc) (result cas : Bool) (_ : State) (c : Iss) : List Use :=
  (if result then [{ o := e.d, n := Ty.bytes e.ty, lanes := c.act, dest := true }] else []) ++
    (if cas then [{ o := e.d, n := Ty.bytes e.ty, lanes := c.act }] else []) ++
    [{ o := e.b, n := Ty.bytes e.ty, lanes := c.act }, { o := e.a, n := 8, lanes := c.act, exact := true }]

/-- An atomic in each lane in ascending order: the old value is read at the coherence point, the new one, if there is one, written
there, each indivisibly; the results, if asked for, are the old values (R189, R329, R341). -/
def atomicEffect (e : Enc) (result cas : Bool) (f : Nat → Nat → Nat → Option Nat) (s : State) (c : Iss) (w : State) : Prop :=
  let n := Ty.bytes e.ty
  let ea := eas e false s c
  let b := srcOf s c e.b e.ty
  let d := fun l => if cas then srcOf s c e.d e.ty l else (0, false, 0)
  let tab := fun (g : Nat → Nat × Bool × Nat) => (accLanes e c).map (fun l => (l, g l))
  let pois := poisAddrs ea ||| poisAddrs (tab b) ||| poisAddrs (tab d)
  ∃ pls, s.checkLanes c.x .atomic pois n (accsOf ea n) = .ok pls ∧
    let inMem := pls.any (fun p => match p.2 with | .mem _ => true | .scr _ _ => false)
    let s0 := upd s c (fun x => x.skip (skipsOf ea + skipsOf (tab b) + skipsOf (tab d)))
    let scope := s.scopeOver (scopeOf e) (pls.map (fun p => p.2))
    let s1 := s0.atomReady c.x scope (releases e) pls
    let val := fun (g : Nat → Nat × Bool × Nat) l => if l ∈ accLanes e c then (g l).1 else 0
    (c.act &&& ~~~c.x.helpers = 0 ∨ (s1.unperformed c.x.agent = false ∧ s0.atomLate c.x.core n (pls.map (fun p => p.2)) = false)) ∧
    (∀ p ∈ pls, s1.placePoison c.x.agent c.x.core p.2 n = false) ∧
    let r := pls.foldl (fun (acc : State × List (Nat × Nat × Bool)) p =>
      let old := acc.1.atomRead c.x.core p.2 n
      ((match f old (val b p.1.lane) (val d p.1.lane) with
        | some v => acc.1.atomWrite c.x p.2 n v
        | none => acc.1.atomSeen c.x p.2).atomServed c.x.core p.2 n,
       acc.2 ++ [(p.1.lane, old, false)])) (s1, [])
    let r := if result then s0.capRead r.1 c.g 3 c.ent.pc.toNat 8 r.2
      else (s0.capWrite r.1 c.g 4 c.ent.pc.toNat 16 (ea.map (fun q => (q.1, q.2.1 + 2 ^ 64 * val b q.1, false))), r.2)
    let s3 := if acquires e = true ∧ c.act &&& ~~~c.x.helpers ≠ 0 then r.1.acquire c.g scope else r.1
    let s3 := if c.act &&& ~~~c.x.helpers = 0 then s3 else s3.progress c.g
    if result then s3.putResults c e.d n (Ty.bits e.ty) (loadResults e c r.2) (loadLate e (inMem, false)) = .ok w
    else w = s3

end Sys2Proof.Claims

/-- R188, R189: ATOM and RED apply their operation, CAS writes its third operand where the old value is its second, XCHG writes always; all
but RED deliver the old value. -/
def Sys2Proof.Claims.AtomicAccesses : Prop :=
  ∀ e : Enc,
    let op := fun old b (_ : Nat) => some (atomOp e.ty (atomOpOf e.mod e.x) old b)
    Acts (.atom e) false (atomUses e true false) false e (atomicEffect e true false op) ∧
    Acts (.red e) false (atomUses e false false) false e (atomicEffect e false false op) ∧
    Acts (.cas e) false (atomUses e true true) false e (atomicEffect e true true (fun old b c => if old = b then some c else none)) ∧
    Acts (.xchg e) false (atomUses e true false) false e (atomicEffect e true false (fun _ b _ => some b))

/-- R188: the integer operations of ATOM and RED: the sum wraps, the minimum and the maximum are those of the type, and, or, xor. -/
def Sys2Proof.Claims.AtomicOperations : Prop :=
  ∀ (t : Ty) (old b : Nat), Ty.isFloat t = false →
    atomOp t 0 old b = (BitVec.ofNat (Ty.bits t) old + BitVec.ofNat (Ty.bits t) b).toNat ∧
    atomOp t 1 old b = (if asInt t b < asInt t old then b else old) ∧ atomOp t 2 old b = (if asInt t old < asInt t b then b else old) ∧
    atomOp t 3 old b = old &&& b ∧ atomOp t 4 old b = old ||| b ∧ atomOp t 5 old b = old ^^^ b

/-- ATOM, RED, CAS and XCHG (R188, R189). -/
def Obligations.Atomics : Prop :=
  AtomicAccesses ∧
  AtomicOperations

/-- R190, R330: MWAIT that finds another value writes it and goes on; one that finds the value waits for a write to the line, for 65,536 cycles at
most; the wait's end reads again and moves its lanes on. Helpers alone do nothing. -/
def Obligations.MemoryWait : Prop :=
  ∀ e : Enc,
    let n := Ty.bytes e.ty
    let uses := fun (s : State) (c : Iss) => { o := e.d, n := n, lanes := c.act, dest := true } :: uniChecks [e.a, e.b] s c
    let sd := match e.d with | .scal k => k.toNat | _ => 0
    let low := fun (c : Iss) => lowLane (c.act &&& ~~~c.x.helpers)
    Performs (.mwait e) false uses false e (fun _ c => c.act &&& ~~~c.x.helpers = 0) (fun s _ => s) ∧
    (∀ (s : State) (c : Iss) (s' : State) (v : Nat) (p : Bool) (pl : Place), CanIssue s e c → NoStop s e c (uses s c) →
      let b := s.begun c (uses s c)
      let c' := c.passed s (uses s c)
      c'.act &&& ~~~c'.x.helpers ≠ 0 → (srcOf b c' e.a .b64 (low c')).2.1 = false →
      b.mwaitRead c' (srcOf b c' e.a .b64 (low c')).1 n (polOf e) = .ok (s', v, p, pl) →
      (v ≠ (srcOf b c' e.b e.ty (low c')).1 →
        let r := b.capRead s' c'.g 3 c'.ent.pc.toNat 8 [(low c', v, p)]
        let u := (r.2.head?).getD (low c', v, p)
        let t := upd r.1 c' (fun x => x.setScal sd u.2.1 (8 * n) u.2.2)
        exec (.mwait e) s = .next ((if acquires e then t.acquire c'.g (b.scopeAt (scopeOf e) pl) else t).finish c' e false)) ∧
      (v = (srcOf b c' e.b e.ty (low c')).1 →
        let t := s'.waitTarget c'.x.core pl
        exec (.mwait e) s = .next (s'.waitOn c' e (.mwait (BitVec.ofNat 6 sd) (srcOf b c' e.a .b64 (low c')).1 n c'.act e.mod (scopeOf e)
          (b.cycle + 65536) t.1 t.2.1 t.2.2 false)))) ∧
    ∀ (s : State) (g : Nat) (x : Group) (w : Wait) (k : BitVec 6) (va m : Nat) (act : Mask) (mod : BitVec 4) (scope due : Nat)
      (scr : Option Nat) (line : Nat) (only : Option Nat) (woken : Bool),
      s.group? g = some x → x.wait = some w → w.kind = .mwait k va m act mod scope due scr line only woken →
      x.canResume = true →
      exec (.mwaitWake g) s = .next (if woken then s.endMwait g x w k va m act mod scope else s) ∧
      exec (.mwaitTimeout g) s = .next (if due ≤ s.cycle then s.endMwait g x w k va m act mod scope else s)

/-- R75, R76, R191, R192: VSPILL writes the slot and the format byte of a view element for all lanes, in the format that its words allow; VFILL
reads the format byte and then the bytes it names, and delivers the poison of the sectors it reads; helpers alone spill nothing and fill
zeros. -/
def Sys2Proof.Claims.SpillsAndFills : Prop :=
  ∀ e : Enc,
    let live := fun (c : Iss) => c.act &&& ~~~c.x.helpers
    let zero := fun (s : State) (c : Iss) (w : State) =>
      s.putResults c e.d 4 32 ((lanesOf c.act).map (fun l => { lane := l, v := 0, p := false }))
        (loadLate e (false, false)) = .ok w
    Acts (.vspill e) false (fun s c => { o := e.d, n := 4, lanes := if live c = 0 then 0 else ~~~0 } :: uniChecks [e.a] s c) false e (fun s c w =>
      (live c = 0 ∧ w = s) ∨
      (live c ≠ 0 ∧
        let ws := (List.range 32).map (srcOf s c e.d .b32)
        let f := spillFormat (ws.map (fun w => w.1)) (ws.any (fun w => w.2.1))
        ∃ ea fea pls, s.spillSlot c e = .ok (ea, fea) ∧
          s.checkOnce c .write ((if f.2 = [] then [] else [(ea, f.2.length)]) ++ [(fea, 1)]) = .ok pls ∧ ∃ s0, s.orderWrites c.x pls = .ok s0 ∧
          let s1 := upd s0 c (fun x => x.skip (ws.foldl (fun n w => n + w.2.2) 0))
          let slot := (pls.head?).getD (.mem [])
          let s2 := if f.2 = [] then s1
            else if f.1 = 0 then (List.range 4).foldl (fun s k => s.writePlace c.x c.x.agent .write (polOf e) (slot.sub (32 * k) 32) 32
              (leNat ((f.2.drop (32 * k)).take 32)) (((ws.drop (8 * k)).take 8).any (fun w => w.2.1))) s1
            else s1.writePlace c.x c.x.agent .write (polOf e) slot f.2.length (leNat f.2) false
          let s3 := s2.writePlace c.x c.x.agent .write (polOf e) ((pls.getLast?).getD (.mem [])) 1 f.1 false
          w = (s1.capWrite s3 c.g 4 c.ent.pc.toNat 144
            [(lowLane (live c), ea + 2 ^ 64 * f.1 + 2 ^ 128 * leNat f.2, ws.any (fun w => w.2.1))]).progress c.g)) ∧
    Acts (.vfill e) false (fun s c => { o := e.d, n := 4, lanes := c.act, dest := true } :: uniChecks [e.a] s c) false e (fun s c w =>
      (live c = 0 ∧ zero s c w) ∨
      (live c ≠ 0 ∧
        ∃ ea fea fp n bp, s.spillSlot c e = .ok (ea, fea) ∧ s.checkOnce c .read [(fea, 1)] = .ok fp ∧
          let rf := s.readPlace c.x c.x.agent .read (polOf e) ((fp.head?).getD (.mem [])) 1
          rf.2.2 = false ∧ spillLen rf.2.1 = some n ∧ (if n = 0 then .ok [] else s.checkOnce c .read [(ea, n)]) = .ok bp ∧
          let slot := (bp.head?).getD (.mem [])
          let rb := if n = 0 then (rf.1, 0, false) else rf.1.readPlace c.x c.x.agent .read (polOf e) slot n
          let ps := rb.1.placePoisons c.x.agent c.x.core slot n
          let bad := fun b => ((ps.drop (b / 32 * 32)).take 32).any id
          let vals := (lanesOf (live c)).map (fun l => (l, fillWord rf.2.1 rb.2.1 l,
            n != 0 && (bad (fillByte rf.2.1 l) || (spillWidth rf.2.1 != 0 && bad 0))))
          let from_ := ((vals.filter (fun v => v.2.2)).getLast?).bind (fun v =>
            slotOrigin (spillWidth rf.2.1 != 0 && bad 0) ps (fillByte rf.2.1 v.1))
          let t := match from_ with
            | some b => rb.1.deliverPoison c.x ((s.ownView c.x.agent).originOf c.x.core (polOf e) (slot.sub b 1) 1)
            | none => rb.1
          let r := s.capRead t c.g 2 c.ent.pc.toNat 8 vals
          r.1.putResults c e.d 4 32 (loadResults e c r.2)
            (loadLate e (s.missOf c.x (bp.map (fun p => ({ lane := 0, ea := 0, n := n }, p))))) = .ok w))

/-- R76, R191, R192: what a spill slot holds fills back to every lane's word, whatever format the words allowed. -/
def Sys2Proof.Claims.SpillRoundTrip : Prop :=
  ∀ (xs : List Nat) (pois : Bool) (l : Nat), xs.length = 32 → (∀ x ∈ xs, x < 2 ^ 32) → l < 32 →
    let f := spillFormat xs pois
    spillLen f.1 = some f.2.length ∧ fillWord f.1 (leNat f.2) l = xs.getD l 0

/-- VSPILL, VFILL, and what a slot holds (R75, R76, R191, R192). -/
def Obligations.SpillAndFill : Prop :=
  SpillsAndFills ∧
  SpillRoundTrip

/-! ### Copies, batches and stream ports (R193 to R216, R382, R383, R402) -/

namespace Sys2Proof.Claims

/-- The live lanes of `act` (R159). -/
def liveLanes (c : Iss) : List Nat := lanesOf (c.act &&& ~~~c.x.helpers)

/-- The stores of a copy-issuing ST: every live lane's address and data (R193). -/
def copyStores (e : Enc) (s : State) (c : Iss) : List (Nat × Nat × Nat) :=
  (s.effAddrs c e true (liveLanes c)).map (fun q => (q.1, (s.inAperture c.x q.2.1 8).getD 0, (s.storeData c e q.1).1))

/-- An ST of b64 values that issues copies: every live lane's address is one of the aperture that names a channel, aligned, and
its data a parameter word that passes the checks of R196; no value is poisoned, and the channels have room. -/
abbrev issuesCopies (e : Enc) (s : State) (c : Iss) : Prop :=
  e.ty = .b64 ∧ liveLanes c ≠ [] ∧
  (∀ q ∈ s.effAddrs c e true (liveLanes c), q.2.2.1 = false ∧ q.2.1 < 2 ^ 55 ∧ q.2.1 % 8 = 0 ∧
    (∃ o, s.inAperture c.x q.2.1 8 = some o ∧ apOk o = true) ∧ (s.storeData c e q.1).2.1 = false ∧
    s.copyCause c.x (s.storeData c e q.1).1 = none) ∧
  s.chansFull c.x.core ((copyStores e s c).map (fun q => (q.1, q.2.1))) = false

/-- A lane whose batch BWAIT or BTEST asks about is outstanding (R206). -/
def batchOut (e : Enc) (s : State) (c : Iss) (l : Nat) : Bool :=
  (c.x.lane l).bout.getLsbD ((srcOf s c e.a .b32 l).1 % 16)

/-- The port that an instruction names. -/
def portNo : Opnd → Nat
  | .port k => k.toNat
  | _ => 0

end Sys2Proof.Claims

/-- R193, R342: a store to the copy aperture is a release toward its copy, for which no earlier write of the group may still be refused, and
queues a copy of each live lane's parameter word, in ascending order of the
lanes; without room in a channel it waits. -/
def Sys2Proof.Claims.CopiesIssued : Prop :=
  ∀ e : Enc,
    Acts (.st e) false (storeUses e (Ty.bytes e.ty)) false e (fun s c w => issuesCopies e s c ∧
      let ea := s.effAddrs c e true (liveLanes c)
      let dat := fun l => s.storeData c e l
      let s1 := upd s c (fun x => x.skip (skipsOf ea + (liveLanes c).foldl (fun m l => m + (dat l).2.2) 0))
      let s1 := s1.publish c.x.agent c.x.core 1
      s1.unperformed c.x.agent = false ∧
      let s2 := (copyStores e s c).foldl (fun s q => s.enqueueCopy c.g c.x q.1 q.2.1 q.2.2) s1
      w = ((upd s c (fun x => x.skip (skipsOf ea + (liveLanes c).foldl (fun m l => m + (dat l).2.2) 0))).capWrite s2 c.g 4 c.ent.pc.toNat 16
        (ea.map (fun q => (q.1, q.2.1 + 2 ^ 64 * (dat q.1).1, false)))).progress c.g) ∧
    ∀ (s : State) (g lane o data : Nat) (x : Group) (bs : List Byte), s.template x.ctx (data % 2 ^ 16) = some bs →
      let t := s.enqueueCopy g x lane o data
      (t.chan x.core (o / 256 % 8)).q = (s.chan x.core (o / 256 % 8)).q ++
        [{ id := s.nextId, g := g, lane := lane, ctx := x.ctx, team := x.team, num := x.num, tplIdx := data % 2 ^ 16, tpl := bs,
           sshift := (BitVec.ofNat 24 (data / 2 ^ 40)).toInt, dshift := (BitVec.ofNat 24 (data / 2 ^ 16)).toInt,
           pdie := (x.lane lane).pdie, pmod := (x.lane lane).pmod }] ∧
      ∀ y, s.group? g = some y → (t.group? g).map (fun z => (z.lane lane).openN) = some ((y.lane lane).openN + 1)

/-- R199: CTPL refuses an index from 4,096 on and a template that fails the structural checks; else it writes the 256 bytes to the
context's table, with the poison of their words, and waits until they are visible. -/
def Sys2Proof.Claims.TemplateStore : Prop :=
  ∀ e : Enc,
    let uses := fun (s : State) (c : Iss) => { o := e.b, n := 256, lanes := c.act } :: uniChecks [e.a] s c
    let at_ := fun (_ : Iss) => match e.b with | .rs a => a.toNat | _ => 0
    let bytes := fun (c : Iss) => readWords c.x.rf.win (at_ c) 256
    let bad := fun (s : State) (c : Iss) => 4096 ≤ (uni s c e.a .b64).1 ∨ tpRefused (bytes c).1 = true
    Performs (.ctpl e) false uses false e (fun _ c => liveLanes c = []) (fun s _ => s) ∧
    Stops (.ctpl e) false uses e (fun s c => liveLanes c ≠ [] ∧ bad s c) (fun _ c => .plain cCOPY_TPL (c.act &&& ~~~c.x.helpers)) ∧
    Ends (.ctpl e) false uses e (fun s c => liveLanes c ≠ [] ∧ ¬bad s c) (fun s c =>
      ((upd s c (fun x => x.skip (bytes c).2.2)).writeTemplate c.x (uni s c e.a .b64).1 (at_ c)).waitOn c e .template) ∧
    ∀ (s : State) (g : Nat) (x : Group) (w : Wait), s.group? g = some x → x.wait = some w → w.kind = .template → x.canResume = true →
      exec (.templateVisible g) s = .next (s.setGroup g (x.endWait w))

/-- R205, R206, R207: BSEAL moves each live lane's open copies into the batch of its counter and gives the counter's old value; a batch of that
number that is still outstanding goes on beside it; BWAIT holds while a batch that it names is outstanding; BTEST gives per lane whether it is complete, or, under `.fail`, has failed. -/
def Sys2Proof.Claims.Batches : Prop :=
  ∀ e : Enc,
    let uses := fun (_ : State) (c : Iss) => [{ o := e.a, n := 4, lanes := c.act : Use }]
    let waits := fun (s : State) (c : Iss) l => if e.mod.getLsbD 0 then (c.x.lane l).outstanding != 0 else batchOut e s c l
    let read := fun (s : State) (c : Iss) => upd s c (fun x => x.skip ((liveLanes c).foldl (fun n l => n + (srcOf s c e.a .b32 l).2.2) 0))
    Acts (.bseal e) false (opUses [] e.d 4) false e (fun s c w =>
      (∀ l ∈ liveLanes c, (c.x.lane l).outstanding < 8) ∧
      ((liveLanes c).foldl (fun s l => s.seal c.g l) s).putResults c e.d 4 32 ((computeLanes e.d c.act).map (fun l =>
        let k := if isScalOp e.d then (liveLanes c).getLast?.getD l else l
        { lane := l, v := if k ∈ liveLanes c then (c.x.lane k).bctr.toNat else 0, p := false })) none = .ok w) ∧
    HeldBack (.bseal e) false (opUses [] e.d 4) e (fun _ c => ∃ l ∈ liveLanes c, 8 ≤ (c.x.lane l).outstanding) ∧
    Performs (.bwait e) false uses false e (fun s c => ∀ l ∈ liveLanes c, waits s c l = false)
      (fun s c => if e.mod.getLsbD 0 then s else read s c) ∧
    HeldBack (.bwait e) false uses e (fun s c => ∃ l ∈ liveLanes c, waits s c l = true) ∧
    Performs (.btest e) false uses false e (fun s _ => Unlogged s) (fun s c => putPred e (read s c) c (maskOf ((liveLanes c).filter (fun l =>
      !batchOut e s c l && (!e.mod.getLsbD 0 || (c.x.lane l).bfail.getLsbD ((srcOf s c e.a .b32 l).1 % 16)))))) ∧
    ∀ (s : State) (g l : Nat) (x : Group), s.group? g = some x → l < 32 →
      let r := x.lane l
      let out := s.copies.any (fun y => y.g == g && y.lane == l && y.batch.isNone)
      ∃ y, (s.seal g l).group? g = some y ∧ (y.lane l).bctr = r.bctr + 1 ∧ (y.lane l).openN = 0 ∧
        (∀ b : BitVec 4, (y.lane l).bout.getLsbD b.toNat = if b = r.bctr then out else r.bout.getLsbD b.toNat) ∧
        (y.lane l).bold.length = r.bold.length + (if r.bout.getLsbD r.bctr.toNat then 1 else 0) ∧
        (∀ b : BitVec 4, (y.lane l).bfail.getLsbD b.toNat = if b = r.bctr then r.openFail else r.bfail.getLsbD b.toNat)

/-- Copies, templates and batches (R193, R199, R205, R206, R207). -/
def Obligations.CopyIssue : Prop :=
  CopiesIssued ∧
  TemplateStore ∧
  Batches

/-- R210, R215: SPBIND binds a port to the descriptor that its scratchpad address names, with every step counter 0, and waits without a free
engine; SPSEEK sets the counters of the live lanes, at most the pattern's length; SPDRN performs a writing port's pushes or
discards a reading port's elements read ahead; SPREL unbinds the port. A port whose pushes cannot be performed yet is waited for, briefly.
Over an
empty `act` they only move on; with no descriptor bound, SPSEEK, SPDRN and SPREL raise STREAM_UNBOUND. -/
def Sys2Proof.Claims.PortInstructions : Prop :=
  ∀ e : Enc,
    let k := portNo e.d
    let at_ := fun (s : State) (c : Iss) => (uni s c e.a .b64).1
    let desc := fun (s : State) (c : Iss) => (s.ownView c.x.agent).scrRead c.x.team (at_ s c) 64
    let bound := fun (c : Iss) => (c.x.port? k).isSome = true
    let pushed := fun (s : State) (c : Iss) => s.grantUpTo (whoCore c.x.core)
    let freed := fun (s : State) (c : Iss) => if bound c then (pushed s c).releasePort c.g k else s
    let fit := fun (s : State) (c : Iss) => c.act ≠ 0 ∧ (uni s c e.a .b64).2 = false ∧ at_ s c < s.scratchOf c.x ∧ at_ s c % 64 = 0 ∧
      (desc s c).2 = false ∧ sdRefused (desc s c).1 = false
    let late := fun (s : State) (c : Iss) => bound c ∧ (pushed s c).unperformed c.x.agent = true
    let full := fun (s : State) (c : Iss) => 64 ≤ (freed s c).enginesUsed c.x.core
    let ptrs := fun (_ : State) (c : Iss) => [({ o := e.a, n := 4, lanes := c.act } : Use)]
    Performs (.spbind e) false (uniChecks [e.a]) false e (fun s c => fit s c ∧ ¬late s c ∧ ¬full s c)
      (fun s c => upd (freed s c) c (fun x =>
        let p : Port := { desc := leBytes 64 (desc s c).1, dpois := false, steps := [], ahead := [] }
        { x with ports := cput none x.ports k (some p) })) ∧
    HeldBack (.spbind e) false (uniChecks [e.a]) e (fun s c => fit s c ∧ ¬late s c ∧ full s c) ∧
    HeldAs true (.spbind e) false (uniChecks [e.a]) e (fun s c => fit s c ∧ late s c) ∧
    (∀ p, Performs (.spseek e) false ptrs false e
      (fun _ c => c.act ≠ 0 ∧ c.x.port? k = some p)
      (fun s c =>
        let v := fun l => srcOf s c e.a .b32 l
        let steps := (liveLanes c).foldl (fun t l => cput 0 t l (min (v l).1 (sdLength (leNat p.desc)))) p.steps
        upd s c (fun x => { x.skip ((liveLanes c).foldl (fun n l => n + (v l).2.2) 0) with
          ports := cput none x.ports k (some { p with steps := steps, ahead := [] }) }))) ∧
    (∀ p, Performs (.spdrn e) false (fun _ _ => []) false e (fun s c => c.act ≠ 0 ∧ c.x.port? k = some p ∧
        ((leNat p.desc).testBit 453 = true → (pushed s c).unperformed c.x.agent = false))
      (fun s c => if (leNat p.desc).testBit 453 then pushed s c
        else upd s c (fun x => { x with ports := cput none x.ports k (some { p with ahead := [] }) }))) ∧
    Performs (.sprel e) false (fun _ _ => []) false e (fun s c => c.act ≠ 0 ∧ bound c ∧ (pushed s c).unperformed c.x.agent = false)
      (fun s c => (upd (pushed s c) c (fun x => { x with ports := cput none x.ports k none })).unholdAll) ∧
    (∀ p, HeldAs true (.spdrn e) false (fun _ _ => []) e (fun s c => c.act ≠ 0 ∧ c.x.port? k = some p ∧
      (leNat p.desc).testBit 453 = true ∧ (pushed s c).unperformed c.x.agent = true)) ∧
    HeldAs true (.sprel e) false (fun _ _ => []) e (fun s c => c.act ≠ 0 ∧ bound c ∧ (pushed s c).unperformed c.x.agent = true) ∧
    (∀ q ∈ [(Instr.spbind e, uniChecks [e.a]), (.spseek e, ptrs), (.spdrn e, fun _ _ => []), (.sprel e, fun _ _ => [])],
      Performs q.1 false q.2 false e (fun _ c => c.act = 0) (fun s _ => s)) ∧
    ∀ q ∈ [(Instr.spseek e, ptrs), (.spdrn e, fun _ _ => []), (.sprel e, fun _ _ => [])],
      Stops q.1 false q.2 e (fun _ c => c.act ≠ 0 ∧ c.x.port? k = none) (fun _ c => .plain cSTREAM_UNBOUND c.act)

/-- R211, R213: the element's address is the base, the item times its stride, and each dimension's index times its stride; an engine reads a
live lane's next element ahead, once, and a pop then takes what was read. -/
def Sys2Proof.Claims.StreamReadAhead : Prop :=
  (∀ (v item p : Nat), sdDims v = 1 → p < sdLength v →
    sdAddr v item p = (v % 2 ^ 64 : Nat) + item * (BitVec.ofNat 64 (v / 2 ^ 64)).toInt + p * (BitVec.ofNat 32 (v / 2 ^ 160)).toInt) ∧
  ∀ (s : State) (g lane : Nat) (k : BitVec 4) (x : Group) (p : Port) (pl : Place) (a : LaneAcc),
    s.group? g = some x → x.port? k.toNat = some p → x.slot.isSome = true → x.engineWait = false → (x.lane lane).st = .live →
    (leNat p.desc).testBit 453 = false →
    let v := leNat p.desc
    let n := p.nextAhead lane
    let ad := sdAddr v (x.lane lane).item.toNat n
    n < sdLength v → 0 ≤ ad → ad < 2 ^ 55 →
    s.checkLanes x .pop 0 1 [{ lane := lane, ea := ad.toNat, n := sdSize v }] = .ok [(a, pl)] →
    let r := s.readPlace { x with slot := none } x.agent .pop (sdPol v) pl (sdSize v)
    exec (.streamReadAhead g k lane) s = .next (r.1.modGroup g (fun x =>
      { x with ports := cput none x.ports k.toNat (some { p with ahead := p.ahead ++ [(lane, n, r.2.1, r.2.2)] }) }))

/-- Stream ports and their read-ahead (R210, R215, R211, R213). -/
def Obligations.StreamPorts : Prop :=
  PortInstructions ∧
  StreamReadAhead

namespace Sys2Proof.Claims

/-- The copy in service of a channel may deliver: it has started, waits for nothing, has not failed, and is not done. -/
abbrev delivering (s : State) (core : Nat) (ch : BitVec 3) (x : Group) (y : Copy) : Prop :=
  s.inService core ch.toNat = some (y, x) ∧ y.waiting = false ∧ y.fail = none ∧ y.pending = [] ∧ y.started = true ∧
    y.pos < tpPositions (leNat y.tpl) ∧ tpGather (leNat y.tpl) = false

end Sys2Proof.Claims

/-- R195, R196, R200, R202: a channel delivers its copy in service position by position: the element at the source, or the fill value
outside its box, goes to the destination, and is dropped outside that box; a position that faults fails the copy, one that misses
a translation waits, and one that no route leads to, or whose line's tokens are promised to another die, is tried again. -/
def Sys2Proof.Claims.CopyDelivery : Prop :=
  ∀ (s : State) (core : Nat) (ch : BitVec 3) (x : Group) (y : Copy),
    let c := ch.toNat
    let v := leNat y.tpl
    let n := 2 ^ (v / 2 ^ 256 % 4)
    let sc := posCoords y.src.dims y.pos
    let dc := posCoords y.dst.dims y.pos
    let from_ := s.copyPlace x c (.copyRead (v.testBit 260)) (y.src.addr sc).toNat n
    let to_ := s.copyPlace x c (.copyWrite (v.testBit 261)) (y.dst.addr dc).toNat n
    let put := fun (w : State) (val : Nat) (pois : Bool) (t : State) =>
      (y.dst.inBox dc = false → t = w.stepCopy core c y) ∧
      (y.dst.inBox dc = true → ∀ p, to_ = .at p → t = w.copyWrite core c x y p n val pois) ∧
      (y.dst.inBox dc = true → ∀ cause va, to_ = .bad cause va → t = s.failCopy core c x y cause va) ∧
      (y.dst.inBox dc = true → ∀ ks, to_ = .wait ks → t = s.copyWait core c x y (.copyWrite (v.testBit 261)) ks) ∧
      (y.dst.inBox dc = true → ∀ ms, to_ = .noRoute ms → t = s.copyHeld core c x ms) ∧
      (y.dst.inBox dc = true → ∀ ls, to_ = .tokens ls → t = s.copyTokens core c ls)
    (s.inService core c = some (y, x) → y.waiting = false → y.fail = none → y.pending = [] → y.started = false → y.pos < tpPositions v →
      exec (.copyDelivery core ch) s = exec (.copyDelivery core ch) (s.startCopy core c x y).1 ∧
      ((s.startCopy core c x y).1.chan core c).serial = (s.chan core c).serial + 1 ∧ ((s.startCopy core c x y).1.chan core c).len = 0) ∧
    (delivering s core ch x y →
    ∃ t, exec (.copyDelivery core ch) s = .next t ∧
      (y.src.inBox sc = false → put s (v / 2 ^ 128 % 2 ^ (8 * n)) false t) ∧
      (y.src.inBox sc = true → ∀ p, from_ = .at p →
        let r := s.copyRead x c y.snap (.copyRead (v.testBit 260)) p n
        put r.1 r.2.1 r.2.2 t) ∧
      (y.src.inBox sc = true → ∀ cause va, from_ = .bad cause va → t = s.failCopy core c x y cause va) ∧
      (y.src.inBox sc = true → ∀ ks, from_ = .wait ks → t = s.copyWait core c x y (.copyRead (v.testBit 260)) ks) ∧
      (y.src.inBox sc = true → ∀ ms, from_ = .noRoute ms → t = s.copyHeld core c x ms) ∧
      (y.src.inBox sc = true → ∀ ls, from_ = .tokens ls → t = s.copyTokens core c ls))

/-- R198: a gather reads the bit of each row as it comes to it: a row whose bit is 0 is passed over, one whose bit is 1 is delivered, with the
number of rows selected before it as its coordinate of dimension 1 in the destination; a poisoned byte of the mask fails the copy. -/
def Sys2Proof.Claims.GatherCopies : Prop :=
  ∀ (s : State) (core : Nat) (ch : BitVec 3) (x : Group) (y : Copy), s.inService core ch.toNat = some (y, x) →
    y.waiting = false → y.fail = none → y.pending = [] → y.started = true → tpGather (leNat y.tpl) = true →
    let c := ch.toNat
    let v := leNat y.tpl
    let w := tpCount v 0
    let row := y.pos / w
    let mask := (v / 2 ^ 192 % 2 ^ 64 + row / 8) % 2 ^ 55
    y.pos < tpPositions v →
    (y.cur = some row → exec (.copyDelivery core ch) s = .next (s.deliverAt core c x y)) ∧
    (∀ p, y.cur ≠ some row → s.copyPlace x c (.copyRead false) mask 1 = .at p →
      let r := s.copyRead x c none (.copyRead false) p 1
      (r.2.2 = true → exec (.copyDelivery core ch) s = .next (s.failCopy core c x y cPOISON_CONSUMED mask)) ∧
      (r.2.2 = false → r.2.1.testBit (row % 8) = true →
        exec (.copyDelivery core ch) s = .next (r.1.deliverAt core c x { y with cur := some row })) ∧
      (r.2.2 = false → r.2.1.testBit (row % 8) = false → tpPositions v ≤ (row + 1) * w →
        exec (.copyDelivery core ch) s = .next (r.1.setHead core c { y with pos := (row + 1) * w }))) ∧
    ∀ a b, y.dst.dims = [a, b] → y.dstCoords = [a.2.1 + (y.pos % a.2.2.2 : Nat), b.2.1 + y.rows]

/-- R201, R202, R205, R207, R255, R335: a copy whose positions are done, or that failed, completes: its writes are performed, at .dom where it
decrements a counter, a gather's row count is written (R198), it arrives at its barrier in its turn of the cycle, decrements its counter
unless it failed, leaves the channel, and its batch is complete once none of its copies is left. While a write of it, or a write-back of
its die for a decrement, waits to be sent again, it does not complete. -/
def Sys2Proof.Claims.CopyCompletion : Prop :=
  ∀ (s : State) (core : Nat) (ch : BitVec 3) (x : Group) (y : Copy),
    s.inService core ch.toNat = some (y, x) → y.started = true →
    (y.fail.isSome = true ∨ (y.pending = [] ∧ tpPositions (leNat y.tpl) ≤ y.pos)) →
    let c := ch.toNat
    let v := leNat y.tpl
    let b := v / 2 ^ 264 % 256
    let dec := v.testBit 272 = true ∧ y.fail = none
    let s0 := s.publish (chanAgent core c) core (if dec then 5 else 1)
    let waits := s0.unperformed (chanAgent core c) = true ∨ (dec ∧ s0.backPending (core / 64) = true)
    (waits → exec (.copyComplete core ch) s = .next s0) ∧
    (¬waits →
      let s1 := if v.testBit 262 = true ∧ y.fail = none then
        s0.modTeam y.team (fun q => { q with bars := cput {} q.bars b { q.bar b with aux := BitVec.ofNat 32 y.rows } }) else s0
      let s2 := if v.testBit 263 then ((s1.arriveTurn core c y.team).copyArrive x y b).mirrorBar y.team b else s1
      let s3 := if dec then
          s2.decCompletion y.ctx (v / 2 ^ 273 % 2 ^ 13) { s2.groupRec x 0 ((1#32) <<< y.lane) 0 with unit := 6 } else s2
      let s4 := s3.modChan core c (fun q => { q with q := q.q.tail, idle := true })
      exec (.copyComplete core ch) s = .next (s4.batchDone y).unholdAll ∧
      ∀ z k n, s4.group? y.g = some z → y.batch = some k → y.lane < 32 → n < 16 →
        let r := z.lane y.lane
        r.bout.getLsbD n = true → cget 0 r.bser n = k → (∀ m, m < 16 → m ≠ n → r.bout.getLsbD m = true → cget 0 r.bser m ≠ k) →
        s4.copies.any (fun w => w.g == y.g && w.lane == y.lane && w.batch == some k) = false →
        ∃ z', (s4.batchDone y).group? y.g = some z' ∧ (z'.lane y.lane).bout.getLsbD n = false ∧
          (z'.lane y.lane).bfail.getLsbD n = (r.bfail.getLsbD n || y.fail.isSome))

/-- R382, R383, R402, R404: the pieces of a persist-class position enter the queues of their dies together, with their parity deltas, once the
supply is up, every queue has room for all of them, no PBAR holds them and their deltas can be written; a queue drains its oldest entry,
data to the tier and a delta into the parity, and one that drains while the supply is down is counted. -/
def Sys2Proof.Claims.WriteBack : Prop :=
  (∀ (s : State) (core : Nat) (ch : BitVec 3) (x : Group) (y : Copy), s.inService core ch.toNat = some (y, x) → y.pending ≠ [] →
    let ready := s.power.failed = false ∧ s.roomFor (y.pending.map (fun q => q.1)) = true ∧
      ∀ q ∈ y.pending, s.pbarHolds y q.1 = false ∧ s.unbuilt q.1 = false ∧ s.deltasWait q.1 = false
    (ready → exec (.writeBackAccept core ch) s = .next
      ((y.pending.foldl (fun s q => s.accept { pa := q.1, bytes := q.2.1, pois := q.2.2 }) s).stepCopy core ch.toNat y).unholdAll) ∧
    (¬ready → exec (.writeBackAccept core ch) s = .next s)) ∧
  ∀ (s : State) (die : BitVec 2) (e : WbEnt) (r : List WbEnt), cget [] s.wbqs die.toNat = e :: r →
    let u : State := { s with wbqs := cput [] s.wbqs die.toNat r }
    let t := if e.par then { u with parity := cputs 0 u.parity e.pa (((cgets 0 u.parity e.pa e.bytes.length).zip e.bytes).map (fun z => z.1 ^^^ z.2)) }
      else u.memWrite e.pa e.bytes e.pois
    exec (.writeBackDrain die) s = .next (if s.power.failed then
      { t with power := { s.power with drained := cput 0 s.power.drained die.toNat (cget 0 s.power.drained die.toNat + 1) } } else t)

/-- Copy delivery, completion and write-back (R195, R196, R200, R202, R198, R201, R205, R207, R255, R382, R383, R402, R404). -/
def Obligations.CopyChannels : Prop :=
  CopyDelivery ∧
  GatherCopies ∧
  CopyCompletion ∧
  WriteBack

/-! ### The matrix unit and the operand buffer (R54 to R56, R218 to R240) -/

namespace Sys2Proof.Claims

/-- `act` holds a live lane (R219). -/
abbrev anyLive (c : Iss) : Prop := c.act &&& c.x.live ≠ 0

/-- The core's queue has fewer than 8 operations, and fewer than 4 of the group, none of which has still to enter it again (R218, R244). -/
abbrev matrixRoom (s : State) (c : Iss) : Prop :=
  (s.core c.x.core).mq.length < 8 ∧ (s.opsOf c.g c.x.core).length < 4 ∧ ∀ x, s.group? c.g = some x → x.mats = []

/-- An operation enters the core's queue under a number of its own. -/
def queued (o : MatOp) (s : State) (c : Iss) : State :=
  State.modCore { s with nextId := s.nextId + 1 } c.x.core (fun k =>
    { k with mq := k.mq ++ [{ o with id := s.nextId, g := c.g, pc := c.ent.pc.toNat }] })

/-- What a matrix instruction does that has passed its checks `ok`: it queues its operation `o`, waits without room, and over an `act`
without a live lane only moves on. -/
def Queues (i : Instr) (uses : State → Iss → List Use) (e : Enc) (ok : State → Iss → Prop) (o : State → Iss → MatOp) : Prop :=
  Performs i false uses false e (fun s c => anyLive c ∧ ok s c ∧ matrixRoom s c) (fun s c => queued (o s c) s c) ∧
  HeldBack i false uses e (fun s c => anyLive c ∧ ok s c ∧ ¬matrixRoom s c) ∧
  Performs i false uses false e (fun _ c => ¬anyLive c) (fun s _ => s)

/-- The operands of MZERO, MACC and MCVT as their checks see them (R89, R236 to R238). -/
def zeroUses (e : Enc) (_ : State) (c : Iss) : List Use := accUse e.d true :: pendUses c.x (tileRuns c.x e.d)
/-- MACC's. -/
def maccUses (e : Enc) (_ : State) (c : Iss) : List Use :=
  let ls : Mask := if c.hasLive then ~~~0 else 0
  [e.d, e.a, e.b].map (fun o => accUse o true) ++ [e.d, e.a, e.b].map (fun o => rowUse o 384 ls)
    ++ pendUses c.x ([e.d, e.a, e.b].flatMap (tileRuns c.x))
/-- MCVT's. -/
def mcvtUses (e : Enc) (_ : State) (c : Iss) : List Use :=
  let row := 32 * Ty.bytes e.ty
  [{ o := e.d, n := Ty.bytes e.ty, lanes := 0, dest := true, mat := true }, accUse e.a false, rowUse e.d row c.act, rowUse e.a 384 c.act]
    ++ pendUses c.x (tileRuns c.x e.a ++ (tileAddrs c.x e.d row).map (fun a => ({ a := a, inc := 0, count := 1, n := row } : Run)))

/-- The operation that MLOOP or MSTEP queues, and the word of its reservation. -/
abbrev sequenceOk (e : Enc) (loop : Bool) (s : State) (c : Iss) : Prop :=
  (loop = true → (loopArgs e c.x).pois = false) ∧
    s.sequenceCause e c (s.obWord c.x.team e.x.toNat) (s.sequenceOf e c loop) = none

end Sys2Proof.Claims

/-- R218, R219, R229, R236 to R238: MLOOP, MSTEP, MZERO, MACC and MCVT queue their operation with the addresses that the views give then, and
MCVT's destination is pending; without room they wait. -/
def Obligations.MatrixIssue : Prop :=
  ∀ e : Enc,
    Queues (.mloop e) (sequenceUses e true) e (sequenceOk e true) (fun s c => s.sequenceOf e c true) ∧
    Queues (.mstep e) (sequenceUses e false) e (sequenceOk e false) (fun s c => s.sequenceOf e c false) ∧
    Queues (.mzero e) (zeroUses e) e (fun _ c => (tileRuns c.x e.d).any (fun r => r.leaves c.x.rf.wbytes) = false)
      (fun _ c => { id := 0, g := 0, kind := 3, adrD := tileAddrs c.x e.d 384 }) ∧
    Queues (.macc e) (maccUses e) e (fun _ _ => True) (fun _ c =>
      { id := 0, g := 0, kind := 4, ty := e.ty, adrD := tileAddrs c.x e.d 384, adrA := tileAddrs c.x e.a 384,
        adrB := tileAddrs c.x e.b 384 }) ∧
    Performs (.mcvt e) false (mcvtUses e) false e (fun s c => c.act ≠ 0 ∧ matrixRoom s c) (fun s c =>
      let row := 32 * Ty.bytes e.ty
      let o : MatOp := {
        id := 0, g := 0, kind := 5, cTy := e.ty, cMod := e.mod, cX := e.x, acts := c.act, real := c.act &&& ~~~c.x.helpers, adrD := tileAddrs c.x e.d row,
        adrA := tileAddrs c.x e.a 384 }
      upd (queued o s c) c (fun x => { x with cvts := x.cvts ++
          [{ op := s.nextId, window := e.la.toNat, dests := (lanesOf c.act).map (fun l => (tileAddr c.x e.d row l, row)) }] })) ∧
    HeldBack (.mcvt e) false (mcvtUses e) e (fun s c => c.act ≠ 0 ∧ ¬matrixRoom s c) ∧
    Performs (.mcvt e) false (mcvtUses e) false e (fun _ c => c.act = 0) (fun s _ => s) ∧
    (∀ s c, sequenceOk e false s c →
      let o := s.sequenceOf e c false
      o.kind = 2 ∧ o.steps = 1 ∧ o.block = 0 ∧ o.incA = 0 ∧ o.incB = 0 ∧ o.ty = e.ty ∧ o.res = e.x.toNat)

/-- R218, R232, R234, R236 to R238: the unit takes up the oldest operation that may start, leaves a sequence
whose next step waits on a starved port for the oldest one that is ready, applies one step of a sequence at a time, and completes
an operation: a sequence without steps left, a zeroed tile, a sum of tiles, a converted tile. -/
def Sys2Proof.Claims.UnitSteps : Prop :=
  ∀ (s : State) (core : Nat),
    let mq := (s.core core).mq
    (∀ o, (∀ p ∈ mq, p.running = false) → mq.find? (s.startable mq) = some o →
      exec (.matrixOpStart core) s = .next (s.setOp core { o with running := true })) ∧
    (∀ r o, mq.find? (fun p => p.running) = some r → s.starvedOp r = true →
      mq.find? (fun p => s.startable mq p && !s.starvedOp p) = some o →
      exec (.matrixOpStart core) s = .next ((s.setOp core { r with running := false }).setOp core { o with running := true })) ∧
    ∀ (o : MatOp) (x : Group), mq.find? (fun p => p.running) = some o → s.group? o.g = some x → x.unitRuns = true →
      (∀ s' pops, o.kind ≤ 2 → 0 < o.steps → s.popStep core x o = .ok (s', pops) →
        let w := s.obWord x.team o.res
        let n := if o.b16 then 4 else 1
        let mine := fun (p : Option Nat) => (pops.filter (fun q => some q.1 == p)).map (fun q => q.2)
        let fa := sourceSlices x o.portA o.adrA (mine o.portA) (fragLen (obFmtA w) (stepK w)) n
        let fb := sourceSlices x o.portB o.adrB (mine o.portB) (fragLen (obFmtB w) (stepK w)) n
        let es := s.stepElems x o w fa.1 fb.1 .none
        (∀ e ∈ es, e.fails = false) →
        ∃ t y, exec (.matrixStep core .none) s = .next t ∧ t.group? o.g = some y ∧
          (∀ x', s'.group? o.g = some x' → y.rf.win = (x'.writeElems o.adrD es).rf.win) ∧
          ((t.core core).mq.filter (fun p => p.id == o.id)).map (fun p => (p.steps, p.adrD, p.adrA, p.adrB)) =
            (mq.filter (fun p => p.id == o.id)).map (fun _ => (o.steps - 1, o.adrD,
              o.adrA.map (fun (a : Nat) => ((a : Int) + o.incA).toNat), o.adrB.map (fun (b : Nat) => ((b : Int) + o.incB).toNat)))) ∧
      (o.kind ≤ 2 → o.steps = 0 → exec (.matrixOpComplete core .none) s = .next (s.finishOp core o)) ∧
      (2 < o.kind → (o.kind = 4 → ∀ e ∈ s.maccElems x o .none, e.fails = false) →
        let w := s.wakeFor o.g (o.fullLock ++ s.writeLock x.team o)
        exec (.matrixOpComplete core .none) s = .next ((w.modGroup o.g (fun y =>
          if o.kind = 3 then o.adrD.foldl (fun y a => y.rswrite a 384 0 false) y
          else if o.kind = 4 then
            (y.skip (y.tileSkips o.adrA + y.tileSkips o.adrB)).writeElems o.adrD (s.maccElems x o .none)
          else y.hwMark (y.convertTile o) w.cycle)).finishOp core o))

/-- R55, R56: an integer step adds the sum of its unit products to the element, clamped to 80 bits, and the element's residue stays the value
modulo 255: from an element whose residue agrees with its value, no check fails, and the residue agrees again. -/
def Sys2Proof.Claims.IntegerStep : Prop :=
  ∀ (w old va vb : Nat) (pois resen : Bool),
    let sh := (if w / 2 ^ 12 % 8 = 2 then 16 else if w / 2 ^ 12 % 8 = 3 then 32 else 0) - 6 * tsCount w
    let us := (List.range (stepK w)).map (fun k => unitValue (obFmtA w) (elemAt (obFmtA w) va k) * unitValue (obFmtB w) (elemAt (obFmtB w) vb k))
    let v := (BitVec.ofNat 80 old).toInt + us.sum * 2 ^ sh
    let r := intStep w old va vb pois resen (0, 0)
    let new := max (-(2 : Int) ^ 79) (min (2 ^ 79 - 1) v)
    let resOk := fun (e : Nat) => ((e / 2 ^ 80 % 256 : Nat) : Int) = (BitVec.ofNat 80 e).toInt % 255
    (BitVec.ofNat 80 r.1).toInt = new ∧ (resOk old → r.2 = false ∧ resOk r.1) ∧
    r.1.testBit 88 = (old.testBit 88 || pois) ∧ r.1.testBit 89 = (old.testBit 89 || decide (v ≠ new)) ∧ r.1.testBit 90 = old.testBit 90

/-- The matrix unit's steps, and the residue of an integer step (R218, R232, R234, R236, R238, R55, R56). -/
def Obligations.MatrixUnit : Prop :=
  UnitSteps ∧
  IntegerStep

/-- R223 to R227, R239: OBRES sets up a reservation that is well formed, lies in the team's share, meets no other, and is one of at most 16 on the
core; OBREL ends one; OBLD copies register words into one, with their poison; each waits for operations that use it. MSYNC waits for the
group's operations; MSYNC.abort discards those that may be. -/
def Obligations.OperandBuffer : Prop :=
  ∀ e : Enc,
    let n := e.x.toNat
    let len := 64 * 2 ^ (e.mod.toNat % 8)
    let word := fun (s : State) (c : Iss) => (uni s c e.a .b64).1
    let range := fun (w : Nat) => (w / 2 ^ 16 % 512, w / 2 ^ 25 % 512 + 1)
    let others := fun (s : State) (c : Iss) => (s.teamOf c.x).liveOb.filter (fun r => r.1 != n)
    let elsewhere := fun (s : State) (c : Iss) => ((s.teams.filter (fun t => t.1 != c.x.team && t.2.core == c.x.core && t.2.st == .running)).map
      (fun t => t.2.liveOb.length)).sum
    let fits := fun (s : State) (c : Iss) => (uni s c e.a .b64).2 = false ∧ obMalformed (word s c) = false ∧
      (range (word s c)).1 + (range (word s c)).2 ≤ (s.launchOf c.x).hdr.obuf * 8 ∧
      (∀ r ∈ others s c, (range (word s c)).1 + (range (word s c)).2 ≤ (range r.2).1 ∨ (range r.2).1 + (range r.2).2 ≤ (range (word s c)).1) ∧
      elsewhere s c + (others s c).length < 16
    let used := fun (s : State) (c : Iss) => s.obWord c.x.team n ≠ 0 ∧ s.obInUse c.x.team n = true
    let set := fun (w : Word64) (s : State) (c : Iss) => s.modTeam c.x.team (fun q => { q with obres := cput 0 q.obres n w })
    Performs (.obres e) false (uniChecks [e.a]) false e (fun s c => c.act ≠ 0 ∧ fits s c ∧ ¬used s c)
      (fun s c => set (BitVec.ofNat 64 (word s c)) s c) ∧
    HeldBack (.obres e) false (uniChecks [e.a]) e (fun s c => c.act ≠ 0 ∧ fits s c ∧ used s c) ∧
    Performs (.obrel e) false (fun _ _ => []) false e
      (fun s c => c.act ≠ 0 ∧ s.obWord c.x.team n ≠ 0 ∧ s.obInUse c.x.team n = false) (set 0) ∧
    Stops (.obrel e) false (fun _ _ => []) e (fun s c => c.act ≠ 0 ∧ s.obWord c.x.team n = 0) (fun _ c => .plain cOB_NONE c.act) ∧
    Performs (.obld e) false (fun s c => { o := e.b, n := len, lanes := c.act } :: uniChecks [e.a] s c) false e
      (fun s c => anyLive c ∧ s.obWord c.x.team n ≠ 0 ∧ s.obInUse c.x.team n = false ∧ word s c % 64 = 0 ∧
        word s c + len ≤ (range (s.obWord c.x.team n)).2 * 128)
      (fun s c =>
        let src := match e.b with | .rs a => a.toNat | _ => 0
        let at_ := ((range (s.obWord c.x.team n)).1 * 128 + word s c) / 4
        (s.modTeam c.x.team (fun q => { q with ob := (List.range (len / 4)).foldl (fun t i =>
          let r := readWords c.x.rf.win (src + 4 * i) 4
          cput {} t (at_ + i) { v := BitVec.ofNat 32 r.1, p := r.2.1 }) q.ob })).modGroup c.g
            (fun x => x.skip (readWords c.x.rf.win src len).2.2)) ∧
    HeldBack (.obrel e) false (fun _ _ => []) e (fun s c => c.act ≠ 0 ∧ used s c) ∧
    HeldBack (.obld e) false (fun s c => { o := e.b, n := len, lanes := c.act } :: uniChecks [e.a] s c) e
      (fun s c => anyLive c ∧ used s c ∧ word s c % 64 = 0 ∧ word s c + len ≤ (range (s.obWord c.x.team n)).2 * 128) ∧
    let ab := e.mod.getLsbD 0
    let ops := fun (s : State) (c : Iss) => s.opsOf c.g c.x.core
    Performs (.msync e) ab (fun _ _ => []) false e
      (fun s c => c.act ≠ 0 ∧ if ab then ∀ o ∈ ops s c, o.running = true → o.kind < 3 else ∀ o ∈ ops s c, o.suspended = true)
      (fun s c => if ab then (s.dropMatrix c.g c.x.core).unhold c.x.core else s) ∧
    HeldBack (.msync e) ab (fun _ _ => []) e (fun s c => c.act ≠ 0 ∧ ab = false ∧ ∃ o ∈ ops s c, o.suspended = false) ∧
    (∀ s c, MayIssue s e c → NoStop s e c [] → c.x.handler = true → c.act ≠ 0 →
      (if ab then ∃ o ∈ ops s c, o.running = true ∧ 3 ≤ o.kind else ∃ o ∈ ops s c, o.suspended = false) →
      exec (.msync e) s = .next ((s.woken c []).modGroup c.g (fun x => { x with held := true, brief := false }))) ∧
    Performs (.obrel e) false (fun _ _ => []) false e (fun _ c => c.act = 0) (fun s _ => s) ∧
    Performs (.msync e) ab (fun _ _ => []) false e (fun _ c => c.act = 0) (fun s _ => s)

/-! ### Barriers, fences, tasks, the hinge and distances (R249 to R263, R284, R285, R392) -/

namespace Sys2Proof.Claims

/-- A uniform operand of 32 bits (R250). -/
def u32 (s : State) (c : Iss) (o : Opnd) : Nat := (uni s c o .b64).1 % 2 ^ 32
/-- Its poison. -/
def uPois (s : State) (c : Iss) (o : Opnd) : Bool := (uni s c o .b64).2

/-- The barrier that A names. -/
def theBar (e : Enc) (s : State) (c : Iss) : Bar := (s.teamOf c.x).bar (u32 s c e.a)

/-- A is a barrier of the team, and no operand is poisoned. -/
abbrev barOk (e : Enc) (bPois : Bool) (s : State) (c : Iss) : Prop :=
  c.act ≠ 0 ∧ uPois s c e.a = false ∧ bPois = false ∧ u32 s c e.a < (s.launchOf c.x).hdr.bars

/-- The predicate of D becomes one value in the lanes of `act`. -/
def predAll (e : Enc) (b : Bool) (s : State) (c : Iss) : State := putPred e s c (if b then c.act else 0)

/-- The count of a group's arrival: 1, or its live lanes in `act` under `.lanes`; helpers alone count 0 (R253). -/
def countOf (e : Enc) (c : Iss) : Nat := if liveLanes c = [] then 0 else if e.mod.getLsbD 0 then (liveLanes c).length else 1

/-- An arrival, which is a release and a progress event (R253), with the phase arrived in. -/
def arrived (e : Enc) (s : State) (c : Iss) : State × Bool :=
  if countOf e c = 0 then (s, false) else ((s.publish c.x.agent c.x.core 1).progress c.g).arrive c.x.team (u32 s c e.a) (countOf e c)

/-- A release at a scope (1 .team, 5 .dom) that publishes the group's earlier writes can do so: none of them waits to be sent again (R341), nor,
at .mod and .dom, a write-back of its die's L2 (R338). -/
abbrev published (scope : Nat) (s : State) (c : Iss) : Prop :=
  (s.publish c.x.agent c.x.core scope).unperformed c.x.agent = false ∧
    (4 ≤ scope → (s.publish c.x.agent c.x.core scope).backPending (c.x.core / 64) = false)

/-- The operands of an instruction that writes D and reads A and B. -/
def dabUses (e : Enc) (s : State) (c : Iss) : List Use := { o := e.d, n := 8, lanes := c.act, dest := true } :: uniChecks [e.a, e.b] s c

/-- D names a scalar register. -/
def scalarD (e : Enc) : Bool := match e.d with | .scal _ => true | _ => false

/-- The wait of a group on a barrier. -/
def barWait (e : Enc) (s : State) (c : Iss) : WaitKind := .barrier (u32 s c e.a) (predIdxOf e.d) c.act none

end Sys2Proof.Claims

/-- R251 to R254: BARI sets EXP and CNT, with phase unchanged and AUX 0; BARR arrives; BARW waits for the end of a phase, BARRW arrives and
waits; BART tests. A wait on a BROKEN team, and one whose phase has ended, ends at once. An arrival waits while an earlier write of the group cannot
be performed yet. -/
def Sys2Proof.Claims.BarrierInstructions : Prop :=
  ∀ e : Enc,
    let a := fun s c => u32 s c e.a
    let b := fun s c => u32 s c e.b
    let busy := fun (s : State) (c : Iss) => (s.teamGroups c.x.team).any (fun p => p.2.waitsOn (a s c) || p.2.heldOn (a s c))
    let armed := fun s c => (theBar e s c).exp ≠ 0
    let room := fun s c => countOf e c ≤ (theBar e s c).cnt
    let broken := fun (s : State) (c : Iss) => (s.teamOf c.x).broken
    let ends := fun (s : State) (c : Iss) ph => (theBar e s c).ph ≠ ph
    let ready := fun (s : State) (c : Iss) => countOf e c = 0 ∨ published 1 s c
    Performs (.bari e) false (uniChecks [e.a, e.b]) false e
      (fun s c => barOk e (uPois s c e.b) s c ∧ 1 ≤ b s c ∧ b s c ≤ 32767 ∧ busy s c = false)
      (fun s c => if liveLanes c = [] then s
        else s.setBar c.x.team (a s c) { ph := (theBar e s c).ph, exp := b s c, cnt := b s c, aux := 0 }) ∧
    Stops (.bari e) false (uniChecks [e.a, e.b]) e (fun s c => barOk e (uPois s c e.b) s c ∧ (b s c = 0 ∨ 32767 < b s c))
      (fun _ c => .plain cBAR_COUNT c.act) ∧
    Performs (.barr e) false (dabUses e) false e (fun s c => barOk e false s c ∧ armed s c ∧ room s c ∧ Unlogged s ∧ ready s c)
      (fun s c => if scalarD e then scalTo (arrived e s c).1 c e.d (if (arrived e s c).2 then 1 else 0) else (arrived e s c).1) ∧
    HeldAs true (.barr e) false (dabUses e) e (fun s c => barOk e false s c ∧ armed s c ∧ room s c ∧ ¬ready s c) ∧
    Stops (.barr e) false (dabUses e) e (fun s c => barOk e false s c ∧ armed s c ∧ ¬room s c) (fun _ c => .plain cBAR_OVER c.act) ∧
    (let ok := fun s c => barOk e (uPois s c e.b) s c ∧ armed s c ∧ Unlogged s
     let ph := fun s c => (b s c).testBit 0
     Performs (.barw e) false (uniChecks [e.a, e.b]) false e (fun s c => ok s c ∧ broken s c = true) (predAll e true) ∧
     Performs (.barw e) false (uniChecks [e.a, e.b]) false e (fun s c => ok s c ∧ broken s c = false ∧ ends s c (ph s c))
       (fun s c => (predAll e false s c).acquire c.g 1) ∧
     Ends (.barw e) false (uniChecks [e.a, e.b]) e (fun s c => ok s c ∧ broken s c = false ∧ ¬ends s c (ph s c))
       (fun s c => s.waitOn c e (barWait e s c))) ∧
    (let ok := fun s c => barOk e false s c ∧ armed s c ∧ Unlogged s ∧ room s c ∧ ready s c
     let w := fun s c => (arrived e s c).1
     Performs (.barrw e) false (uniChecks [e.a]) false e (fun s c => ok s c ∧ liveLanes c = []) (predAll e false) ∧
     Performs (.barrw e) false (uniChecks [e.a]) false e (fun s c => ok s c ∧ liveLanes c ≠ [] ∧ broken (w s c) c = true)
       (fun s c => predAll e true (w s c) c) ∧
     Performs (.barrw e) false (uniChecks [e.a]) false e (fun s c => ok s c ∧ liveLanes c ≠ [] ∧ broken (w s c) c = false ∧
         ((w s c).teamOf c.x |>.bar (a s c)).ph ≠ (arrived e s c).2)
       (fun s c => (predAll e false (w s c) c).acquire c.g 1) ∧
     Ends (.barrw e) false (uniChecks [e.a]) e (fun s c => ok s c ∧ liveLanes c ≠ [] ∧ broken (w s c) c = false ∧
         ((w s c).teamOf c.x |>.bar (a s c)).ph = (arrived e s c).2)
       (fun s c => (w s c).waitOn c e (.barrier (a s c) (predIdxOf e.d) c.act none)) ∧
     HeldAs true (.barrw e) false (uniChecks [e.a]) e (fun s c => barOk e false s c ∧ armed s c ∧ room s c ∧ ¬ready s c)) ∧
    (let form := e.mod.toNat % 4
     Performs (.bart e) false (dabUses e) false e
       (fun s c => barOk e (form = 0 ∧ uPois s c e.b = true) s c ∧ armed s c ∧ Unlogged s)
       (fun s c => if form = 0 then predAll e ((theBar e s c).ph != (b s c).testBit 0) s c
         else if form = 1 then predAll e (broken s c) s c
         else (scalTo s c e.d (theBar e s c).aux.toNat).acquire c.g 1)) ∧
    (∀ i ∈ [(Instr.barr e), .bart e], Stops i false (dabUses e) e
      (fun s c => c.act ≠ 0 ∧ uPois s c e.a = false ∧ uPois s c e.b = false ∧ (s.launchOf c.x).hdr.bars ≤ a s c)
      (fun _ c => .plain cBAR_RANGE c.act))

/-- R253, R254, R325: an arrival lowers CNT by its count, and the one that reaches 0 ends the phase: PH flips, CNT is EXP again, and the waiting
groups of the team go on with pd = 0. -/
def Sys2Proof.Claims.BarrierPhase : Prop :=
  ∀ (s : State) (k b n : Nat) (t : Team), s.team? k = some t → n ≠ 0 → Unlogged s →
    let x := t.bar b
    let r := s.arrive k b n
    r.2 = x.ph ∧
    (∃ t', r.1.team? k = some t' ∧ t'.bar b = (if x.cnt = n then { x with ph := !x.ph, cnt := x.exp } else { x with cnt := x.cnt - n }) ∧
      (∀ b', b' ≠ b → t'.bar b' = t.bar b') ∧ t'.broken = t.broken ∧ t'.next = t.next) ∧
    (∀ g y pd act w, s.group? g = some y → y.team = k → y.st = .active → y.wait = some w → w.kind = .barrier b pd act none →
      ∃ y', r.1.group? g = some y' ∧
        (x.cnt = n → y'.wait = none ∧ (pd ≠ 15 → y'.predMask pd.toNat = y.predMask pd.toNat &&& ~~~act)) ∧
        (x.cnt ≠ n → y' = y))

/-- Barrier instructions and the end of a phase (R251, R254, R253, R325). -/
def Obligations.Barriers : Prop :=
  BarrierInstructions ∧
  BarrierPhase

/-- R256 to R258, R337, R348: FENCE, unless `.acq`, writes back what is software coherent at its scope; `.sc` performs the group's earlier
writes, and waits for one that is to be sent again; unless `.rel`, it drops what is software coherent; every code discards what was
read ahead. PBAR counts in each live lane; PSYNC waits until no
persist-class copy of its lanes is still to be accepted, then gives and clears each lane's failure. -/
def Obligations.FencesAndPersistence : Prop :=
  ∀ e : Enc,
    (let ord := e.mod.toNat / 4
     let scope := e.x.toNat % 8
     Performs (.fence e) false (fun _ _ => []) false e (fun s c => c.act = 0 ∨ ord ≠ 0 ∨ published scope s c)
       (fun s c => if c.act = 0 then s else
         let t := if ord = 1 then s else s.release c.x scope
         let t := if ord = 0 then t.grantUpTo (whoCore c.x.core) else t
         t.acquire c.g (if ord = 2 then 0 else scope)) ∧
     HeldAs true (.fence e) false (fun _ _ => []) e (fun s c => c.act ≠ 0 ∧ ord = 0 ∧ ¬published scope s c)) ∧
    Performs (.pbar e) false (fun _ _ => []) false e (fun _ _ => True) (fun s c => upd s c (fun x =>
      (liveLanes c).foldl (fun x l => x.modLane l (fun r =>
        { r with pdie := r.pdie + (if e.x.toNat % 8 = 6 then 1 else 0), pmod := r.pmod + (if e.x.toNat % 8 = 6 then 0 else 1) })) x)) ∧
    (let named := match e.d with | .pred _ => true | _ => false
     Performs (.psync e) false (fun _ _ => []) false e
       (fun s c => c.act = 0 ∨ (Unlogged s ∧ ∀ l ∈ liveLanes c, s.persisting c.g l = false))
       (fun s c => if c.act = 0 then s else
         let t := upd s c (fun x => (liveLanes c).foldl (fun x l => x.modLane l (fun r => { r with psf := false })) x)
         if named then putPred e t c (maskOf ((liveLanes c).filter (fun l => (c.x.lane l).psf))) else t) ∧
     HeldBack (.psync e) false (fun _ _ => []) e (fun s c => c.act ≠ 0 ∧ ∃ l ∈ liveLanes c, s.persisting c.g l = true)) ∧
    ∀ (s : State) (g l : Nat), s.persisting g l = true ↔ ∃ y ∈ s.copies, y.g = g ∧ y.lane = l ∧ (leNat y.tpl).testBit 261 = true ∧
      ¬(y.started = true ∧ y.pending = [] ∧ tpPositions (leNat y.tpl) ≤ y.pos) ∧ y.fail = none

/-- R259, R408, R409: STEPADV, which only a launch with the step flag may execute, fences at .dom, advances `%step`, and gives its new value; in
a step group it waits until the etcher has accepted the capture and no write to a page of the set is still to be performed, and says
that it waits. -/
def Sys2Proof.Claims.StepAdvance : Prop :=
  ∀ e : Enc,
    let uses := fun (_ : State) (c : Iss) => [({ o := e.d, n := 8, lanes := c.act, dest := true } : Use)]
    let q := fun (s : State) (c : Iss) => s.ctx c.x.ctx
    let et := fun (s : State) (c : Iss) => cget ({} : Etch) s.etches c.x.ctx
    let flag := fun (s : State) (c : Iss) => (leNat (s.launchOf c.x).lrec).testBit 25
    let fenced := fun (s : State) (c : Iss) => ((s.release c.x 5).grantUpTo (whoCore c.x.core)).acquire c.g 5
    let ready := fun (s : State) (c : Iss) => (q s c).stepGroup = none ∨
      ((et s c).accepted = some (q s c).step.toNat ∧ (fenced s c).grantDue.setPending (et s c).pages = false)
    Performs (.stepadv e) false uses false e
      (fun s c => c.act = 0 ∨ (flag s c = true ∧ (liveLanes c = [] ∨ (published 5 s c ∧ ready s c))))
      (fun s c => if c.act = 0 then s else if liveLanes c = [] then scalTo s c e.d 0 else
        let inGroup := (q s c).stepGroup.isSome
        let t := (fenced s c).grantDue.modCtx c.x.ctx (fun z =>
          { z with step := z.step + 1, stepLaunch := if inGroup then some c.x.launch else z.stepLaunch })
        let t := t.modLaunch c.x.launch (fun l => { l with boundary := if inGroup then some (q s c).step.toNat else l.boundary })
        scalTo { t with etches := cput {} t.etches c.x.ctx { et s c with wanted := false, accepted := none } } c e.d ((q s c).step.toNat + 1)) ∧
    (∀ (s : State) (c : Iss), CanIssue s e c → NoStop s e c (uses s c) → PortsServe s c (uses s c) →
      let b := s.begun c (uses s c)
      let c' := c.passed s (uses s c)
      let w := s.woken c (uses s c)
      c'.act ≠ 0 → flag b c' = true → liveLanes c' ≠ [] → published 5 b c' → ¬ready b c' →
      exec (.stepadv e) s = .next
        (State.modGroup { fenced w c' with etches := cput {} (fenced w c').etches c'.x.ctx { et b c' with wanted := true } } c.g
          (fun x => { x with held := true }))) ∧
    HeldBack (.stepadv e) false uses e (fun s c => c.act ≠ 0 ∧ flag s c = true ∧ liveLanes c ≠ [] ∧ ¬published 5 s c) ∧
    Stops (.stepadv e) false uses e (fun s c => c.act ≠ 0 ∧ flag s c = false) (fun _ c => .plain cSTEP_PRIV c.act)

/-- R260, R261, R279, R280, R285: DEPDEC is a release and lowers a counter of its context, whose task fires at 0 and which stays at 0 below it;
QPUSH is a release and appends the record of B to a device queue of its context, giving 0, or 1 when it is full. -/
def Sys2Proof.Claims.TasksAndQueues : Prop :=
  (∀ e : Enc,
    let a := fun s c => u32 s c e.a
    let b := fun s c => u32 s c e.b % 2 ^ 16
    let own := fun (s : State) (c : Iss) => a s c < 8192 ∧ (s.ctr (a s c)).owner = some c.x.ctx
    let ok := fun s c => c.act ≠ 0 ∧ uPois s c e.a = false ∧ uPois s c e.b = false
    Performs (.depdec e) false (uniChecks [e.a, e.b]) false e (fun s c => ok s c ∧ own s c ∧ (b s c = 0 ∨ liveLanes c = [] ∨ published 5 s c))
      (fun s c => if b s c = 0 ∨ liveLanes c = [] then s else (s.publish c.x.agent c.x.core 5).decCtr (a s c) (b s c) (s.groupRec c.x 0 c.act c.ent.pc)) ∧
    HeldAs true (.depdec e) false (uniChecks [e.a, e.b]) e
      (fun s c => ok s c ∧ own s c ∧ b s c ≠ 0 ∧ liveLanes c ≠ [] ∧ ¬published 5 s c) ∧
    Stops (.depdec e) false (uniChecks [e.a, e.b]) e (fun s c => ok s c ∧ ¬own s c) (fun _ c => .plain cDEP_RANGE c.act) ∧
    (let uses := fun (s : State) (c : Iss) => { o := e.d, n := 8, lanes := c.act, dest := true } :: { o := e.b, n := 256, lanes := c.act }
       :: uniChecks [e.a] s c
     let rec_ := fun (c : Iss) => readWords c.x.rf.win (match e.b with | .rs k => k.toNat | _ => 0) 256
     let k := fun (s : State) (c : Iss) => (uni s c e.a .b64).1
     Performs (.qpush e) false uses false e
       (fun s c => c.act = 0 ∨ (uPois s c e.a = false ∧ k s c < 4096 ∧ (s.queue (k s c)).ctx = c.x.ctx ∧ (s.queue (k s c)).dev = true ∧
         (s.queue (k s c)).st ≠ .disabled ∧ (rec_ c).2.1 = false ∧ Unlogged s ∧ (liveLanes c = [] ∨ published 5 s c)))
       (fun s c => if c.act = 0 then s else if liveLanes c = [] then scalTo s c e.d 0 else
         let w := ((upd s c (fun x => x.skip (rec_ c).2.2)).publish c.x.agent c.x.core 5).append (k s c) (leBytes 256 (rec_ c).1)
         scalTo w.1 c e.d (if w.2 then 0 else 1)) ∧
     HeldAs true (.qpush e) false uses e (fun s c => c.act ≠ 0 ∧ uPois s c e.a = false ∧ k s c < 4096 ∧ (s.queue (k s c)).ctx = c.x.ctx ∧
       (s.queue (k s c)).dev = true ∧ (s.queue (k s c)).st ≠ .disabled ∧ (rec_ c).2.1 = false ∧ liveLanes c ≠ [] ∧ ¬published 5 s c))) ∧
  (∀ (s : State) (k n : Nat) (r : ErrRec), n ≠ 0 →
    let x := s.ctr k
    let t := s.decCtr k n r
    (t.ctr k).value = x.value - n ∧ (t.ctr k).owner = x.owner ∧ (∀ j, j ≠ k → t.ctr j = s.ctr j) ∧
    (x.value ≠ n → (t.ctr k).task = x.task) ∧
    (∀ task, x.value = n → x.task = some task → (t.ctr k).task = none ∧ (t.queue task.queue).fired = (s.queue task.queue).fired ++ [task])) ∧
  ∀ (s : State) (k : Nat) (bs : List Byte),
    let x := s.queue k
    let r := s.append k bs
    (x.full = true ↔ 2 ^ x.logn ≤ (x.tail - x.head).toNat) ∧ (r.2 = !x.full) ∧ (x.full = true → r.1 = s) ∧
    (x.full = false → (r.1.queue k) = { x with tail := x.tail + 1 } ∧ ∀ j, j ≠ k → r.1.queue j = s.queue j)

/-- STEPADV, DEPDEC and QPUSH (R259, R408, R409, R260, R261, R279, R280, R285). -/
def Obligations.StepsAndTasks : Prop :=
  StepAdvance ∧
  TasksAndQueues

/-- R262, R392: LHINGE gives 2 to a context that does not own its die's bias, 0 where the split is what it asks for, and else queues turns toward
the split, clamped to 4 to 16, giving 1, or 3 when it was clamped. -/
def Sys2Proof.Claims.Hinge : Prop :=
  ∀ e : Enc,
    let a := fun s c => u32 s c e.a
    let die := fun (c : Iss) => c.x.core / 64
    let s1 := fun (s : State) (c : Iss) => s.settleBias (die c)
    let ln := fun (s : State) (c : Iss) => (s1 s c).link (die c)
    Performs (.lhinge e) false (dabUses e) false e
      (fun s c => c.act = 0 ∨ (uPois s c e.a = false ∧ Unlogged s))
      (fun s c => if c.act = 0 then s else if liveLanes c = [] then scalTo s c e.d 0
        else if (ln s c).owner ≠ some c.x.ctx then scalTo (s1 s c) c e.d 2
        else if (ln s c).spoke = a s c then scalTo (s1 s c) c e.d 0
        else
          let clamp := max 4 (min 16 (a s c))
          let most := ((ln s c).inService (die c)).length - 4
          scalTo ((s1 s c).modLink (die c) (fun x => x.request (die c) (min clamp most) s.now)) c e.d (if clamp = a s c then 1 else 3)) ∧
    Stops (.lhinge e) false (dabUses e) e (fun s c => c.act ≠ 0 ∧ uPois s c e.a = true) (fun _ c => .plain cPOISON_CONSUMED c.act)

/-- R263: DHOP gives the distance of two virtual dies: 0 for one die, 2 within a module, 2 more than the hops between two modules, all ones
where either has no route, the routing table's entry in switched mode; on the torus each dimension counts the shorter way round. -/
def Sys2Proof.Claims.Distances : Prop :=
  (∀ e : Enc,
    let lanes := fun (c : Iss) => computeLanes e.d c.act
    let at_ := fun (s : State) (c : Iss) (o : Opnd) l => s.vdie (s.ctx c.x.ctx).desc ((srcOf s c o .b32 l).1 % 2 ^ 16)
    Acts (.dhop e) false (opUses [{ o := e.a, ty := .b32 }, { o := e.b, ty := .b32 }] e.d 4) false e (fun s c w => Unlogged s ∧
      (∀ l ∈ lanes c, (srcOf s c e.a .b32 l).2.1 = false ∧ (srcOf s c e.b .b32 l).2.1 = false ∧
        (at_ s c e.a l).isSome = true ∧ (at_ s c e.b l).isSome = true) ∧
      (upd { s with freeCtr := s.freeCtr + 32 } c (fun x => x.skip ((lanes c).foldl (fun n l => n + (srcOf s c e.a .b32 l).2.2 + (srcOf s c e.b .b32 l).2.2) 0))).putResults
        c e.d 4 32 ((lanes c).map (fun l =>
          { lane := l, v := s.dieHops ((at_ s c e.a l).getD (0, 0)) ((at_ s c e.b l).getD (0, 0)) (s.freeCtr + l), p := false })) none = .ok w)) ∧
  (∀ (s : State) (a b : Nat × Nat) (n : Nat),
    s.dieHops a b n = if a = b then 0 else if a.1 = b.1 then 2 else match s.moduleHops a.1 b.1 n with | some h => h + 2 | none => 2 ^ 32 - 1) ∧
  (∀ (s : State) (a b n : Nat),
    let there := fun m => m = s.ownPhys ∨ s.hasRoute m = true
    (¬(there a ∧ there b) → s.moduleHops a b n = none) ∧
    (there a ∧ there b → s.host.fabmode = false → s.moduleHops a b n = some (torusHops a b)) ∧
    (there b → s.host.fabmode = true → s.moduleHops s.ownPhys b n = some ((cget 0 s.routes b).toNat / 2 ^ 12 % 2 ^ 8))) ∧
  ∀ a b : Nat,
    let way := fun (n x y : Nat) => min ((x + n - y) % n) ((y + n - x) % n)
    a < 432 → b < 432 → torusHops a b = way 6 (a % 6) (b % 6) + way 6 (a / 6 % 6) (b / 6 % 6) + way 12 (a / 36) (b / 36)

/-- LHINGE and DHOP (R262, R392, R263). -/
def Obligations.HingeAndDistances : Prop :=
  Hinge ∧
  Distances

/-! ### The scheduler of a core (R74, R88, R307, R312 to R314, R318, R341, R429 to R431) -/

/-- R88: the oldest long-latency instruction of a group completes: its writes and its last-result entry appear, and it is pending no more;
nothing but groups and counters changes. -/
def Sys2Proof.Claims.LongLatency : Prop :=
  ∀ (s : State) (g : Nat) (x : Group) (p : Pend) (r : List Pend), s.group? g = some x → x.pend = p :: r →
    ∃ t y, exec (.longLatencyComplete g) s = .next t ∧ t.group? g = some y ∧ SameOutside s t ∧ y.pend = r ∧ y.held = false ∧
      (y.sketch = none ∨ y.sketch = x.sketch) ∧
      y.rf.win = (p.writes.foldl Group.applyWrite x).rf.win ∧ y.frontier = x.frontier ∧ y.lanes = x.lanes ∧
      (∀ k, p.lpos = some k → y.rf.lf = (p.writes.foldl Group.applyWrite x).rf.lf.setEntry k p.lvals) ∧
      (p.lpos = none → y.rf.lf = x.rf.lf)

/-- R304, R306, R307: the group promoted is the oldest of the ready pending ones that neither the scoreboard nor a lock holds, one marked by YIELD only if
no other is ready; it takes a free place, or that of the youngest active group in a long-latency wait, and may issue three cycles later. -/
def Sys2Proof.Claims.Swaps : Prop :=
  ∀ (s : State) (core : Nat),
    let ready := fun (k : Nat) (z : Group) => z.core = core ∧ z.readyPending = true ∧ s.holders z = [] ∧ s.lockedNext k z = false
    let marked := fun (z : Group) => ∃ t, z.yieldEnd = some t ∧ s.cycle < t
    let promoted := fun (h : Nat) (y : Group) (t : State) =>
      (t.setGroup h { y with st := .active, issueFrom := s.cycle + 3 }).modTeam y.team (fun q => { q with promoted := y.num })
    (∀ h y, s.nextReady core = some (h, y) →
      (h, y) ∈ s.groups ∧ ready h y ∧ ∀ k z, (k, z) ∈ s.groups → ready k z →
        (¬marked z → ¬marked y ∧ y.seniority ≤ z.seniority) ∧ (marked y → y.seniority ≤ z.seniority)) ∧
    (s.nextReady core = none → (s.activeOn core).length < Config.activePlaces → exec (.groupSwap core) s = .next s) ∧
    (∀ h y, s.nextReady core = some (h, y) → (s.activeOn core).length < Config.activePlaces →
      exec (.groupSwap core) s = .next (promoted h y s)) ∧
    ∀ g x h y, Config.activePlaces ≤ (s.activeOn core).length → s.youngestWait core = some (g, x) → s.group? g = some x → x.core = core →
      s.nextReady core = some (h, y) →
      exec (.groupSwap core) s = .next ((promoted h y (s.setGroup g { x with st := .pending, restFrom := s.cycle })).count core 2 1)

/-- R312 to R314: a group that waits for data that missed the L2 may have a sketch, if no older group of its core may, which starts at the header's entry with the live-in registers;
it ends after 256 instructions, when the data has returned, when its parent stops, and on anything that it may not do, counted then. -/
def Sys2Proof.Claims.Sketches : Prop :=
  ∀ (s : State) (g : Nat) (x : Group), s.group? g = some x →
    (∀ e, x.chosen = some e → s.maySketch x = true →
      (∀ h z, (h, z) ∈ s.groups → z.core = x.core → z.seniority < x.seniority → s.maySketch z = false ∨ z.chosen = none) →
      ∃ k, exec (.sketchSpawn g) s = .next ((s.setGroup g { x with sketch := some k }).count x.core 3 1) ∧ k.count = 0 ∧
        k.frontier = [{ pc := (s.launchOf x).hdr.skEntry, prio := 0x800, mask := e.mask &&& ~~~x.helpers &&& ~~~x.empties }] ∧
        (∀ j ∈ (s.launchOf x).hdr.sks, cget {} k.scal j.toNat = cget {} x.rf.scal j.toNat) ∧ k.preds = [] ∧ k.fstat = 0 ∧
        (∀ l, l < 32 → cget (0, 0) k.ids l = ((x.lane l).item, (x.lane l).age))) ∧
    ∀ k, x.sketch = some k →
      let ended := s.setGroup g { x with sketch := none }
      exec (.sketchEnd g .cause) s = .next (ended.count x.core 4 1) ∧
      (256 ≤ k.count → exec (.sketchEnd g .count) s = .next ended) ∧
      ((s.holders x).all (fun p => !p.missL2) = true → exec (.sketchEnd g .dataReturned) s = .next ended) ∧
      (x.handler = true → exec (.sketchEnd g .parent) s = .next ended) ∧
      (s.sketchNext g x k = none → exec (.sketchEnd g .forbidden) s = .next (ended.count x.core 4 1))

/-- R74, R318, R341: a group whose fetch meets an absent page parks under its keys once its ports' pushes are performed, and its frame is placed; a granule of a group that is pending
or parked goes drowsy after 256 cycles without an access, and an access wakes it and is counted; at the end of a merge window every
pending write that is not to be sent again is granted, and only what the grants evicted from an L2 is left to be written back. -/
def Sys2Proof.Claims.ParkingAndGranules : Prop :=
  ∀ (s : State) (g : Nat) (x : Group), s.group? g = some x →
    ((x.st = .parked ∨ x.st = .frozen) → exec (.groupPark g) s = .next (s.placeFrame g)) ∧
    (∀ e ks, x.st = .active → x.chosen = some e → x.issuable = true → s.mayRun x = true → s.unitBusy g x = false → s.pushesPend x = false → e.pc.toNat < s.codeEnd x →
      s.fetchPlace x e = .error (.park ks) →
      exec (.groupPark g) s = .next ((s.parkOn g x ks).capAppend g 8 e.pc.toNat e.mask [])) ∧
    (∀ keys, ∃ (t : State) (y : Group), s.parkGroup g keys = t.placeFrame g ∧ t.group? g = some y ∧ y.st = .parked ∧ y.slot = none ∧ y.sketch = none ∧
      y.parkKeys = keys ∧ y.pend = [] ∧ y.frontier = x.frontier ∧ ∀ o ∈ (t.core x.core).mq, o.g ≠ g) ∧
    (∀ k, x.hasGranule k = true → (x.st = .pending ∨ x.st = .parked) → x.restFrom + 256 ≤ s.cycle → cget 0 x.rf.touch k + 256 ≤ s.cycle →
      cget GranSt.awake x.rf.gran k = .awake →
      exec (.granuleDrowsy g k) s = .next (s.setGroup g { x with rf := { x.rf with gran := cput .awake x.rf.gran k .drowsy } })) ∧
    (∀ k, cget GranSt.awake x.rf.gran k = .drowsy →
      exec (.drowsyWake g k) s = .next ((s.setGroup g { x with rf := { x.rf with
        gran := cput .awake x.rf.gran k .awake, touch := if x.st = .active then x.rf.touch else cput 0 x.rf.touch k s.cycle } }).count
          x.core 7 1)) ∧
    (s.tokReqs = [] → s.etches = [] → (∀ r ∈ s.mergeQ, r.due ≤ (s.cycle / 64 + 1) * 64) →
      ∃ t, exec .mergeWindowGrant s = .next t ∧ t.cycle = (s.cycle / 64 + 1) * 64 ∧ (∀ r ∈ t.mergeQ, r.agent = evictAgent) ∧ t.served = [] ∧
        (∀ pa n, t.memBytes pa n = s.grantAll.memBytes pa n) ∧
        ∀ k, (t.team? k).map (fun q => q.scr) = (s.grantAll.team? k).map (fun q => q.scr))

/-- Late completion, swaps, parking, granules, merge windows (R88, R304, R306, R307, R74, R318, R341). -/
def Obligations.Scheduler : Prop :=
  LongLatency ∧
  Swaps ∧
  ParkingAndGranules

/-- R429 to R431: a watchdog whose count reaches its interval asks for WATCHDOG once; a barrier wait dead for 65,536 cycles asks for it with the
barrier's number; at the end of the second interval the context is saved and the host gets a record. -/
def Sys2Proof.Claims.Watchdogs : Prop :=
  ∀ (s : State) (g : Nat) (x : Group), s.group? g = some x →
    (x.wd.armed = true → x.wd.expired = false → x.wd.interval ≤ x.wd.w → x.asyncWd = none →
      exec (.watchdog g) s = .next (s.setGroup g { x with wd := { x.wd with expired := true }, asyncWd := some { cause := 0x14D } })) ∧
    ((x.wd.armed = false ∨ x.wd.expired = true ∨ x.wd.w < x.wd.interval) → exec (.watchdog g) s = .next (s.setGroup g x)) ∧
    (∀ b, x.awaits = some b → s.deadWait x = true → 65536 ≤ x.wd.dead →
      exec (.deadWaitExpiry g) s = .next (s.setGroup g { x with
        wd := { x.wd with dead := 0 }, asyncWd := some { cause := 0x14D, info := BitVec.ofNat 64 (1 + 256 * b) } })) ∧
    (x.wd.second = some 0 → x.st ≠ .saved →
      exec (.watchdogSecond g) s = .next
        (((s.setGroup g { x with wd := { x.wd with second := none } }).beginSave x.ctx).writeErr (s.groupRec x 0x14E 0 0)))

/-- Sketches and watchdogs (R312, R314, R429, R431). -/
def Obligations.SketchesAndWatchdogs : Prop :=
  Sketches ∧
  Watchdogs

/-! ### Launches, teams, and saving (R13, R267 to R305, R426, R427) -/

/-- R281, R283, R285: the record at the head of an enabled queue is checked: a refused one puts the queue into ERROR, a task whose counter is not 0
is parked at it and the next record becomes the head, any other waits to be started. -/
def Sys2Proof.Claims.QueueHead : Prop :=
  ∀ (s : State) (q : BitVec 12),
    let k := q.toNat
    let x := s.queue k
    let bs := s.memBytes (x.ring + 256 * (x.head.toNat % 2 ^ x.logn)) 256
    let v := leNat bs
    let ctr := v / 2 ^ 32 % 2 ^ 13
    let s1 := s.hbmTouch (x.ring + 256 * (x.head.toNat % 2 ^ x.logn)) 256 false
    let serves := x.st = .enabled ∧ x.head ≠ x.tail ∧ x.headRec = none
    (¬serves → exec (.queueHeadService q) s = .next s) ∧
    (serves → ∀ c, s.headCause bs x.ctx = some c → exec (.queueHeadService q) s = .next (s1.refuse k c false x.head)) ∧
    (serves → s.headCause bs x.ctx = none → v.testBit 27 = true → (s.ctr ctr).value ≠ 0 →
      exec (.queueHeadService q) s = .next ((s1.setCtr ctr { s.ctr ctr with task := some { queue := k, ctr := some ctr, lrec := bs } }).setQueue k
        { x with head := x.head + 1 })) ∧
    (serves → s.headCause bs x.ctx = none → (v.testBit 27 = false ∨ (s.ctr ctr).value = 0) →
      exec (.queueHeadService q) s = .next (s1.setQueue k { x with headRec := some bs })) ∧
    (∀ c esrc i, let y := (s.refuse k c esrc i).queue k
      y = { s.queue k with st := .error, ecause := c, esrc := esrc, eidx := i })

/-- R283, R286: the dispatcher takes the next launch of a queue of the highest PRIO that has a startable one, a fired task before the head, and
starts it, or refuses it for a header, virtual die or limit; while the header's page or the path to it is not there, it waits. -/
def Sys2Proof.Claims.StartOrRefuse : Prop :=
  ∀ s : State,
    (∀ q, s.nextQueue = some q → ∃ p ∈ s.queues, p.1 = q ∧ s.startable? p.2 = true ∧
      ∀ p' ∈ s.queues, s.startable? p'.2 = true → p'.2.prio ≤ p.2.prio) ∧
    (s.nextQueue = none → exec .launchStart s = .next s) ∧
    ∀ q bs ctr, s.nextQueue = some q → (s.queue q).nextLaunch = some (bs, ctr) →
      let x := s.queue q
      let d := (s.ctx x.ctx).desc
      let hdr := leNat bs / 2 ^ 64 % 2 ^ 64
      let s1 := s.hubUse d hdr 128
      (s.hubWaits d .read hdr = true → exec .launchStart s = .next (s.hubHold d .read hdr)) ∧
      (s.hubWaits d .read hdr = false → ∀ c, s1.startCause x.ctx (leNat bs) = .error c → exec .launchStart s =
        .next ((s1.critOver (s1.hubCause d .read hdr)).refuse q c (!x.fired.isEmpty)
          (match ctr with | some k => BitVec.ofNat 16 k | none => x.head))) ∧
      ∀ h, s.hubWaits d .read hdr = false → s1.startCause x.ctx (leNat bs) = .ok h →
        let l : Launch := {
          ctx := x.ctx, queue := some q, hdr := h, seed := BitVec.ofNat 32 (leNat bs / 2 ^ 288), prvb := leNat bs / 2 ^ 320 % 2 ^ 64,
          lrec := bs, prio := x.prio, toPlace := clusterOrder (leNat bs), ctr := ctr }
        ∃ w, exec .launchStart s = .next w ∧ w.nextId = s.nextId + 1 ∧ w.launch? s.nextId = some l ∧
        (x.fired = [] → w.queue q = { x with head := x.head + 1, headRec := none, prev := some s.nextId }) ∧
        (x.fired ≠ [] → w.queue q = { x with fired := x.fired.tail, prev := some s.nextId })

/-- R291, R294: the teams share the items in runs, in ascending order, of sizes that differ by at most 1; the walk of a tiled launch in row order or
serpentine visits every team once. -/
def Sys2Proof.Claims.WorkDivision : Prop :=
  ∀ v : Nat,
    let teams := v / 2 ^ 192 % 2 ^ 16 + 1
    let items := v / 2 ^ 160 % 2 ^ 32
    (teamItems v 0).1 = v / 2 ^ 128 % 2 ^ 32 ∧
    (∀ t, t < teams → (teamItems v (t + 1)).1 = (teamItems v t).1 + (teamItems v t).2) ∧
    ((List.range teams).map (fun t => (teamItems v t).2)).sum = items ∧
    (∀ t u, t < teams → u < teams → (teamItems v t).2 ≤ (teamItems v u).2 + 1) ∧
    (v / 2 ^ 240 % 4 ≤ 1 → (walkTeams v).Perm (List.range teams))

/-- Queue heads, the start of a launch, and the division of its items (R281, R283, R285, R286, R291, R294). -/
def Obligations.LaunchStart : Prop :=
  QueueHead ∧
  StartOrRefuse ∧
  WorkDivision

/-- R287, R300 to R303: the distributor places the first cluster that fits; a group that meets the end condition ends, and is then ENDED with its
slot free, or gone with its completed launch. -/
def Sys2Proof.Claims.PlacementAndEnd : Prop :=
  ∀ s : State,
    (let u := s.placing.foldl (fun s p => s.dropForeign p.1 p.2) s
     let t := u.placing.foldl (fun s p => s.noteAbsent p.1 p.2) u
     (∀ w, t.placeFirst [] t.placing = some w → exec .clusterPlace s = .next w) ∧
     (t.placeFirst [] t.placing = none → exec .clusterPlace s = .next t)) ∧
    ∀ g x, s.group? g = some x → s.replays = [] →
      (x.empties = ~~~0 ∧ (x.st = .active ∨ x.st = .pending ∨ x.st = .draining) ∧ s.copiesOf g = [] ∧ s.opsOf g x.core = [] ∧ x.mats = [] ∧
          s.unperformed x.agent = false →
        ∃ t, exec (.groupEnd g) s = .next t ∧ ∀ y, t.group? g = some y → y.st = .ended ∧ y.slot = none ∧ y.frontier = [] ∧ y.pend = []) ∧
      (x.empties ≠ ~~~0 ∨ s.copiesOf g ≠ [] ∨ s.unperformed x.agent = true → exec (.groupEnd g) s = .next s)

/-- R13, R30, R31, R270 to R275, R298, R426, R427: a cluster of a context that is SAVING or FAULTED, or on a retired core, is saved whole, once its groups' writes are performed and what its die has still to write back of them is written
back; a saved one comes back to the die that its virtual die maps to then; SAVING and DRAINING end when nothing of them is left; triage retires a
core. -/
def Sys2Proof.Claims.SavingAndRestoring : Prop :=
  ∀ s : State,
    (∀ c x l, s.cluster? c = some x → s.launch? x.launch = some l →
      let t := s.publishCluster x
      let must := s.mustSave x l
      (x.st = .resident → must = true ∨ s.wantedRoom x l = true → t.clusterPending x = true → exec (.clusterPreempt c) s = .next t) ∧
      (x.st = .resident → must = true → t.clusterPending x = false →
        exec (.clusterPreempt c) s = .next ((t.saveCluster c x l).getD (t.saveTooSmall l.ctx))) ∧
      (x.st = .resident → must = false → s.wantedRoom x l = true → t.clusterPending x = false → ∀ u, t.saveCluster c x l = some u →
        exec (.clusterPreempt c) s = .next u) ∧
      (x.st ≠ .resident → exec (.clusterPreempt c) s = .next s)) ∧
    (∀ c x l die cores e, s.cluster? c = some x → s.launch? x.launch = some l → x.st = .saved → s.ctxRuns l.ctx = true →
      s.vdie (s.ctx l.ctx).desc x.vdie = some e → s.ownDie (s.ctx l.ctx).desc x.vdie = some die →
      s.coresFor die (x.teams.map (fun k => ((s.team? k).map (s.teamRoom k)).getD {})) [] = some cores → s.mayRestore l die = true →
      exec (.clusterRestore c) s = .next (s.restoreCluster c x l die cores)) ∧
    (∀ c : BitVec 7, (s.ctx c.toNat).st = .saving → s.stillResident c.toNat = false →
      ((s.ctx c.toNat).faultAfterSave = false → exec (.contextSaved c) s = .next ((s.modCtx c.toNat (fun x => { x with st := .saved })).notify)) ∧
      ((s.ctx c.toNat).faultAfterSave = true → exec (.contextSaved c) s =
        .next (s.modCtx c.toNat (fun x => { x with st := .faulted, faultAfterSave := false })))) ∧
    (∀ c : BitVec 7, (s.ctx c.toNat).st = .draining → ∃ t, exec (.contextDrainComplete c) s = .next t ∧ t.ctx c.toNat = {} ∧
      (∀ p ∈ t.ctrs, p.2.owner ≠ some c.toNat) ∧ ∀ e ∈ t.tlbs, e.asid ≠ (s.ctx c.toNat).desc.asid) ∧
    ∀ core, (s.core core).enabled = true → (s.core core).retired = false → s.triaged core = true →
      ∃ t, exec (.coreRetired core) s = .next t ∧ (t.core core).retired = true ∧ (t.core core).checkFails = []

/-- Placement, the end of a group, saving, restoring, retiring (R287, R300, R303, R13, R30, R31, R270, R275, R298, R426, R427). -/
def Obligations.PlacementAndSaving : Prop :=
  PlacementAndEnd ∧
  SavingAndRestoring

/-! ### The command processor (R265 to R285, R365 to R369, R422, R426, R432 to R434, R440, R441) -/

namespace Sys2Proof.Claims

/-- Parameter k of a command. -/
def arg (c : Cmd) (k : Nat) : Nat := ((c.p[k]?).getD 0).toNat

/-- The command of an instruction of the ring, and the bring-up state in which it may also run (R440). -/
def commandOf : Instr → Option (Cmd × Option Nat)
  | .ctxnew c | .ctxrun c | .ctxstop c | .ctxkill c | .ctxsync c | .resync c | .qcreate c | .qresumeSkip c | .qresumeRetry c
  | .qdestroy c | .depset c | .depfree c | .hostDepdec c | .cohset c | .pgfree c | .pgmig c | .hostRply c | .hostTlbi c
  | .sgjoin c | .scrub c | .errpop c | .coreret c | .capset c | .replay c | .dbgwr c | .dbgres c | .dbgresEnd c => some (c, none)
  | .ltrain c => some (c, some 2)
  | .rstep c => some (c, some 5)
  | _ => none

/-- What a command does in a READY module whose completion ring has room: where `ok` holds, its effect comes, and it completes with a status
and a result (R441). -/
def Does (i : Cmd → Instr) (ok : Cmd → State → Prop) (f : Cmd → State → State) (status : Nat) (result : Cmd → State → Nat) : Prop :=
  ∀ (c : Cmd) (s : State), s.ringUsed < s.ringSize → s.mstate = 6 → ok c s →
    exec (i c) s = .next ((f c s).complete c.tag status (result c s))

/-- A command that succeeds with no result. -/
def Succeeds (i : Cmd → Instr) (ok : Cmd → State → Prop) (f : Cmd → State → State) : Prop := Does i ok f 0 (fun _ _ => 0)

/-- A command that is refused with a status. -/
def Refuses (i : Cmd → Instr) (ok : Cmd → State → Prop) (status : Nat) : Prop := Does i ok (fun _ s => s) status (fun _ _ => 0)

/-- The state of the context that parameter 0 names. -/
def ctxSt (c : Cmd) (s : State) : CtxSt := (s.ctx (arg c 0)).st

/-- A context that is neither FREE nor DRAINING. -/
abbrev liveCtx (s : State) (k : Nat) : Prop := k < 128 ∧ (s.ctx k).st ≠ .free ∧ (s.ctx k).st ≠ .draining

end Sys2Proof.Claims

/-- R440, R441: a command waits while the completion ring is full, and before READY completes with NOT_READY, but LTRAIN while links train and RSTEP
while the module restores; a completion takes the next slot of the ring with its tag, status and result. -/
def Sys2Proof.Claims.CommandStatus : Prop :=
  (∀ (i : Instr) (c : Cmd) (early : Option Nat) (s : State), commandOf i = some (c, early) →
    (s.ringSize ≤ s.ringUsed → exec i s = .next s) ∧
    (s.ringUsed < s.ringSize → s.mstate ≠ 6 → early ≠ some s.mstate → exec i s = .next (s.complete c.tag 0x82 0))) ∧
  ∀ (s : State) (tag : BitVec 16) (st r : Nat), s.evbuf = [] → s.ringUsed < s.ringSize → tag ≠ 0xFFFF → st < 2 ^ 16 → r < 2 ^ 64 →
    let t := s.complete tag st r
    t.host.cctail = s.host.cctail + 1 ∧ t.msix = s.msix ++ [0] ∧
    cgets 0 t.hostMem (s.host.ccbase.toNat / 4096 * 4096 + 16 * (s.host.cctail.toNat % s.ringSize)) 16 =
      leBytes 2 tag.toNat ++ leBytes 2 st ++ leBytes 4 0 ++ leBytes 8 r

/-- R267 to R278: CTXNEW, CTXRUN, CTXSTOP, CTXKILL and CTXSYNC: the state that each asks for and leaves, and the statuses of a bad descriptor, a
context in use, an ASID in use and a wrong state. -/
def Sys2Proof.Claims.ContextCommands : Prop :=
  let desc := fun (c : Cmd) (s : State) => s.readDesc (arg c 0)
  Refuses .ctxnew (fun c s => desc c s = none) 1 ∧
  (∀ k d, Refuses .ctxnew (fun c s => desc c s = some (k, d) ∧ (s.ctx k).st ≠ .free) 2) ∧
  (∀ k d, Refuses .ctxnew (fun c s => desc c s = some (k, d) ∧ (s.ctx k).st = .free ∧ s.asidUsed k d.asid = true) 3) ∧
  (∀ k d, Succeeds .ctxnew (fun c s => desc c s = some (k, d) ∧ (s.ctx k).st = .free ∧ s.asidUsed k d.asid = false)
    (fun c s => ((s.tlbi none (fun t => t.asid == d.asid)).setCtx k
      { st := .idle, desc := d, descPa := arg c 0, step := d.step0, split := d.split.setWidth 2 }).enableQueues k)) ∧
  (let ok := fun (c : Cmd) (s : State) => arg c 0 < 128 ∧
     (ctxSt c s = .saved ∨ (ctxSt c s = .faulted ∧ s.frozenLeft (arg c 0) = false))
   Succeeds .ctxrun ok (fun c s => s.modCtx (arg c 0) (fun x =>
     { x with st := .idle, fcause := 0, pcause := 0, faultAfterSave := false, saveShort := false, restoring := s.anySaved (arg c 0) })) ∧
   Refuses .ctxrun (fun c s => arg c 0 < 128 ∧ ¬ok c s) 4) ∧
  Succeeds .ctxstop (fun c s => arg c 0 < 128 ∧ (ctxSt c s = .idle ∨ ctxSt c s = .active))
    (fun c s => s.modCtx (arg c 0) (fun x => { x with st := .saving })) ∧
  Succeeds .ctxstop (fun c s => arg c 0 < 128 ∧ (ctxSt c s = .saving ∨ ctxSt c s = .faulted)) (fun _ s => s) ∧
  Refuses .ctxstop (fun c s => arg c 0 < 128 ∧ (ctxSt c s = .saved ∨ ctxSt c s = .free ∨ ctxSt c s = .draining)) 4 ∧
  Succeeds .ctxkill (fun c s => liveCtx s (arg c 0)) (fun c s => s.beginDrain (arg c 0)) ∧
  Refuses .ctxkill (fun c s => arg c 0 < 128 ∧ ¬liveCtx s (arg c 0)) 4 ∧
  (∀ k d, Succeeds .ctxsync (fun c s => desc c s = some (k, d) ∧ s.syncCtx (arg c 0) k = k ∧ liveCtx s k ∧
      ((s.ctx k).st = .saved ∨ (s.ctx k).desc.synced d = d) ∧ s.asidUsed k d.asid = false ∧
      d.asid = (s.ctx k).desc.asid)
    (fun c s => s.modCtx k (fun x => { x with desc := d, descPa := arg c 0, split := d.split.setWidth 2 }))) ∧
  (∀ k d, Refuses .ctxsync (fun c s => desc c s = some (k, d) ∧ s.syncCtx (arg c 0) k = k ∧ liveCtx s k ∧ (s.ctx k).st ≠ .saved ∧
    (s.ctx k).desc.synced d ≠ d) 4)

/-- R281, R284, R422, R426: QCREATE, QRESUME in its two forms, QDESTROY, DEPSET, DEPFREE, the host's DEPDEC, ERRPOP and CORERET. -/
def Sys2Proof.Claims.QueueAndCounterCommands : Prop :=
  let q := fun (c : Cmd) (s : State) => s.queue (arg c 0)
  (∀ x, Succeeds .qcreate (fun c s => arg c 0 < 4096 ∧ (q c s).st = .disabled ∧ s.readQueue (arg c 0) = some x ∧
      (s.ctx x.ctx).st ≠ .free ∧ (s.ctx x.ctx).st ≠ .draining)
    (fun c s => s.setQueue (arg c 0) { x with
      st := .enabled, head := 0, tail := 0, ecause := 0, esrc := false, eidx := 0, fired := [], headRec := none, prev := none })) ∧
  Succeeds .qresumeRetry (fun c s => arg c 0 < 4096 ∧ (q c s).st = .error)
    (fun c s => s.setQueue (arg c 0) { q c s with st := .enabled, ecause := 0, esrc := false, eidx := 0, headRec := none }) ∧
  Succeeds .qresumeSkip (fun c s => arg c 0 < 4096 ∧ (q c s).st = .error)
    (fun c s => s.setQueue (arg c 0) { q c s with
      st := .enabled, ecause := 0, esrc := false, eidx := 0, headRec := none,
      fired := if (q c s).esrc then (q c s).fired.tail else (q c s).fired,
      head := if (q c s).esrc = false ∧ (q c s).ecause ≠ cQOVERRUN then (q c s).head + 1 else (q c s).head }) ∧
  Succeeds .qdestroy (fun c s => arg c 0 < 4096 ∧ (q c s).st ≠ .disabled)
    (fun c s => s.setQueue (arg c 0) { q c s with st := .disabled, fired := [], headRec := none }) ∧
  (∀ i ∈ [Instr.qresumeRetry, .qresumeSkip], Refuses i (fun c s => 4096 ≤ arg c 0 ∨ (q c s).st ≠ .error) 0x81) ∧
  Succeeds .depset (fun c _ => arg c 0 < 8192 ∧ arg c 1 < 128)
    (fun c s => s.setCtr (arg c 0) { owner := some (arg c 1), value := arg c 2 % 2 ^ 24, task := none }) ∧
  Succeeds .depfree (fun c _ => arg c 0 < 8192) (fun c s => s.setCtr (arg c 0) {}) ∧
  (∀ k, Succeeds .hostDepdec (fun c s => arg c 0 < 8192 ∧ (s.ctr (arg c 0)).owner = some k)
    (fun c s => s.decCtr (arg c 0) (arg c 2 % 2 ^ 16) { refusalRec k cDEP_UNDERFLOW with unit := 15 })) ∧
  (∀ i ∈ [Instr.depset, .depfree, .hostDepdec], Refuses i (fun c _ => 8192 ≤ arg c 0) 0x81) ∧
  Succeeds .errpop (fun c s => c.flg.getLsbD 0 = false ∧ liveCtx s (arg c 0))
    (fun c s => s.modCtx (arg c 0) (fun x => { x with errq := x.errq.pop x.desc.errqn })) ∧
  Succeeds .errpop (fun c _ => c.flg.getLsbD 0 = true) (fun _ s => { s with modErrq := s.modErrq.pop 4096 }) ∧
  Succeeds .coreret (fun c s => arg c 0 < 512 ∧ (s.core (arg c 0)).enabled = true) (fun c s => s.retireCore (arg c 0)) ∧
  ∀ (x : ErrQ) (n : Nat), x.pop n = if x.count = 0 then x else { x with head := (x.head + 1) % n, count := x.count - 1 }

/-- Command statuses; commands on contexts, queues and counters (R440, R441, R267, R278, R281, R284, R422, R426). -/
def Obligations.ContextAndQueueCommands : Prop :=
  CommandStatus ∧
  ContextCommands ∧
  QueueAndCounterCommands

/-- R171, R172, R276, R350, R351, R365, R368, R369, R434: PGFREE, RPLY, TLBI, PGMIG, COHSET, SCRUB and RESYNC. -/
def Obligations.PageCommands : Prop :=
  Succeeds .pgfree (fun c s => liveCtx s (arg c 0) ∧ arg c 1 % 65536 = 0 ∧ arg c 1 / 2 ^ 43 = s.modnum.toNat ∧
      arg c 1 % 2 ^ 43 + 65536 * arg c 2 ≤ hbmBytes)
    (fun c s => s.modCtx (arg c 0) (fun x => { x with freePages := x.freePages ++ (List.range (arg c 2)).map (fun i => arg c 1 + 65536 * i) })) ∧
  (let woken := fun (c : Cmd) (s : State) => s.replyOn ((List.range 8).filter (fun d => (arg c 0).testBit d))
     (if c.flg.getLsbD 0 then .token (arg c 1) else .page (BitVec.ofNat 16 (arg c 1)) (arg c 2 % 2 ^ 55 / 2 ^ 16))
   Does .hostRply (fun _ _ => True) (fun c s => (woken c s).1) 0 (fun c s => (woken c s).2)) ∧
  Succeeds .hostTlbi (fun c _ => c.flg.toNat % 4 ≠ 3 ∧ arg c 0 % 256 = 255) (fun c s =>
    let form := c.flg.toNat % 4
    let gone := fun (t : TlbEnt) => form == 0 || (t.asid == BitVec.ofNat 16 (arg c 1) &&
      (form == 1 || (t.unit != 4 && t.tag == (arg c 2 % 2 ^ 55) >>> lvlShift t.level)))
    { s with tlbs := s.tlbs.filter (fun t => !gone t), wcache := s.wcache.filter (fun t => !gone t) }) ∧
  Refuses .hostTlbi (fun c _ => c.flg.toNat % 4 = 3) 0x81 ∧
  (let page := fun (c : Cmd) (s : State) k pte addr => s.ctxOfAsid (BitVec.ofNat 16 (arg c 0)) = some k ∧
      s.walk 15 (s.ctx k).desc (arg c 1 % 2 ^ 55) = .leaf pte 1 addr ∧ arg c 2 % 65536 = 0 ∧ populated (arg c 2) 65536 = true ∧
      (s.ctx k).split.getLsbD 0 = false ∧ pte.testBit 11 = false
   (∀ k pte addr, Does .pgmig (fun c s => page c s.grantDue k pte addr ∧ pte.testBit 10 = false ∧
       s.grantDue.pagePending (bitsOf pte 51 16 * 65536) = false ∧
       ((arg c 2).testBit 42 = true → s.grantDue.tierWaits (arg c 2) = false))
     (fun c s =>
       let asid := BitVec.ofNat 16 (arg c 0)
       let va := arg c 1 % 2 ^ 55
       let old := bitsOf pte 51 16 * 65536
       let s := s.grantDue
       let s := (s.homeWrite addr (leBytes 8 (pte + 2 ^ 11)) (s.memPoison addr 8)).tlbi none (tlbiHit 2 asid va)
       let s := s.copyPage old (arg c 2)
       let leaf := pte - old - (if pte.testBit 7 then 128 else 0) + arg c 2 + (if (arg c 2).testBit 42 then 128 else 0)
       let s := (s.homeWrite addr (leBytes 8 leaf) (s.memPoison addr 8)).tlbi none (tlbiHit 2 asid va)
       (s.replyOn (List.range 8) (.page asid (va / 2 ^ 16))).1) 0 (fun _ _ => 0)) ∧
   ∀ k pte addr c s, s.ringUsed < s.ringSize → s.mstate = 6 → page c s.grantDue k pte addr →
     (pte.testBit 10 = true ∨ s.grantDue.pagePending (bitsOf pte 51 16 * 65536) = true ∨
       ((arg c 2).testBit 42 = true ∧ s.grantDue.tierWaits (arg c 2) = true)) → exec (.pgmig c) s = .next s) ∧
  Does .pgmig (fun c s => s.grantDue.ctxOfAsid (BitVec.ofNat 16 (arg c 0)) = none) (fun _ s => s.grantDue) 4 (fun _ _ => 0) ∧
  (let range := fun (c : Cmd) (s : State) k ps => arg c 1 % 65536 = 0 ∧ arg c 2 % 65536 = 0 ∧ arg c 3 < 3 ∧ arg c 1 + arg c 2 ≤ 2 ^ 55 ∧
      s.ctxOfAsid (BitVec.ofNat 16 (arg c 0)) = some k ∧ s.rangeLeaves (s.ctx k).desc (arg c 1) (arg c 2 / 65536) = some ps
   let changed := fun (c : Cmd) (ps : List (Nat × Nat × Nat × Nat)) (s : State) =>
     ps.foldl (fun s p => s.tlbi none (tlbiHit 2 (BitVec.ofNat 16 (arg c 0)) p.1))
       (ps.foldl (fun s p => s.writeCoh (arg c 3) p) (s.flushRange ps))
   (∀ k ps, Succeeds .cohset (fun c s => range c s k ps ∧ s.grantDue.rangePending ps = false ∧ s.rangePending ps = false)
     (fun c s => changed c ps s)) ∧
   (∀ k ps, Does .cohset (fun c s => range c s k ps ∧ s.grantDue.rangePending ps = false ∧ s.rangePending ps = true)
     (fun c s => (changed c ps s).grantDue.flushRange ps) 1 (fun _ _ => 0)) ∧
   ∀ k ps c s, s.ringUsed < s.ringSize → s.mstate = 6 → range c s k ps → s.grantDue.rangePending ps = true → exec (.cohset c) s = .next s) ∧
  Refuses .cohset (fun c _ => arg c 1 % 65536 ≠ 0 ∨ arg c 2 % 65536 ≠ 0 ∨ 3 ≤ arg c 3 ∨ 2 ^ 55 < arg c 1 + arg c 2) 2 ∧
  Succeeds .scrub (fun c s => arg c 0 / 2 ^ 43 = s.modnum.toNat ∧ arg c 0 % 2 ^ 43 + arg c 1 ≤ hbmBytes)
    (fun c s => s.hbmTouch (arg c 0) (arg c 1) false) ∧
  Succeeds .resync (fun c _ => arg c 0 % 4096 = 0) (fun c s =>
    let t := { s with resyncSeq := s.resyncSeq + 1 }
    { t with hostMem := cputs 0 t.hostMem (arg c 0) t.summary }) ∧
  Refuses .resync (fun c _ => arg c 0 % 4096 ≠ 0) 0x81

/-- R164, R274, R320, R326, R387, R407, R415, R432 to R434, R442: LTRAIN, RSTEP, SGJOIN, CAPSET, REPLAY, DBGRD, DBGWR, DBGRES in its two forms, and
MRESET. Their parameters' layouts are the model's (log 36). -/
def Obligations.LinkStepAndDebugCommands : Prop :=
  Succeeds .ltrain (fun c s => arg c 0 < 24 ∧ (s.link (arg c 0)).st = .down) (fun c s => s.modLink (arg c 0) (fun x => x.train 1)) ∧
  Succeeds .ltrain (fun c s => arg c 0 < 24 ∧ (s.link (arg c 0)).st = .train ∧ (s.link (arg c 0)).reported = some true ∧ c.flg.getLsbD 0 = true)
    (fun c s => s.trainHalf (arg c 0)) ∧
  Succeeds .rstep (fun _ s => s.recov.stage ≠ 0 ∧ s.recov.done = true ∧ s.recov.released = false ∧ s.host.msplit.getLsbD 3 = true)
    (fun _ s => { s with recov := { s.recov with released := true } }) ∧
  Refuses .rstep (fun _ s => s.recov.stage = 0 ∨ s.recov.done = false ∨ s.recov.released = true ∨ s.host.msplit.getLsbD 3 = false) 0x81 ∧
  (∀ k, Succeeds .sgjoin (fun c s => arg c 0 < 2 ^ 16 ∧ arg c 1 ≤ 432 ∧ populated (arg c 2) (4 * arg c 1) = true ∧ liveCtx s k ∧
      (s.ctx k).stepGroup = none ∧ ((s.sgMembers (arg c 2) (arg c 1)).map (fun m => m.1)).Nodup ∧
      (s.modnum.toNat, k) ∈ s.sgMembers (arg c 2) (arg c 1))
    (fun c s =>
      let ms := s.sgMembers (arg c 2) (arg c 1)
      let t : State := { s with
        stepGroups := cput {} s.stepGroups (arg c 0) { members := ms, base := (s.ctx k).step.toNat },
        recov := { s.recov with beacons := ms.foldl (fun t m => cput 0 t m.1 s.timebase.toNat) s.recov.beacons } }
      let t := t.modCtx k (fun x => { x with stepGroup := some (arg c 0) })
      (t.hbmLeaves k).foldl (fun s m => s.markLeaf m.1 (2 ^ 9) 0) t)) ∧
  (let byCtr := fun (c : Cmd) => c.flg.getLsbD 0 = true
   Succeeds .capset (fun c s => liveCtx s (arg c 0) ∧ 1 ≤ arg c 4 ∧ arg c 4 ≤ 16 ∧ s.ownHbm (arg c 5) (arg c 6) = true ∧
      (byCtr c → arg c 1 < 8192 ∧ (s.ctr (arg c 1)).owner = some (arg c 0)) ∧
      (¬byCtr c → arg c 1 < 4096 ∧ (s.queue (arg c 1)).ctx = arg c 0 ∧ (s.queue (arg c 1)).st ≠ .disabled))
    (fun c s =>
      let x : Cap := {
        queue := if c.flg.getLsbD 0 then none else some (arg c 1), index := if c.flg.getLsbD 0 then arg c 1 else arg c 2 % 2 ^ 16,
        first := arg c 3, count := arg c 4, base := arg c 5, size := arg c 6 }
      { s with caps := s.caps ++ [x] })) ∧
  (∀ bs h, Succeeds .replay (fun c s => arg c 0 < 128 ∧ arg c 1 < 512 ∧ (s.core (arg c 1)).enabled = true ∧ (s.core (arg c 1)).retired = false ∧
      s.ownHbm (arg c 3) (arg c 4) = true ∧ s.ctxRuns (arg c 0) = true ∧ s.loggedRecord (arg c 3) (arg c 4) (arg c 2) = some bs ∧
      s.readHdr (s.ctx (arg c 0)).desc (leNat bs) = some h ∧ arg c 2 < leNat bs / 2 ^ 192 % 2 ^ 16 + 1 ∧
      ((s.roomUsed (arg c 1)).add (newTeamRoom h (lrGroups (leNat bs)))).fits = true ∧ (s.barBase (arg c 1) h.bars).isSome = true)
    (fun c s => s.startReplay (arg c 0) (arg c 1) (arg c 2) (arg c 3) (arg c 4) c.tag bs h)) ∧
  (∀ g x, (let here := fun (c : Cmd) (s : State) => s.debugGroup c (fun _ => true) = some (g, x) ∧ x.halted = true ∧ arg c 3 % 4 = 0 ∧
        arg c 3 / 4 + 8 ≤ (s.frameOf g x).length
      Does .dbgrd here (fun _ s => s) 0 (fun c s => leNat (((s.frameOf g x).drop (arg c 3 / 4)).take 8)) ∧
      Succeeds .dbgwr here (fun c s => s.putFrame g x ((s.frameOf g x).take (arg c 3 / 4) ++ leBytes 8 (arg c 4) ++
        (s.frameOf g x).drop (arg c 3 / 4 + 8)))) ∧
    (∀ e, Succeeds .dbgres (fun c s => s.debugGroup c (fun x => x.st == .stopped) = some (g, x) ∧ x.chosen = some e)
      (fun _ s => s.setGroup g (({ x with st := .pending, held := false, restFrom := s.cycle } : Group).moveLanes e.mask (e.pc + 1) e.prio))) ∧
    Succeeds .dbgresEnd (fun c s => s.debugGroup c Group.isFrozen = some (g, x) ∧ x.st = .frozen)
      (fun _ s => (s.setGroup g { x with badFrame := none, frameAt := none }).endGroup g)) ∧
  (∀ c s, s.ringUsed < s.ringSize → exec (.mreset c) s = .next (s.startReset false)) ∧
  ∀ c s, s.ringSize ≤ s.ringUsed → exec (.mreset c) s = .next s

/-! ### The page service, tokens, media and links (R344 to R401) -/

/-- R365: the firmware serves the oldest fault record: an absent demand-zero page gets a zeroed frame of the context's free list, its leaf is
written and the groups that wait are replied to; any other record goes to the host. -/
def Sys2Proof.Claims.PageService : Prop :=
  ∀ (s : State) (r : FaultRec), s.faults.find? (fun r => r.queued && r.slot.isSome) = some r →
    let t := s.takeFault r.token
    (∀ addr p rest, t.demandZero r = some addr → (t.ctx r.ctx).freePages = p :: rest →
      exec .pageServiceDemandZero s = .next (((((t.modCtx r.ctx (fun x => { x with freePages := rest })).homeWrite p (List.replicate 65536 0) false).homeWrite
        addr (leBytes 8 (p / 65536 * 65536 + 15)) false).replyOn ((List.range 8).filter (fun d => r.dieMask.testBit d)) r.key).1)) ∧
    ((t.demandZero r = none ∨ (t.ctx r.ctx).freePages = []) → exec .pageServiceDemandZero s = .next t.notify)

/-- R344 to R348: an L2 that gives up a line sends its tokens home and its cores' L1 copies go; the directory recalls every token and every copy;
a request whose tokens fall short is sent again, and after its second failure becomes persistent while there is room: the tokens go to it at
once if it is the only one of its line; when it retires the next one's turn comes. -/
def Sys2Proof.Claims.Tokens : Prop :=
  ∀ (s : State) (line : Nat),
    let x := s.line line
    (∀ die : BitVec 3, ∃ t, exec (.l2Eviction die line) s = .next t ∧
      let y := t.line line
      cget 0 y.toks die.toNat = 0 ∧ (∀ d, d ≠ die.toNat → cget 0 y.toks d = cget 0 x.toks d) ∧
      y.owner = (if x.owner = some die.toNat then none else x.owner) ∧ (∀ c ∈ y.l1, c / 64 ≠ die.toNat) ∧
      (∀ p ∈ y.l2c, p.1 ≠ die.toNat) ∧ ∀ l, l ≠ line → t.line l = s.line l) ∧
    (∃ t, exec (.directoryEviction line) s = .next t ∧ t.line line = {} ∧ (t.line line).home = 16 ∧ ∀ l, l ≠ line → t.line l = s.line l) ∧
    (∀ die : BitVec 3,
      let d := die.toNat
      let waits := s.mergeQ.any (fun q => q.needs line d)
      let mine := fun (r : TokReq) => r.line == line && r.die == d
      (waits = false → exec (.transientRequestFail line die) s = .next s) ∧
      (waits = true → s.tokReqs.find? mine = none → ∃ t, exec (.transientRequestFail line die) s = .next t ∧
        t.tokReqs = s.tokReqs ++ [{ line := line, die := d, fails := 1, persistent := false, since := s.cycle }] ∧
        (s.promised d line = false → ∀ q ∈ t.mergeQ, q.needs line d = true → s.cycle + 512 ≤ q.due)) ∧
      ∀ r, waits = true → s.tokReqs.find? mine = some r → r.persistent = false →
        let rest := s.tokReqs.filter (fun q => q != r)
        let here := rest.filter (fun q => q.persistent && q.line % 12 == line % 12)
        let room := (here.filter (fun q => q.die == d)).length < 32 ∧ here.length < 256
        let twice := { r with fails := r.fails + 1, since := s.cycle }
        (s.promised d line = false → s.cycle < r.since + 512 → exec (.transientRequestFail line die) s = .next s) ∧
        (s.promised d line = true ∨ r.since + 512 ≤ s.cycle → ∃ t, exec (.transientRequestFail line die) s = .next t ∧
          (¬room → t.tokReqs = rest ++ [twice]) ∧
          (room → t.tokReqs = insTok { twice with persistent := true } rest ∧
            (s.activeReq line = none → cget 0 (t.line line).toks d = 16)))) ∧
    ∀ r, s.activeReq line = some r →
      let t := s.grantWhere (fun q => dieOfWho q.who == some r.die)
      let open_ := t.mergeQ.any (fun q => q.needs line r.die) = true ∨
        (∃ p ∈ t.groups, p.2.agent ∈ r.readers ∧ p.2.slot.isSome = true) ∨
        ∃ p ∈ t.cores, ∃ q ∈ p.2.chans, q.2.q ≠ [] ∧ chanAgent p.1 q.1 ∈ r.readers
      (open_ → exec (.persistentRequestRetire line) s = .next t) ∧
      (¬open_ → exec (.persistentRequestRetire line) s = .next (State.serveReq { t with tokReqs := t.tokReqs.erase r } line).unholdAll)

/-- Page service and coherence tokens (R365, R344, R348). -/
def Obligations.PagesAndTokens : Prop :=
  PageService ∧
  Tokens

/-- R376 to R381, R434: the scrubber makes the write-backs of its last stripe, then reads the next one: a sector that the other seven rebuild is to be
written back, one that they cannot is to be marked; with host-assisted scrubbing it only ends the stripe in progress; a request that meets a
refresh gets a wait hint and is sent again after it; an idle pseudo-channel enters self-refresh and leaves it. -/
def Obligations.Media : Prop :=
  ∀ s : State,
    (∀ found, s.host.msplit.getLsbD 4 = true → exec (.scrubStripe found) s = .next s.finishScrub) ∧
    (∀ found, s.host.msplit.getLsbD 4 = false → ∃ t, exec (.scrubStripe found) s = .next t ∧
      t.scrubPos = (s.scrubPos + 1) % (12 * 8 * 2 ^ 25)) ∧
    (s.host.msplit.getLsbD 4 = false →
      let u := s.finishScrub.grantDue
      (∃ t, exec (.scrubStripe []) s = .next t ∧ t.sectorPoison = u.sectorPoison ∧ t.scrubBack = [] ∧ ∀ a, t.memBytes a 1 = u.memBytes a 1) ∧
      ∀ j c, j < 7 →
        let p := scrubPlace s.scrubPos
        let pa := s.sectorPa p.1 p.2.1 p.2.2 j
        let short := s.stripeShort p.1 p.2.1 p.2.2 j = true
        let lost := s.chanLost.contains (slotChan p.1 p.2.1 p.2.2 j) = true
        ∃ t, exec (.scrubStripe [(j, c)]) s = .next t ∧
          ((c = .pass ∨ (lost ∧ (c = .rebuilt ∨ short)) ∨ pa / 32 ∈ u.sectorPoison) → t.scrubBack = []) ∧
          (pa / 32 ∉ u.sectorPoison → ¬lost → c = .rebuilt → ¬short → t.scrubBack = [(pa / 32, false)]) ∧
          (pa / 32 ∉ u.sectorPoison → ¬lost → c = .rebuilt → short → t.scrubBack = [(pa / 32, true)]) ∧
          (pa / 32 ∉ u.sectorPoison → ¬(lost ∧ short) → c = .uncorrectable → t.scrubBack = [(pa / 32, true)])) ∧
    (∀ stack, stack < 12 → cget none s.retries stack = none → ∃ t due, exec (.refreshRetry stack) s = .next t ∧
      cget none t.retries stack = some due ∧ s.cycle ≤ due ∧ due ≤ s.cycle + 1023) ∧
    (∀ stack due, cget none s.retries stack = some due → due ≤ s.cycle →
      exec (.refreshRetry stack) s = .next { s with retries := cput none s.retries stack none }) ∧
    ∀ pc, pc < 768 →
      let x : Sref := cget {} s.srefs pc
      let to_ := fun (y : Sref) => ({ s with srefs := cput {} s.srefs pc y } : State)
      (x.st = .active → x.last + 32768 ≤ s.cycle → exec (.srefEntry pc) s = .next (to_ { x with st := .entering, due := s.cycle })) ∧
      (x.st = .active → s.cycle < x.last + 32768 → exec (.srefEntry pc) s = .next (to_ x)) ∧
      (x.st = .entering → x.want = false → exec (.srefEntryComplete pc) s = .next (to_ { x with st := .sref })) ∧
      (x.st = .entering → x.want = true →
        exec (.srefEntryComplete pc) s = .next (to_ { x with st := .exiting, due := s.cycle + 390, want := false })) ∧
      (x.st = .exiting → x.due ≤ s.cycle →
        exec (.srefExitComplete pc) s = .next (to_ { x with st := .active, last := s.cycle, due := 0, want := false }))

/-- R387, R388, R401, R434: an attempt that trains every lane gives FULL with half the bundles toward the spoke; without host assistance one that loses
lanes runs on half of them where enough are left, and a third failure leads to DOWN; 32 CRC failures of a lane within a millisecond
fail it. -/
def Sys2Proof.Claims.LinkTraining : Prop :=
  ∀ (s : State) (k : Nat), k < 24 →
    let x := s.link k
    let lanes := fun (f : List (Nat × Nat)) => f.filter (fun q => laneOk k q.1 q.2)
    let with_ := fun f => s.modLink k (fun x => { x with bad := lanes f })
    (x.st = .train ∧ x.reported = none →
      (∀ f, lanes f = [] → ∃ t, exec (.linkTrainAttempt k f true) s = .next t ∧ (t.link k).st = .full ∧ (t.link k).bad = [] ∧
        (t.link k).spoke = (if k < 8 then 10 else if k < 12 then 20 else 0)) ∧
      (∀ f, lanes f ≠ [] → tooFew k (lanes f) = true → exec (.linkTrainAttempt k f true) s =
        .next (let t := (with_ f).trainFail k; if s.host.msplit.getLsbD 2 then t.notify else t)) ∧
      (∀ f, lanes f ≠ [] → tooFew k (lanes f) = false → s.host.msplit.getLsbD 2 = false →
        exec (.linkTrainAttempt k f true) s = .next ((with_ f).trainHalf k)) ∧
      (∀ f, s.host.msplit.getLsbD 2 = false → x.attempt < 3 → ∃ t, exec (.linkTrainAttempt k f false) s = .next t ∧
        (t.link k).st = .train ∧ (t.link k).attempt = x.attempt + 1) ∧
      (∀ f, s.host.msplit.getLsbD 2 = false → 3 ≤ x.attempt → ∃ t, exec (.linkTrainAttempt k f false) s = .next t ∧ (t.link k).st = .down)) ∧
    (x.st ≠ .train → ∀ f ok, exec (.linkTrainAttempt k f ok) s = .next s) ∧
    ∀ b lane, laneOk k b lane = true → x.carries = true →
      (x.st = .full ∨ x.st = .half → x.turn = none → (b, lane) ∉ x.bad → b ∉ x.out →
        exec (.laneFailure k b lane) s = .next (State.settleLink (s.modLink k (fun x => { x with bad := x.bad ++ [(b, lane)] })) k)) ∧
      (x.turn.isSome = true → x.st = .turning → (b, lane) ∉ x.bad → b ∉ x.out →
        exec (.laneFailure k b lane) s = .next (s.modLink k (fun x => { x with bad := x.bad ++ [(b, lane)], failing := true }))) ∧
      let now := s.timebase.toNat
      let crc := x.crc.filter (fun q => decide (now < q.1 + Config.milli)) ++ [(now, b, lane)]
      let t := s.modLink k (fun x => { x with errs := min (2 ^ 32 - 1) (x.errs + 1), crc := crc })
      exec (.flitCrcFail k b lane) s = .next (if 32 ≤ (crc.filter (fun q => q.2.1 == b && q.2.2 == lane)).length then t.failLane k b lane else t)

/-- R390 to R393: a turn drains its bundle, then keeps it silent for 65 cycles, then the bundle carries the other direction and may not turn for 1,300
cycles; the memory links follow the compute links' splits, between 4 and 36 of 40. -/
def Sys2Proof.Claims.BundleTurns : Prop :=
  ∀ (s : State) (k : Nat) (t : Turn), (s.link k).turn = some t →
    (t.dead = false → exec (.bundleDrainComplete k) s =
      .next (s.modLink k (fun x => { x with turn := some { t with dead := true, due := s.now + 50 * Config.parts } }))) ∧
    (t.dead = true → s.now < t.due → exec (.deadTimeExpiry k) s = .next s) ∧
    (t.dead = true → t.due ≤ s.now →
      let w := s.modLink k (fun x => { x with
        turn := none, spoke := if t.toSpoke then x.spoke + 1 else x.spoke - 1, dwell := cput 0 x.dwell t.bundle (s.now + Config.micro * Config.parts) })
      ((s.link k).failing = true → exec (.deadTimeExpiry k) s = .next (w.settleLink k)) ∧
      ((s.link k).failing = false → exec (.deadTimeExpiry k) s = .next (w.modLink k (fun x => x.advance k s.now)))) ∧
    (k < 12 → exec (.dwellExpiry k) s = .next (s.modLink k (fun x => x.advance k s.now))) ∧
    (((List.range 8).all (fun j => !(s.link j).carries) = true ∨ s.now < s.splitDue) → exec .memoryLinkSplit s = .next s) ∧
    (let up := (List.range 8).filter (fun j => (s.link j).carries)
     let spoke := (up.map (fun j => (s.link j).spoke)).sum
     let all := (up.map (fun j => ((s.link j).inService j).length)).sum
     0 < all → s.splitDue ≤ s.now → ∃ w, exec .memoryLinkSplit s = .next w ∧ w.splitDue = s.now + 10 * Config.micro * Config.parts ∧ ∀ j, 8 ≤ j → j < 12 → (s.link j).carries = true →
       (w.link j).target = ((s.link j).inService j).length - scaledHub (splitHub spoke all) ((s.link j).inService j).length) ∧
    (∀ spoke all, 0 < all → spoke ≤ all → let h := splitHub spoke all
      4 ≤ h ∧ h ≤ 36 ∧ ((80 * spoke + all) / (2 * all) = h ∨ h = 4 ∨ h = 36))

/-- R399, R400, R442: in forward-only state a neighbour's confirmation counts once, and all of them, or 2 ms, let the reset happen; a module that is
told of another's reset withdraws its routes; a held request with a route goes on; responses are kept for 4 ms. -/
def Sys2Proof.Claims.Withdrawal : Prop :=
  ∀ (s : State),
    (∀ (m : BitVec 9) (f : Fwd), s.fwd = some f → m.toNat ∉ f.confirmed →
      exec (.withdrawalConfirm m) s = .next { s with fwd := some { f with confirmed := f.confirmed ++ [m.toNat] } }) ∧
    (∀ m : BitVec 9, s.fwd = none → m.toNat ∉ s.withdrawn → exec (.withdrawalConfirm m) s = .next { s with withdrawn := s.withdrawn ++ [m.toNat] }) ∧
    (∀ f, s.fwd = some f → s.host.fabmode = false →
      ((∀ m ∈ s.notified, m ∈ f.confirmed) ∨ f.since + 2 * Config.milli * Config.parts ≤ s.now → exec .forwardOnlyTimeout s = .next (s.moduleReset f.trip)) ∧
      (¬(∀ m ∈ s.notified, m ∈ f.confirmed) → s.now < f.since + 2 * Config.milli * Config.parts → exec .forwardOnlyTimeout s = .next s)) ∧
    (∀ seq, s.fwd = none →
      let go := fun (r : FabReq) => r.seq == seq && !s.withdrawn.contains (s.physMod r.dst) && s.hasRoute (s.physMod r.dst)
      (s.fabric.any go = true →
        exec (.pathLostResend seq) s = .next (State.unholdAll { s with fabric := s.fabric.filter (fun r => !go r) }).settleLaunches) ∧
      (s.fabric.any go = false → exec (.pathLostResend seq) s = .next s)) ∧
    exec .keptResponseExpiry s = .next { s with kept := s.kept.filter (fun r => decide (s.timebase.toNat < r.time + 4 * Config.milli)) }

/-- Link training, turns and withdrawal (R387, R388, R401, R434, R390, R393, R399, R400, R442). -/
def Obligations.LinkTurns : Prop :=
  LinkTraining ∧
  BundleTurns ∧
  Withdrawal

/-! ### Step boundaries, recovery, and the host's window (R280, R404 to R417, R435 to R443) -/

/-- R408 to R414: the etcher marks a boundary's capture set when STEPADV waits for it and the boundary before is complete; copies one page after
another, each into the slot that does not hold the newest version, and releases the leaves that are copied; commits the boundary
and, when every member has, makes it complete. -/
def Sys2Proof.Claims.EtcherSteps : Prop :=
  ∀ (s : State) (c : BitVec 7),
    let k := c.toNat
    let e := s.etch k
    let b := (s.ctx k).step.toNat
    (∀ g, (s.ctx k).stepGroup = some g → e.wanted = true → e.busy = false → e.accepted = none → (s.stepGroup g).ready b = true →
      let t := s.grantDue
      let set := if t.etchOn then (t.hbmLeaves k).filter (fun q => q.2.testBit 9) else []
      let open_ := (∀ q ∈ set, q.2.testBit 11 = false) ∧ t.setPending (set.flatMap (fun m => m.1.pages)) = false
      (open_ → exec (.etcherMark c) s = .next (t.markBoundary k b set) ∧
        ((t.markBoundary k b set).etch k).accepted = some b ∧ ((t.markBoundary k b set).etch k).busy = true) ∧
      (¬open_ → exec (.etcherMark c) s = .next s)) ∧
    ((s.ctx k).stepGroup = none → exec (.etcherMark c) s = .next s ∧ exec (.boundaryCommit c) s = .next s ∧ exec (.boundaryComplete c) s = .next s) ∧
    (∀ n, s.nextPage k = some n → s.roomForPage = true → s.manOpen = true →
      (∀ b, b < 2 → s.deltasWait (s.slotPa n b) = false ∧ s.unbuilt (s.slotPa n b) = false) → ∃ t, exec (.etcherPageCopy c) s = .next t ∧ (t.etch k).pages = e.pages.filter (fun i => i != n) ∧
        ∀ m ∈ (t.etch k).leaves, m ∈ e.leaves ∧ ∃ p ∈ m.pages, p ∈ (t.etch k).pages) ∧
    (∀ n, s.nextPage k = some n → s.roomForPage = false ∨ s.manOpen = false ∨
        (∃ b, b < 2 ∧ (s.deltasWait (s.slotPa n b) = true ∨ s.unbuilt (s.slotPa n b) = true)) → exec (.etcherPageCopy c) s = .next s) ∧
    (∀ g, (s.ctx k).stepGroup = some g →
      (e.busy = true ∧ e.boundary < b ∧ e.pages = [] ∧ e.recTaken = true → s.manOpen = true →
        ∃ t, exec (.boundaryCommit c) s = .next t ∧ cget none (t.stepGroup g).commits (s.memberIdx g k) = some e.boundary ∧
          (t.etch k).busy = false ∧ (t.stepGroup g).complete = (s.stepGroup g).complete) ∧
      (¬(e.busy = true ∧ e.boundary < b ∧ e.pages = [] ∧ e.recTaken = true) ∨ s.manOpen = false → exec (.boundaryCommit c) s = .next s) ∧
      ∀ d, cget none (s.stepGroup g).commits (s.memberIdx g k) = some d →
        ∃ t, exec (.boundaryComplete c) s = .next t ∧ (t.stepGroup g).complete = some d)

/-- R412: a capture takes the slot that does not hold the newer version; while it is written the newer version stays; afterwards every later boundary
finds the new one and every earlier boundary what it found while the slot was written. A slot whose boundary a recovery discarded, which
is not before the capture's, is the one taken (R417; the model's choice, log 40). -/
def Sys2Proof.Claims.CaptureSlots : Prop :=
  ∀ (e c : Nat), c < 2 ^ 62 →
    let k := captureSlot e c
    let s0 := e / 2 ^ 2 % 2 ^ 62
    let s1 := e / 2 ^ 66 % 2 ^ 62
    let during := entryCleared e k
    let after := entryTaken during k c
    (k = 0 ∨ k = 1) ∧
    (e.testBit 0 = true → e.testBit 1 = true → s0 ≠ s1 → s0 < c → s1 < c → ∀ d, max s0 s1 ≤ d → versionOf during d = versionOf e d) ∧
    (e.testBit 0 = true → e.testBit 1 = true → (c ≤ s0 → s1 < c → k = 0) ∧ (c ≤ s1 → s0 < c → k = 1)) ∧
    ((e.testBit 0 = true → s0 < c) → (e.testBit 1 = true → s1 < c) →
      (∀ d, c ≤ d → versionOf after d = some k) ∧ ∀ d, d < c → versionOf after d = versionOf during d)

/-- The etcher's steps and its two slots (R408, R414, R412). -/
def Obligations.Etcher : Prop :=
  EtcherSteps ∧
  CaptureSlots

/-- R415 to R417, R435: detection, fence, quiesce, admission of a spare, rebuilding, mapping and resuming follow one another, each after the one
before is done, and after the host's release where recovery is host-assisted; beacons feed suspicion. -/
def Sys2Proof.Claims.RecoverySteps : Prop :=
  ∀ s : State,
    (∀ m : BitVec 9, m.toNat ∈ s.fellows →
      (∃ t, exec (.beacon m) s = .next t ∧ cget 0 t.recov.beacons m.toNat = s.timebase.toNat ∧ m.toNat ∉ t.recov.suspect) ∧
      (m.toNat ∉ s.recov.suspect → cget 0 s.recov.beacons m.toNat + 10 * Config.milli ≤ s.timebase.toNat →
        exec (.beaconTimeout m) s = .next { s with recov := { s.recov with suspect := s.recov.suspect ++ [m.toNat] } }) ∧
      (s.timebase.toNat < cget 0 s.recov.beacons m.toNat + 10 * Config.milli → exec (.beaconTimeout m) s = .next s) ∧
      (m.toNat ∉ s.recov.lost → m ≠ s.modnum → ∃ t, exec (.recoveryDetect m) s = .next t ∧
        t.recov.stage = 1 ∧ t.recov.done = true ∧ t.recov.lost = s.recov.lost ++ [m.toNat])) ∧
    (s.mayBegin 1 = true → ∃ t, exec .recoveryFence s = .next t ∧ t.recov.stage = 2 ∧ t.recov.done = true ∧
      ∀ m ∈ s.recov.lost, (∀ q ∈ s.recov.spares, q.1 ≠ m) → s.physMod m ∈ t.withdrawn) ∧
    (s.mayBegin 2 = true → ∃ t, exec .recoveryQuiesce s = .next t ∧ t.recov.stage = 3 ∧ t.recov.done = false) ∧
    (s.recov.stage = 3 → s.recov.done = false → (∀ k ∈ s.hitCtxs, (s.ctx k).st.quiet = true) →
      ∃ t, exec .recoveryQuiesce s = .next t ∧ t.recov.stage = 3 ∧ t.recov.done = true) ∧
    (s.mayBegin 3 = true → s.recov.domain = false →
      (∀ p : BitVec 9, 432 ≤ p.toNat → ∃ t, exec (.recoveryAdmit p) s = .next t ∧ t.recov.stage = 0) ∧
      ∀ (p : BitVec 9) m, p.toNat < 432 → s.recov.lost.filter (fun m => !s.recov.spares.any (fun q => q.1 == m)) = [m] →
        ∃ t, exec (.recoveryAdmit p) s = .next t ∧ t.recov.stage = 4 ∧ t.recov.done = true ∧ t.recov.spares = s.recov.spares ++ [(m, p.toNat)]) ∧
    (s.isSpare = true → ∀ p : BitVec 9,
      (p.toNat = s.ownPhys → ∃ t, exec (.recoveryAdmit p) s = .next t ∧ t.recov.stage = 4 ∧ t.recov.done = true ∧ t.host.egrp0.getLsbD 63 = true) ∧
      (p.toNat ≠ s.ownPhys → exec (.recoveryAdmit p) s = .next s)) ∧
    (s.mayBegin 4 = true → s.recov.domain = false → ∃ t, exec .recoveryRebuild s = .next t ∧ t.recov.stage = 5 ∧ t.recov.done = true) ∧
    (s.mayBegin 5 = true → ∃ t, exec .recoveryMap s = .next t ∧ t.recov.stage = 6 ∧ t.recov.done = true) ∧
    (s.mayBegin 6 = true → ∃ t, exec .recoveryResume s = .next t ∧ t.recov.stage = 7 ∧ t.recov.done = true) ∧
    ((∀ n, s.mayBegin n = false) → s.recov.stage ≠ 3 → exec .recoveryFence s = .next s ∧ exec .recoveryQuiesce s = .next s ∧
      exec .recoveryRebuild s = .next s ∧ exec .recoveryMap s = .next s ∧ exec .recoveryResume s = .next s) ∧
    (∀ stripe shards, s.mayBegin 7 = true → s.recov.domain = false → s.egroup ≠ [] → stripe < groupStripes →
      (∃ m ∈ s.recov.lost, (m, stripe) ∉ s.recov.rebuilt) →
      ∃ t, exec (.scmRebuild stripe shards) s = .next t ∧ (t.recov.stage = 8 ∨ t.recov.stage = 0))

/-- R406, R416: the two parities of a stripe give back any two of its data bytes, and the parities themselves: what is decoded from eight or more
sound shards is what the stripe held. -/
def Sys2Proof.Claims.StripeDecodes : Prop :=
  ∀ (t : Nat) (data : Nat → Byte) (lost : List Nat), lost.Nodup → (∀ p ∈ lost, p < 10) → lost.length ≤ 2 →
    let ds := dataPositions t
    let coef := fun p => (ds.takeWhile (fun q => q != p)).length
    let full : Nat → Byte := fun p =>
      if p = t % 10 then ds.foldl (fun a q => a ^^^ data q) 0
      else if p = (t + 1) % 10 then ds.foldl (fun a q => a ^^^ gfShift (coef q) (data q)) 0
      else data p
    let shards := (List.range 10).map (fun p => if p ∈ lost then [] else [full p])
    ∀ p, p < 10 → decodeByte t shards lost 0 p = full p

/-- Recovery, and decoding a stripe with lost shards (R415, R417, R435, R406, R416). -/
def Obligations.Recovery : Prop :=
  RecoverySteps ∧
  StripeDecodes

/-- R404, R439 to R443: the bring-up states follow one another on the conditions that each names and fail with their reason and die; a power failure
loses everything but the tier, whose entries drain; the limits throttle by 50 MHz steps between 650 and 1,300 MHz, and a trip resets. -/
def Obligations.BringUpAndPower : Prop :=
  ∀ s : State,
    (s.mstate = 1 → let img := cgets 0 s.hostMem (s.host.fwaddr.toNat / 4096 * 4096) (s.host.fwlen.toNat % 2 ^ 32)
      ∃ t, exec .fwloadComplete s = .next t ∧
        ((4 ≤ img.length ∧ leNat (img.drop (img.length - 4)) = (crc32 (img.take (img.length - 4))).toNat) →
          t.mstate = 2 ∧ ∀ k, k < 24 → (t.link k).st = .train) ∧
        (img.length < 4 → t.mstate = 7 ∧ t.host.mstat.toNat / 2 ^ 40 % 256 = 1)) ∧
    (s.mstate = 2 → (∀ k, k < 24 → (s.link k).st ≠ .train) → ∃ t, exec .bringupLtrainDone s = .next t ∧
      ((∀ k, k < 12 → (s.link k).carries = true) → t = s.setMstate 3) ∧ ((∃ k, k < 12 ∧ (s.link k).carries = false) → t.mstate = 7)) ∧
    (s.mstate = 3 → ∀ agree, ∃ t, exec (.meminitDone agree) s = .next t ∧
      ((masksOk s.host = true ∧ s.groupOk agree = true) → t.mstate = 4 ∧ (∀ a, s.keepsPa a = false → t.memBytes a 1 = [0]) ∧ t.wbqs = []) ∧
      (masksOk s.host = false → t.mstate = 7)) ∧
    (s.mstate = 4 → ∀ r : SelfTest, let u := r.cores.foldl State.failCore s
      (r.unitFails = true ∨ (∃ d, d < 8 ∧ (u.enabledOn d).length < 48) → ∃ t, exec (.selftestDone r) s = .next t ∧ t.mstate = 7) ∧
      (r.unitFails = false → (∀ d, d < 8 → 48 ≤ (u.enabledOn d).length) →
        (u.host.egrp0.getLsbD 63 = false → exec (.selftestDone r) s = .next u.becomeReady) ∧
        (u.host.egrp0.getLsbD 63 = true → (u.manComplete u.modnum.toNat u.modnum.toNat).isSome = true →
          ∃ t, exec (.selftestDone r) s = .next t ∧ t.mstate = 5 ∧ t.recov.stage = 2 ∧ t.recov.done = true ∧ t.recov.domain = true))) ∧
    (s.mstate = 5 → s.recov.stage = 7 → s.recov.done = true → exec .restoreDone s = .next s.becomeReady) ∧
    s.becomeReady.mstate = 6 ∧
    (s.power.failed = false → ∃ t, exec .powerFail s = .next t ∧ t.power.failed = true ∧ t.groups = [] ∧ t.ctxs = [] ∧ t.wbqs = s.wbqs ∧
      (∀ a, s.keepsPa a = true → t.memBytes a 1 = s.memBytes a 1) ∧ (∀ a, s.keepsPa a = false → t.memBytes a 1 = [0])) ∧
    (s.power.failed = true → ∃ t, exec .powerReturn s = .next t ∧ t.power.failed = false ∧ t.wbqs = []) ∧
    (s.power.failed = false → exec .holdupRecharged s = .next { s with power := { s.power with full := true } }) ∧
    (∀ (watts : BitVec 16) (inlet tj : BitVec 8), s.power.failed = false →
      let hot := s.host.pwrlim.toNat < watts.toNat ∨ 40 < inlet.toNat ∨ 105 < tj.toNat
      let mhz := s.host.thstat.toNat / 2 ^ 48
      let due := s.stepDue ≤ s.now
      (∃ t, exec (.throttleStep watts inlet tj) s = .next t ∧ t.host.thstat.toNat / 2 ^ 48 = (if ¬due then mhz else if hot then max 650 (mhz - 50) else min 1300 (mhz + 50)) ∧
        t.stepDue = (if due then s.now + 100 * Config.micro * Config.parts else s.stepDue) ∧
        t.host.thstat.getLsbD 0 = decide (s.host.pwrlim.toNat < watts.toNat) ∧ t.host.thstat.getLsbD 3 = s.host.thstat.getLsbD 3) ∧
      (55 < inlet.toNat ∨ 125 < tj.toNat → exec (.thermalTrip inlet tj) s = .next (s.startReset true)) ∧
      (inlet.toNat ≤ 55 → tj.toNat ≤ 125 → exec (.thermalTrip inlet tj) s = .next s))

/-- R4, R280, R343, R397, R411, R437, R438, R441 to R443: what the host's accesses do: a read and a write through MW, queue tails, MCTL, FWLEN, ICTAIL,
CCHEAD, THSTAT, ETCFG, routing entries, and the other registers by their offsets; a read of MW and a write of a register come after the host's
earlier writes (`h`), which is at once when none of them waits. -/
def Obligations.HostAccesses : Prop :=
  ∀ (s : State), s.power.failed = false →
    let h := s.hostTurn
    (s.unperformed hostAgent = false → h = s) ∧
    (∀ (off : BitVec 36) n pa, s.mwPa off.toNat n = some pa → let v := (h.hbmTouch pa n false).ownView hostAgent
      ∃ w, exec (.mwRead off n) s = .next w ∧ w.mwReply = some { bytes := some (v.memBytes pa n), pois := v.memPoison pa n } ∧ w.mem = h.mem) ∧
    (∀ (off : BitVec 36) n, s.mwPa off.toNat n = none → exec (.mwRead off n) s = .next { s with mwReply := some { bytes := none, pois := false } }) ∧
    (∀ (off : BitVec 36) bs pa, s.mwPa off.toNat bs.length = some pa → bs ≠ [] →
      let late := s.unperformed hostAgent = true ∨ ∃ z ∈ s.served, rangesMeet z.1 z.2.1 pa bs.length = true ∧ 0 < z.2.2
      (late → ∃ w q, exec (.mwWrite off bs) s = .next w ∧ w.mergeQ = s.mergeQ ++ [q] ∧ q.who = 0 ∧ q.agent = hostAgent ∧ q.scr = none ∧ q.pa = pa ∧
        q.bytes = bs ∧ q.pois = false ∧ w.mem = s.mem) ∧
      (¬late → ∃ w, exec (.mwWrite off bs) s = .next w ∧ w.mergeQ = s.mergeQ ∧ w.memBytes pa bs.length = bs ∧
        (∀ a, a < pa ∨ pa + bs.length ≤ a → w.memBytes a 1 = s.memBytes a 1) ∧
        ∀ ln ∈ linesOf pa bs.length, w.line ln = (s.line ln).recall)) ∧
    (∀ (q : BitVec 12) (tail : BitVec 16), let x := h.queue q.toNat
      (x.st ≠ .disabled → x.dev = false → (tail - x.head).toNat ≤ 2 ^ x.logn →
        exec (.queueTailWrite q tail) s = .next (h.setQueue q.toNat { x with tail := tail })) ∧
      (x.st = .enabled → x.dev = false → 2 ^ x.logn < (tail - x.head).toNat →
        exec (.queueTailWrite q tail) s = .next (h.refuse q.toNat 0x14C false tail)) ∧
      (x.st = .disabled ∨ x.dev = true → exec (.queueTailWrite q tail) s = .next (h.countErr 0x14C))) ∧
    ∀ v : Word64,
      let reg := fun (f : HostRegs → HostRegs) => ({ h with host := f h.host } : State)
      exec (.mctlReset v) s = .next (if v.getLsbD 0 then h.startReset false else h) ∧
      exec (.fwload v) s = .next (let u := reg (fun r => { r with fwlen := v &&& 0x1FFFFFFFF }); if v.getLsbD 32 && h.mstate == 0 then u.setMstate 1 else u) ∧
      ((v.setWidth 16 - h.host.ichead).toNat ≤ h.ringSize → exec (.ictailWrite v) s = .next (reg (fun r => { r with ictail := v.setWidth 16 }))) ∧
      (h.ringSize < (v.setWidth 16 - h.host.ichead).toNat → ∃ w, exec (.ictailWrite v) s = .next w ∧
        w.host.ictail = h.host.ichead + BitVec.ofNat 16 h.ringSize) ∧
      (h.evbuf = [] → exec (.ccheadWrite v) s = .next (reg (fun r => { r with cchead := v.setWidth 16 }))) ∧
      (∃ w, exec (.ccheadWrite v) s = .next w ∧ w.host.cchead = v.setWidth 16) ∧
      exec (.thstatClear v) s = .next (if h.host.tripAt = some h.cycle then h else reg (fun r => { r with thstat := r.thstat &&& ~~~(v &&& 8) })) ∧
      (let lim := v.toNat % 2 ^ 24
       let base := v.toNat / 2 ^ 24 % 2 ^ 26
       let ok := lim ≤ 11010048 ∧ (base + 2 * lim) * 65536 ≤ 3 * 2 ^ 40
       ∃ w, exec (.etcfgWrite v) s = .next w ∧ w.host.etcfg.getLsbD 63 = (v.getLsbD 63 && decide ok) ∧
        w.host.etcfg.extractLsb' 0 50 = v.extractLsb' 0 50) ∧
      (∀ (m : BitVec 9) (r : Word32), m.toNat < 432 → ∃ w, exec (.routeWrite m r) s = .next w ∧ cget 0 w.routes m.toNat = r &&& 0xFFFFF ∧
        (∀ k, k ≠ m.toNat → cget 0 w.routes k = cget 0 h.routes k) ∧ (h.host.fabmode = true → m.toNat ∉ w.withdrawn)) ∧
      (∀ off : BitVec 16, off ∈ [0x00#16, 0x30#16, 0xA8#16, 0xC8#16, 0x100#16, 0x200#16] → exec (.cwRegisterWrite off v) s = .next h) ∧
      exec (.cwRegisterWrite 0x10 v) s = .next (reg (fun r => { r with fwaddr := v &&& ~~~0xFFF })) ∧
      exec (.cwRegisterWrite 0x40 v) s = .next (if h.mstate < 3 then reg (fun r => { r with qtbase := v }) else h) ∧
      exec (.cwRegisterWrite 0x78 v) s = .next (reg (fun r => { r with pwrlim := if v < 1000 then 1000 else if 2800 < v then 2800 else v })) ∧
      exec (.cwRegisterWrite 0xB8 v) s = .next (reg (fun r => { r with msplit := v &&& 0x7C }))

/-! ### Errors of the storage structures -/

/-- R419, R426, R428: an uncorrectable error of a window's word sets that word's poison flag, leaves its value, every other word, the
last-result file, the frontier, the lane records and the system registers, and counts for triage of the core; two within a second are
enough for it while triage is the hardware's. A corrected one leaves every register. Parity in a group's frontier, return stacks or
lane records freezes it with handler mode set; parity in a cached translation removes it, and with the check disabled the step changes
nothing. A block of the tier that fails its ECC, and does not hold the
module error queue, is poisoned whole while no write is pending. When errors strike is an input of the model (log 19). -/
def Obligations.StorageErrors : Prop :=
  (∀ (s : State) (g w : Nat) (x : Group) (rest : List Agenda), s.agenda = .upset (.window g w) false :: rest → s.group? g = some x →
    x.inFile = true → w < x.rf.wbytes / 4 →
    ∃ t y, step s = .next t ∧ t.group? g = some y ∧ y.rf.word w = { x.rf.word w with p := true } ∧
      (∀ k, k ≠ w → y.rf.word k = x.rf.word k) ∧ y.rf.lf = x.rf.lf ∧ y.frontier = x.frontier ∧ y.lanes = x.lanes ∧ y.sr = x.sr ∧
      (t.core x.core).sramFails = (s.core x.core).sramFails ++ [s.timebase.toNat]) ∧
  (∀ (s : State) (core a b : Nat), s.host.msplit.getLsbD 6 = false → (s.core core).sramFails = [a, b] →
    s.timebase.toNat < a + Config.second → s.timebase.toNat < b + Config.second → s.triaged core = true) ∧
  (∀ (s : State) (g w : Nat) (x : Group) (rest : List Agenda), s.agenda = .upset (.window g w) true :: rest → s.group? g = some x →
    ∃ t y, step s = .next t ∧ t.group? g = some y ∧ y.rf = x.rf ∧ y.frontier = x.frontier ∧ y.lanes = x.lanes ∧ y.sr = x.sr) ∧
  (∀ (s : State) (g : Nat) (x : Group) (k : Bool) (rest : List Agenda), s.agenda = .upset (.control g) k :: rest →
    s.group? g = some x → x.slot.isSome = true → x.st ≠ .frozen → x.st ≠ .ended → s.host.protcfg.getLsbD 9 = true →
    ∃ t y, step s = .next t ∧ t.group? g = some y ∧ y.st = .frozen ∧ y.handler = true) ∧
  (∀ (s : State) (i : Nat) (k : Bool) (rest : List Agenda), s.agenda = .upset (.tlb i) k :: rest →
    ∃ t, step s = .next t ∧
      t.tlbs = (if s.host.protcfg.getLsbD 8 = true then s.tlbs.eraseIdx i else s.tlbs)) ∧
  (∀ (s : State) (b : Nat) (k : Bool) (rest : List Agenda), s.agenda = .upset (.tier b) k :: rest →
    (512 * b) >>> 43 = s.modnum.toNat → 2 ^ 42 ≤ 512 * b % 2 ^ 43 → populated (512 * b) 512 = true →
    s.host.eqbase.toNat + 2 ^ 18 ≤ 512 * b → s.mergeQ = [] →
    ∃ t, step s = .next t ∧ ∀ i, i < 16 → 16 * b + i ∈ t.sectorPoison)

/-! ### Every event completes: where its own effect comes, on conditions of the state alone -/

/-- R210 to R215, R199: SPBIND binds a port to the descriptor at its pointer, SPSEEK sets its position and SPDRN discards what was read ahead, SPREL
frees it; a read-ahead holds a lane's next element; a template's store becomes visible. -/
def Sys2Proof.Claims.PortEvents : Prop :=
  (∀ (e : Enc) (s : State) (c : Iss), CanIssue s e c → c.act ≠ 0 →
    let k := portNo e.d
    let ends := fun (i : Instr) (P : Option Port → Prop) => ∃ t z, exec i s = .next t ∧ t.group? c.g = some z ∧ P (z.port? k)
    (let us := uniChecks [e.a] s c
     let b := s.begun c us
     let c' := c.passed s us
     let ptr := (uni b c' e.a .b64).1
     let d := (b.ownView c'.x.agent).scrRead c'.x.team ptr 64
     NoStop s e c us → (uni b c' e.a .b64).2 = false → ptr < b.scratchOf c'.x → ptr % 64 = 0 → d.2 = false → sdRefused d.1 = false →
     c'.x.port? k = none → b.enginesUsed c'.x.core < 64 →
      ends (.spbind e) (fun p => p = some { desc := leBytes 64 d.1, dpois := false, steps := [], ahead := [] })) ∧
    (let us := [({ o := e.a, n := 4, lanes := c.act } : Use)]
     let b := s.begun c us
     let c' := c.passed s us
     NoStop s e c us → ∀ p, c'.x.port? k = some p → ends (.spseek e) (fun q => ∃ y, q = some y ∧ y.desc = p.desc ∧ y.ahead = [] ∧
       ∀ l ∈ liveLanes c', cget 0 y.steps l = min (srcOf b c' e.a .b32 l).1 (sdLength (leNat p.desc)))) ∧
    (let c' := c.passed s []
     NoStop s e c [] → ∀ p, c'.x.port? k = some p → (leNat p.desc).testBit 453 = false →
      ends (.spdrn e) (fun q => q = some { p with ahead := [] })) ∧
    (let b := s.begun c []
     let c' := c.passed s []
     NoStop s e c [] → (c'.x.port? k).isSome = true → (b.grantUpTo (whoCore c'.x.core)).unperformed c'.x.agent = false →
      ends (.sprel e) (fun q => q = none))) ∧
  (∀ (s : State) (g lane : Nat) (k : BitVec 4) (x : Group) (p : Port) (a : LaneAcc) (pl : Place),
    s.group? g = some x → x.port? k.toNat = some p → x.slot.isSome = true → x.engineWait = false → (x.lane lane).st = .live →
    let v := leNat p.desc
    let n := p.nextAhead lane
    let ad := sdAddr v (x.lane lane).item.toNat n
    v.testBit 453 = false → n < sdLength v → 0 ≤ ad → ad < 2 ^ 55 →
    s.checkLanes x .pop 0 1 [{ lane := lane, ea := ad.toNat, n := sdSize v }] = .ok [(a, pl)] →
    ∃ t z val pois, exec (.streamReadAhead g k lane) s = .next t ∧ t.group? g = some z ∧
      z.port? k.toNat = some { p with ahead := p.ahead ++ [(lane, n, val, pois)] }) ∧
  ∀ (s : State) (g : Nat) (x : Group) (w : Wait), s.group? g = some x → x.wait = some w → w.kind = .template → x.canResume = true →
    exec (.templateVisible g) s = .next (s.setGroup g (x.endWait w))

/-- R201, R204, R382: a channel delivers a position, completes a copy, offers pieces to the write-back queues; a queue drains its oldest entry. -/
def Sys2Proof.Claims.CopyEvents : Prop :=
  (∀ (s : State) (core : Nat) (ch : BitVec 3) (x : Group) (y : Copy), s.inService core ch.toNat = some (y, x) → y.started = true → y.fail = none →
    let c := ch.toNat
    let v := leNat y.tpl
    let n := 2 ^ (v / 2 ^ 256 % 4)
    let sc := posCoords y.src.dims y.pos
    let dc := posCoords y.dst.dims y.pos
    (y.waiting = false → y.pending = [] → y.pos < tpPositions v → tpGather v = false → y.src.inBox sc = true → y.dst.inBox dc = true →
      ∀ p q, s.copyPlace x c (.copyRead (v.testBit 260)) (y.src.addr sc).toNat n = .at p →
        s.copyPlace x c (.copyWrite (v.testBit 261)) (y.dst.addr dc).toNat n = .at q →
        let r := s.copyRead x c y.snap (.copyRead (v.testBit 260)) p n
        exec (.copyDelivery core ch) s = .next (r.1.copyWrite core c x y q n r.2.1 r.2.2)) ∧
    (y.pending = [] → tpPositions v ≤ y.pos → v.testBit 262 = false → v.testBit 263 = false → v.testBit 272 = false →
      (s.publish (chanAgent core c) core 1).unperformed (chanAgent core c) = false →
      ∃ w, exec (.copyComplete core ch) s = .next w ∧ (w.chan core c).q = (s.chan core c).q.tail) ∧
    (y.pending ≠ [] → s.power.failed = false → s.roomFor (y.pending.map (fun q => q.1)) = true →
      (∀ q ∈ y.pending, s.pbarHolds y q.1 = false ∧ s.unbuilt q.1 = false ∧ s.deltasWait q.1 = false) →
      exec (.writeBackAccept core ch) s = .next
        ((y.pending.foldl (fun s q => s.accept { pa := q.1, bytes := q.2.1, pois := q.2.2 }) s).stepCopy core c y).unholdAll)) ∧
  ∀ (s : State) (die : BitVec 2) (e : WbEnt) (r : List WbEnt), s.power.failed = false → cget [] s.wbqs die.toNat = e :: r → e.par = false →
    exec (.writeBackDrain die) s = .next ({ s with wbqs := cput [] s.wbqs die.toNat r }.memWrite e.pa e.bytes e.pois)

/-- R13, R270 to R272, R275, R283 to R287, R296 to R300, R365, R429 to R431: the hub takes a queue's head and starts a launch; clusters are placed,
saved and restored; groups and contexts end; watchdogs ask for their causes; a core retires; the page service serves a record. -/
def Sys2Proof.Claims.HubEvents : Prop :=
  ∀ s : State,
    (∀ (q : BitVec 12), let x := s.queue q.toNat
      let bs := s.headBytes x
      let s1 := s.hbmTouch (x.ring + 256 * (x.head.toNat % 2 ^ x.logn)) 256 false
      x.st = .enabled → x.head ≠ x.tail → x.headRec = none → s.headCause bs x.ctx = none → (leNat bs).testBit 27 = false →
      exec (.queueHeadService q) s = .next (s1.setQueue q.toNat { x with headRec := some bs })) ∧
    (∀ q bs ctr h, s.nextQueue = some q → (s.queue q).nextLaunch = some (bs, ctr) → let x := s.queue q
      let d := (s.ctx x.ctx).desc
      let hdr := leNat bs / 2 ^ 64 % 2 ^ 64
      let s1 := s.hubUse d hdr 128
      s.hubWaits d .read hdr = false → s1.startCause x.ctx (leNat bs) = .ok h →
      exec .launchStart s = .next (s1.beginLaunch q x bs ctr h)) ∧
    (let u := s.placing.foldl (fun s p => s.dropForeign p.1 p.2) s
     let t := u.placing.foldl (fun s p => s.noteAbsent p.1 p.2) u
     ∀ w, t.placeFirst [] t.placing = some w → exec .clusterPlace s = .next w) ∧
    (∀ c x l t, s.cluster? c = some x → s.launch? x.launch = some l → x.st = .resident → s.mustSave x l = true → let u := s.publishCluster x
      u.clusterPending x = false → u.saveCluster c x l = some t → exec (.clusterPreempt c) s = .next t) ∧
    (∀ c x l die cores, s.cluster? c = some x → s.launch? x.launch = some l → x.st = .saved → s.ctxRuns l.ctx = true →
      (s.vdie (s.ctx l.ctx).desc x.vdie).isSome = true → s.ownDie (s.ctx l.ctx).desc x.vdie = some die →
      s.coresFor die (x.teams.map (fun k => ((s.team? k).map (s.teamRoom k)).getD {})) [] = some cores → s.mayRestore l die = true →
      exec (.clusterRestore c) s = .next (s.restoreCluster c x l die cores)) ∧
    (∀ g x, s.group? g = some x → s.replays = [] → x.empties = ~~~0 → x.st = .active → s.copiesOf g = [] → s.opsOf g x.core = [] → x.mats = [] →
      s.unperformed x.agent = false → exec (.groupEnd g) s = .next (s.finishGroup g)) ∧
    (∀ c : BitVec 7, (s.ctx c.toNat).st = .saving → s.stillResident c.toNat = false → (s.ctx c.toNat).faultAfterSave = false →
      exec (.contextSaved c) s = .next ((s.modCtx c.toNat (fun x => { x with st := .saved })).notify)) ∧
    (∀ c : BitVec 7, (s.ctx c.toNat).st = .draining → ∃ t, exec (.contextDrainComplete c) s = .next t ∧ t.ctx c.toNat = {}) ∧
    (∀ g x, s.group? g = some x →
      (x.wd.armed = true → x.wd.expired = false → x.wd.interval ≤ x.wd.w → x.asyncWd = none →
        exec (.watchdog g) s = .next (s.setGroup g { x with wd := { x.wd with expired := true }, asyncWd := some { cause := 0x14D } })) ∧
      (∀ b, x.awaits = some b → s.deadWait x = true → 65536 ≤ x.wd.dead →
        exec (.deadWaitExpiry g) s = .next (s.setGroup g { x with
          wd := { x.wd with dead := 0 }, asyncWd := some { cause := 0x14D, info := BitVec.ofNat 64 (1 + 256 * b) } })) ∧
      (x.wd.second = some 0 → x.st ≠ .saved →
        exec (.watchdogSecond g) s = .next
          (((s.setGroup g { x with wd := { x.wd with second := none } }).beginSave x.ctx).writeErr (s.groupRec x 0x14E 0 0)))) ∧
    (∀ core, s.triaged core = true → exec (.coreRetired core) s = .next (s.retireCore core)) ∧
    ∀ (r : FaultRec) addr p rest, s.faults.find? (fun r => r.queued && r.slot.isSome) = some r → let t := s.takeFault r.token
      t.demandZero r = some addr → (t.ctx r.ctx).freePages = p :: rest →
      exec .pageServiceDemandZero s = .next (((((t.modCtx r.ctx (fun x => { x with freePages := rest })).homeWrite p (List.replicate 65536 0) false).homeWrite
        addr (leBytes 8 (p / 65536 * 65536 + 15)) false).replyOn (diesOf r.dieMask) r.key).1)

/-- R409 to R417: the etcher marks, copies a page, commits and completes a boundary; beacons and their timeouts; the stages of a recovery. -/
def Sys2Proof.Claims.StepEvents : Prop :=
  ∀ s : State,
    (∀ (c : BitVec 7) g, (s.ctx c.toNat).stepGroup = some g →
      let k := c.toNat
      let e := s.etch k
      let b := (s.ctx k).step.toNat
      (s.etchOn = false → s.mergeQ = [] → e.wanted = true → e.busy = false → e.accepted = none → (s.stepGroup g).ready b = true →
        exec (.etcherMark c) s = .next (s.markBoundary k b [])) ∧
      (∀ n, s.nextPage k = some n → s.roomForPage = true → s.manOpen = true →
        (∀ b, b < 2 → s.deltasWait (s.slotPa n b) = false ∧ s.unbuilt (s.slotPa n b) = false) → ∃ t, exec (.etcherPageCopy c) s = .next t ∧ (t.etch k).pages = e.pages.filter (fun i => i != n)) ∧
      (e.busy = true → e.boundary < b → e.pages = [] → e.recTaken = true → s.manOpen = true →
        ∃ t, exec (.boundaryCommit c) s = .next t ∧ cget none (t.stepGroup g).commits (s.memberIdx g k) = some e.boundary) ∧
      ∀ d, cget none (s.stepGroup g).commits (s.memberIdx g k) = some d →
        ∃ t, exec (.boundaryComplete c) s = .next t ∧ (t.stepGroup g).complete = some d) ∧
    (∀ m : BitVec 9, m.toNat ∈ s.fellows →
      (∃ t, exec (.beacon m) s = .next t ∧ cget 0 t.recov.beacons m.toNat = s.timebase.toNat) ∧
      (m.toNat ∉ s.recov.suspect → cget 0 s.recov.beacons m.toNat + 10 * Config.milli ≤ s.timebase.toNat →
        exec (.beaconTimeout m) s = .next { s with recov := { s.recov with suspect := s.recov.suspect ++ [m.toNat] } }) ∧
      (m.toNat ∉ s.recov.lost → m ≠ s.modnum → ∃ t, exec (.recoveryDetect m) s = .next t ∧ t.recov.stage = 1 ∧ t.recov.lost = s.recov.lost ++ [m.toNat])) ∧
    (s.mayBegin 1 = true → ∃ t, exec .recoveryFence s = .next t ∧ t.recov.stage = 2) ∧
    (s.mayBegin 2 = true → ∃ t, exec .recoveryQuiesce s = .next t ∧ t.recov.stage = 3) ∧
    (∀ (p : BitVec 9) m, s.mayBegin 3 = true → s.recov.domain = false → p.toNat < 432 →
      s.recov.lost.filter (fun m => !s.recov.spares.any (fun q => q.1 == m)) = [m] →
      ∃ t, exec (.recoveryAdmit p) s = .next t ∧ t.recov.stage = 4 ∧ t.recov.spares = s.recov.spares ++ [(m, p.toNat)]) ∧
    (s.mayBegin 4 = true → s.recov.domain = false → ∃ t, exec .recoveryRebuild s = .next t ∧ t.recov.stage = 5) ∧
    (s.mayBegin 5 = true → ∃ t, exec .recoveryMap s = .next t ∧ t.recov.stage = 6) ∧
    (s.mayBegin 6 = true → ∃ t, exec .recoveryResume s = .next t ∧ t.recov.stage = 7) ∧
    ∀ stripe shards, s.mayBegin 7 = true → s.recov.domain = false → s.egroup ≠ [] → stripe < groupStripes →
      (∃ m ∈ s.recov.lost, (m, stripe) ∉ s.recov.rebuilt) → ∃ t, exec (.scmRebuild stripe shards) s = .next t ∧ (t.recov.stage = 8 ∨ t.recov.stage = 0)

/-- R341, R345 to R347, R379 to R381: scrubbing, refresh waits, self-refresh, evictions, token requests, the end of a merge window. -/
def Sys2Proof.Claims.MemoryEvents : Prop :=
  ∀ s : State,
    (s.host.msplit.getLsbD 4 = false → ∀ found, ∃ t, exec (.scrubStripe found) s = .next t ∧ t.scrubPos = (s.scrubPos + 1) % (96 * 2 ^ 25)) ∧
    (∀ stack, stack < 12 → cget none s.retries stack = none →
      ∃ t due, exec (.refreshRetry stack) s = .next t ∧ cget none t.retries stack = some due ∧ s.cycle ≤ due ∧ due ≤ s.cycle + 1023) ∧
    (∀ pc, pc < 768 → let x : Sref := cget {} s.srefs pc
      let to_ := fun (y : Sref) => ({ s with srefs := cput {} s.srefs pc y } : State)
      (x.st = .active → x.last + 32768 ≤ s.cycle → exec (.srefEntry pc) s = .next (to_ { x with st := .entering, due := s.cycle })) ∧
      (x.st = .entering → x.want = false → exec (.srefEntryComplete pc) s = .next (to_ { x with st := .sref })) ∧
      (x.st = .exiting → x.due ≤ s.cycle → exec (.srefExitComplete pc) s = .next (to_ { st := .active, last := s.cycle, due := 0 }))) ∧
    (∀ line, exec (.directoryEviction line) s = .next (s.flushLine line) ∧ (∀ die : BitVec 3, exec (.l2Eviction die line) s = .next (s.evictL2 die.toNat line)) ∧
      (∀ die : BitVec 3, s.mergeQ.any (fun q => q.needs line die.toNat) = true → s.tokReqs = [] →
        ∃ t, exec (.transientRequestFail line die) s = .next t ∧
          t.tokReqs = [{ line := line, die := die.toNat, fails := 1, persistent := false, since := s.cycle }]) ∧
      ∀ r, s.activeReq line = some r → s.mergeQ = [] → r.readers = [] →
        exec (.persistentRequestRetire line) s = .next (State.serveReq { s with tokReqs := s.tokReqs.erase r } line).unholdAll) ∧
    exec .mergeWindowGrant s = .next (s.passCycles ((s.cycle / 64 + 1) * 64 - s.cycle))

/-- R387 to R393, R399, R400: training, lane and flit failures, turns, the memory links' split; withdrawal, requests without a route, kept responses. -/
def Sys2Proof.Claims.LinkEvents : Prop :=
  ∀ s : State,
    (∀ k, k < 24 → let x := s.link k
      (x.st = .train → x.reported = none → ∃ t, exec (.linkTrainAttempt k [] true) s = .next t ∧ (t.link k).st = .full) ∧
      (∀ b lane, laneOk k b lane = true → x.st = .full → x.turn = none → (b, lane) ∉ x.bad → b ∉ x.out →
        exec (.laneFailure k b lane) s = .next (State.settleLink (s.modLink k (fun x => { x with bad := x.bad ++ [(b, lane)] })) k)) ∧
      (∀ b lane, laneOk k b lane = true → x.st = .full → x.crc = [] →
        ∃ t, exec (.flitCrcFail k b lane) s = .next t ∧ (t.link k).errs = min (2 ^ 32 - 1) (x.errs + 1)) ∧
      (k < 12 → exec (.dwellExpiry k) s = .next (s.modLink k (fun x => x.advance k s.now))) ∧
      ∀ t : Turn, x.turn = some t →
        (t.dead = false → exec (.bundleDrainComplete k) s =
          .next (s.modLink k (fun x => { x with turn := some { t with dead := true, due := s.now + 50 * Config.parts } }))) ∧
        (t.dead = true → t.due ≤ s.now → x.failing = false →
          exec (.deadTimeExpiry k) s = .next ((s.modLink k (fun x => { x with
            turn := none, spoke := if t.toSpoke then x.spoke + 1 else x.spoke - 1,
            dwell := cput 0 x.dwell t.bundle (s.now + Config.micro * Config.parts) })).modLink k (fun x => x.advance k s.now)))) ∧
    (let all := (((List.range 8).filter (fun j => (s.link j).carries)).map (fun j => ((s.link j).inService j).length)).sum
     0 < all → s.splitDue ≤ s.now → ∃ w, exec .memoryLinkSplit s = .next w ∧ w.splitDue = s.now + 10 * Config.micro * Config.parts) ∧
    (∀ m : BitVec 9, s.fwd = none → m.toNat ∉ s.withdrawn → exec (.withdrawalConfirm m) s = .next { s with withdrawn := s.withdrawn ++ [m.toNat] }) ∧
    (∀ f, s.fwd = some f → f.since + 2 * Config.milli * Config.parts ≤ s.now → exec .forwardOnlyTimeout s = .next (s.moduleReset f.trip)) ∧
    (∀ seq, s.fwd = none →
      let go := fun (r : FabReq) => r.seq == seq && !s.withdrawn.contains (s.physMod r.dst) && s.hasRoute (s.physMod r.dst)
      s.fabric.any go = true →
        exec (.pathLostResend seq) s = .next (State.unholdAll { s with fabric := s.fabric.filter (fun r => !go r) }).settleLaunches) ∧
    exec .keptResponseExpiry s = .next { s with kept := s.kept.filter (fun r => decide (s.timebase.toNat < r.time + 4 * Config.milli)) }

/-- R280, R343, R404, R411, R438 to R443: power, limits, bring-up, and the host's accesses to MW, QW and CW. -/
def Sys2Proof.Claims.HostEvents : Prop :=
  ∀ s : State,
    (s.power.failed = true → ∃ t, exec .powerReturn s = .next t ∧ t.power.failed = false ∧ t.wbqs = []) ∧
    (s.mstate = 1 → imageSound (cgets 0 s.hostMem (s.host.fwaddr.toNat / 4096 * 4096) (s.host.fwlen.toNat % 2 ^ 32)) = true →
      ∃ t, exec .fwloadComplete s = .next t ∧ t.mstate = 2) ∧
    (s.mstate = 2 → (∀ k, k < 24 → (s.link k).st = .full) → exec .bringupLtrainDone s = .next (s.setMstate 3)) ∧
    (s.mstate = 3 → masksOk s.host = true → s.host.egrp0.getLsbD 63 = false → ∀ agree, exec (.meminitDone agree) s = .next (s.initMemory.setMstate 4)) ∧
    (∀ r : SelfTest, let u := r.cores.foldl State.failCore s
      s.mstate = 4 → r.unitFails = false → u.host.egrp0.getLsbD 63 = false → (∀ d, d < 8 → 48 ≤ (u.enabledOn d).length) →
      exec (.selftestDone r) s = .next u.becomeReady) ∧
    (s.mstate = 5 → s.recov.stage = 7 → s.recov.done = true → exec .restoreDone s = .next s.becomeReady) ∧
    (s.power.failed = false →
      (∃ t, exec .powerFail s = .next t ∧ t.power.failed = true ∧ t.groups = []) ∧
      exec .holdupRecharged s = .next { s with power := { s.power with full := true } } ∧
      (∀ (watts : BitVec 16) (inlet tj : BitVec 8), s.stepDue ≤ s.now → s.host.pwrlim.toNat < watts.toNat →
        ∃ t, exec (.throttleStep watts inlet tj) s = .next t ∧ t.host.thstat.toNat / 2 ^ 48 = max 650 (s.host.thstat.toNat / 2 ^ 48 - 50)) ∧
      (∀ (inlet tj : BitVec 8), 55 < inlet.toNat ∨ 125 < tj.toNat → exec (.thermalTrip inlet tj) s = .next (s.startReset true)) ∧
      (∀ (off : BitVec 36) n pa, s.mwPa off.toNat n = some pa → let v := (s.hostTurn.hbmTouch pa n false).ownView hostAgent
        ∃ w, exec (.mwRead off n) s = .next w ∧ w.mwReply = some { bytes := some (v.memBytes pa n), pois := v.memPoison pa n }) ∧
      (∀ (off : BitVec 36) bs pa, s.mwPa off.toNat bs.length = some pa → bs ≠ [] → s.mergeQ = [] → s.served = [] →
        ∃ w, exec (.mwWrite off bs) s = .next w ∧ w.memBytes pa bs.length = bs) ∧
      let h := s.hostTurn
      (∀ (q : BitVec 12) (tail : BitVec 16), let x := h.queue q.toNat
        x.st = .enabled → x.dev = false → (tail - x.head).toNat ≤ 2 ^ x.logn →
        exec (.queueTailWrite q tail) s = .next (h.setQueue q.toNat { x with tail := tail })) ∧
      ∀ v : Word64,
        let reg := fun (f : HostRegs → HostRegs) => ({ h with host := f h.host } : State)
        (v.getLsbD 0 = true → exec (.mctlReset v) s = .next (h.startReset false)) ∧
        (v.getLsbD 32 = false → exec (.fwload v) s = .next (reg (fun r => { r with fwlen := v &&& 0x1FFFFFFFF }))) ∧
        ((v.setWidth 16 - h.host.ichead).toNat ≤ h.ringSize → exec (.ictailWrite v) s = .next (reg (fun r => { r with ictail := v.setWidth 16 }))) ∧
        (h.evbuf = [] → exec (.ccheadWrite v) s = .next (reg (fun r => { r with cchead := v.setWidth 16 }))) ∧
        (h.host.tripAt ≠ some h.cycle → exec (.thstatClear v) s = .next (reg (fun r => { r with thstat := r.thstat &&& ~~~(v &&& 8) }))) ∧
        (∃ w, exec (.etcfgWrite v) s = .next w ∧ w.host.etcfg.extractLsb' 0 50 = v.extractLsb' 0 50) ∧
        (∀ (m : BitVec 9) (r : Word32), m.toNat < 432 → ∃ w, exec (.routeWrite m r) s = .next w ∧ cget 0 w.routes m.toNat = r &&& 0xFFFFF) ∧
        ∀ off : BitVec 16, exec (.cwRegisterWrite off v) s = .next (h.cwWrite off.toNat v))

/-- Every event that is no instruction word and no command takes its effect on conditions of the state (R210, R215, R199, R201, R204,
R382, R13, R270, R272, R275, R283, R287, R296, R300, R365, R429, R431, R409, R417, R341, R345, R347, R379, R381, R387, R393, R399, R400,
R280, R343, R404, R411, R438, R443). -/
def Obligations.EventsTakeEffect : Prop :=
  PortEvents ∧
  CopyEvents ∧
  HubEvents ∧
  StepEvents ∧
  MemoryEvents ∧
  LinkEvents ∧
  HostEvents

/-! ### The machine (R78 to R92, R63, R72) -/

/-- R78 to R87: every well-formed instruction has one word, which decode reads back with every field as it was, and so does decode of its
bytes, whatever follows them. -/
def Sys2Proof.Claims.DecodeOfEncode : Prop :=
  ∀ (i : Instr) (w : BitVec 96) (rest : List Byte), i.wf = true → encode i = some w →
    decodeWord w = .ok i ∧ decodeBytes (bytesOfWord w ++ rest) = .ok i rest

/-- R81 to R89: a word that decode accepts is the encoding of what decode reads, and that is well formed; so each word has one meaning,
and no bit of a word is without one. -/
def Sys2Proof.Claims.EncodeOfDecode : Prop :=
  ∀ (w : BitVec 96) (i : Instr), decodeWord w = .ok i → i.wf = true ∧ encode i = some w

/-- Decode of encode, and encode of decode, over every instruction and every word (R78, R87, R81, R89). -/
def Obligations.EncodingRoundTrip : Prop :=
  DecodeOfEncode ∧
  EncodeOfDecode

/-- R78, R79, R89, R92: words that the manual writes out decode to the instructions it writes them for; the fill opcode and an unassigned
opcode are rejected by name before anything else of the word is looked at, and the reserved hint bits next. -/
def Obligations.DecodeOfWords : Prop :=
  decodeWord 0x302700420000740002AFFFD0 = .ok (.fadd ⟨true, 3, .f32, 0, false, true, 2, .view 0 7, .opf 2, .imm 0xFFFD, 0⟩) ∧
  decodeWord 0x30DF00040000A0000250000C = .ok (.ffma ⟨false, 15, .f32, 0, false, false, 4, .view 0 10, .view 0 2, .last 0, 12⟩) ∧
  decodeWord 0x005E0080FFFF600300001000 = .ok (.bra ⟨false, 15, .b8, 0, true, false, 0, .raw 0xFFFF6, .raw 0x300, .raw 0x100, 0⟩) ∧
  decodeWord 0x701F00050000440002A00101 = .ok (.ld ⟨false, 15, .f32, 0, false, false, 5, .view 0 4, .opf 2, .imm 0x10, 1⟩) ∧
  decodeWord 0xB01F20013000020000200040 = .ok (.mloop ⟨false, 15, .a80f, 0, false, false, 1, .view 3 0, .view 2 0, .view 2 4, 0⟩) ∧
  decodeWord 0xA0DE000170002A0005000000 = .ok (.barrw ⟨false, 15, .b8, 0, false, false, 1, .pred 2, .imm 5, .nil, 0⟩) ∧
  (∀ w : BitVec 96, w.extractLsb' 86 10 = 0x3FF → decodeWord w = .error .fillOpcode) ∧
  (∀ w : BitVec 96, opRow (w.extractLsb' 86 10).toNat = none → w.extractLsb' 86 10 ≠ 0x3FF → decodeWord w = .error .illegalOpcode) ∧
  (∀ w : BitVec 96, (opRow (w.extractLsb' 86 10).toNat).isSome = true → w.extractLsb' 68 2 ≠ 0 → w.extractLsb' 86 10 ≠ 0x3FF →
    decodeWord w = .error .illegalHint)

/-- R79, R80, R89, R308: when the agenda lets a group issue that may issue, the cycle under way has a port for its instruction, and no
asynchronous cause is due, the step runs the instruction that the 12 bytes at code base + 12 × PC decode to, as the core's instruction
cache holds them (a PC beyond the code, or a word that decode rejects, raises its cause instead), in the state in which the fetch's
translations and its line of the cache are there; then the port is taken for the cycle, which changes nothing else. -/
def Obligations.StepRunsDecoded : Prop :=
  ∀ (s : State) (g : Nat) (rest : List Agenda) (x : Group) (ent : Ent) (segs : List Seg), s.agenda = .issue g :: rest →
    let s0 : State := { s with agenda := rest }
    let s1 : State := { s0 with cur := g }
    let runs := fun (i : Instr) (t : State) =>
      (∀ u, exec i t = .next u → ∃ w, step s = .next w ∧ { w with issued := u.issued, cores := u.cores } = u ∧
        (w.issued = u.issued ∨ ∃ p, w.issued = u.issued ++ [(x.core, p, g)])) ∧
      (∀ e, exec i t = .fault e → step s = .fault e) ∧ ∀ e, exec i t = .refused e → step s = .refused e
    s0.group? g = some x → x.asyncNow = none → x.chosen = some ent → x.issuable = true → s0.mayRun x = true → s0.cycleTakes g x = true →
    (s1.codeEnd x ≤ ent.pc.toNat → runs .fetchBounds s1) ∧
    (ent.pc.toNat < s1.codeEnd x → s1.fetchPlace x ent = .ok segs →
      let bs := s1.fetchBytes x ent.pc.toNat segs
      (∀ i r, decodeBytes bs = .ok i r → runs i (s1.fetched x ent.pc.toNat segs)) ∧
      (∀ why, decodeBytes bs = .rejected why → runs (.illegalOpcode why) (s1.fetched x ent.pc.toNat segs)))

/-- No run of the machine ends: from every state, whatever it holds, every step has a next state. -/
def Obligations.RunsForever : Prop := ∀ s : State, Safe s

/-- Device memory and host memory keep their canonical form: every step that has a next state leaves the addresses strictly rising and
lists no byte that reads as an unlisted one. -/
def Obligations.MemoryKeepsForm : Prop :=
  ∀ s t : State, Memory.wf s.mem → Memory.wf s.hostMem → StepsTo s t → Memory.wf t.mem ∧ Memory.wf t.hostMem

/-- R265, R437 to R442, R13, R374, R427, R428, R443: right after reset MSTAT names bring-up state RESET, the registers of the control window hold the
reset values of their table, every context is FREE and every queue DISABLED, nothing is resident, pending or listed, and a step passes one cycle.
(That memory lists nothing, so that every byte reads 0, and which core positions are disabled, are choices of the model: log 6, log 7.) -/
def Obligations.ResetLeaves : Prop :=
  State.reset.host.mstat = 0 ∧ State.reset.host.ichead = 0 ∧ State.reset.host.cctail = 0 ∧ State.reset.host.protcfg = 0xFFF ∧
  State.reset.host.hashm0 = 0x200000001 ∧ State.reset.host.hashm1 = 4 ∧
  (∀ c, (State.reset.ctx c).st = .free) ∧ (∀ q, (State.reset.queue q).st = .disabled) ∧
  State.reset.groups = [] ∧ State.reset.launches = [] ∧ State.reset.faults = [] ∧ State.reset.waits = [] ∧ State.reset.copies = [] ∧
  Memory.wf State.reset.mem ∧ Memory.wf State.reset.hostMem ∧ StepsTo State.reset (State.reset.passCycles 1)

namespace Sys2Proof.Claims

/-- The instructions that compute lane by lane into D in the width of their type, with their sources. -/
def laneForms (e : Enc) : List (Instr × List Src) :=
  let a : List Src := [{ o := e.a, ty := e.ty }]
  [(.iadd e, ab e), (.isub e, ab e), (.imul e, ab e), (.imulh e, ab e), (.imad e, abc e), (.imadh e, abc e), (.idiv e, ab e),
   (.irem e, ab e), (.ineg e, a), (.iabs e, a), (.imin e, ab e), (.imax e, ab e), (.andB e, ab e), (.orB e, ab e), (.xorB e, ab e),
   (.andn e, ab e), (.notB e, a), (.shl e, ab e), (.shr e, ab e), (.sar e, ab e), (.rotl e, ab e),
   (.bfe e, a ++ [asWord e]), (.bfi e, [{ o := e.a, ty := e.ty }, asWord e, { o := cOpnd e, ty := e.ty }]),
   (.popc e, a), (.clz e, a), (.ctz e, a), (.brev e, a), (.lea e, ab e), (.sel e, ab e),
   (.fadd e, ab e), (.fsub e, ab e), (.fmul e, ab e), (.ffma e, abc e), (.fmin e, ab e), (.fmax e, ab e), (.fdiv e, ab e), (.frnd e, a),
   (.fsqrt e, a), (.frcp e, a), (.frsq e, a), (.fexp2 e, a), (.flog2 e, a), (.fsin e, a), (.fcos e, a)]

/-- No source is a stream port. -/
abbrev noPorts (srcs : List Src) : Prop := portsOf srcs = []

/-- The register-space words that results may write: those of the destination in the lanes that compute. -/
def destWords (x : Group) (d : Opnd) (n : Nat) (act : Mask) : List Nat :=
  match d with
  | .view k i => (lanesOf act).flatMap (fun l => wordsOf (vwAddr (x.view k.toNat) i.toNat l) n)
  | .rs a => wordsOf a.toNat n
  | _ => []

end Sys2Proof.Claims

/-- What an instruction of the integer, logic and floating-point ranges leaves alone (R61, R66, R67, R103): outside the cores' counters and the
groups nothing changes, device memory among it, nor does another group (the YLD hint may swap it, and its
team notes the promotion); of its own group only the words, the
operand-file entry or the scalar that D names, the last-result file, the flags, the skip counter, the rounding states and the
frontier, so no predicate, no view, no trap register. -/
def Obligations.ComputeFrame : Prop :=
  ∀ (e : Enc) (p : Instr × List Src) (s t : State) (c : Iss), p ∈ laneForms e →
    let n := Ty.bytes e.ty
    let us := opUses p.2 e.d n s c
    let y := (c.passed s us).x
    CanIssue s e c → NoStop s e c us → noPorts p.2 → (∀ k, e.d ≠ .port k) → s.phys.pipe = [] → exec p.1 s = .next t →
    { t with groups := s.groups, cores := s.cores, teams := s.teams } = s ∧ (e.yld = false → t.teams = s.teams) ∧
    (∀ k q, t.team? k = some q → ∃ q0, s.team? k = some q0 ∧ { q with promoted := q0.promoted } = q0) ∧
    (e.yld = false → ∀ h, h ≠ c.g → t.group? h = s.group? h) ∧
    ∃ z, t.group? c.g = some z ∧ z.handler = y.handler ∧ z.ports = y.ports ∧ z.rf.preds = y.rf.preds ∧ z.rf.vw = y.rf.vw ∧
      z.rf.lsave = y.rf.lsave ∧ z.sr = { y.sr with fstat := z.sr.fstat, zskip := z.sr.zskip } ∧
      y.sr.fstat &&& z.sr.fstat = y.sr.fstat ∧
      (∀ l, { z.lane l with rstate := (y.lane l).rstate } = y.lane l) ∧
      (∀ w, w ∉ destWords y e.d n c.act → z.rf.word w = y.rf.word w) ∧
      (∀ k l, l < 32 → e.d ≠ .opf k → cget {} z.rf.ofile (32 * k.toNat + l) = cget {} y.rf.ofile (32 * k.toNat + l)) ∧
      (∀ k : BitVec 6, e.d ≠ .scal k → cget {} z.rf.scal k.toNat = cget {} y.rf.scal k.toNat) ∧
      (z.rf.lf = y.rf.lf ∨ (z.rf.lf.l1 = y.rf.lf.l0 ∧ z.rf.lf.l2 = y.rf.lf.l1 ∧ z.rf.lf.l3 = y.rf.lf.l2))

/-- R63, R72, R88, R89: the checks made at issue, in their order, for the instructions of the integer, logic and floating-point ranges. An
index at COUNT or above raises VIEW_RANGE, an element wider than EW VIEW_WIDTH, a byte at W or above RS_BOUNDS; then a port that is not
bound, one of the wrong direction; then LA_HAZARD for an operand in an open window. Nothing else happens. -/
def Sys2Proof.Claims.ChecksAtIssue : Prop :=
  ∀ (e : Enc) (p : Instr × List Src) (s : State) (c : Iss), p ∈ laneForms e →
    let us := opUses p.2 e.d (Ty.bytes e.ty) s c
    let traps := fun cause => 
      let mask := if c.act = 0 then c.m else c.act
      exec p.1 s = .next ((s.takeTrap c.g cause mask 0 0).capAppend c.g 8 c.ent.pc.toNat mask [])
    let range := ∃ u ∈ us, ∃ k i, u.o = .view k i ∧ bitsOf (c.x.view k.toNat) 11 0 ≤ i.toNat
    let width := ∃ u ∈ us, (∃ k i, u.o = .view k i ∧ ∀ w, vwWidth (c.x.view k.toNat) = some w → w < u.n) ∨
      (8 < u.n ∧ ((∃ k, u.o = .opf k) ∨ (∃ k, u.o = .last k) ∨ ∃ k, u.o = .scal k))
    let bounds := ∃ u ∈ us, (∃ k i l, u.o = .view k i ∧ l ∈ lanesOf c.act ∧ c.x.rf.wbytes < vwAddr (c.x.view k.toNat) i.toNat l + u.n) ∨
      (∃ a, u.o = .rs a ∧ c.x.rf.wbytes < a.toNat + u.n)
    let unbound := ∃ u ∈ us, ∃ k, u.o = .port k ∧ c.x.port? k.toNat = none
    CanIssue s e c →
    (range → traps cVIEW_RANGE) ∧
    (¬range → width → traps cVIEW_WIDTH) ∧
    (¬range → ¬width → bounds → traps cRS_BOUNDS) ∧
    (¬range → ¬width → ¬bounds → unbound → traps cSTREAM_UNBOUND) ∧
    (¬range → ¬width → ¬bounds → ¬unbound →
      (∃ u ∈ us, ∃ k q, u.o = .port k ∧ c.x.port? k.toNat = some q ∧ (leNat q.desc).testBit 453 ≠ u.dest) → traps cSTREAM_DIR) ∧
    (checkViews c.x us = none → checkPorts c.x us = none →
      (∃ q ∈ dependsOn c.x us, q.window ≠ 0) ∨ (∃ q ∈ touchedCvts c.x us, q.window ≠ 0) → traps cLA_HAZARD)

/-- What stops an instruction at decode and at issue (R80, R89, R92, R93, R168, R84, R87, R63, R72, R88). -/
def Obligations.IssueChecks : Prop :=
  WordTraps ∧
  PrivilegeTrap ∧
  GuardNever ∧
  ChecksAtIssue
end

