-- ==== Sys2Proof/Laws/Cells.lean ====
section
/-! SUPPORT. Sparse tables: what a key reads after a write, and that a write keeps the canonical form. -/

namespace Sys2Proof.Laws

open Sys2Proof Sys2Proof.Machine

/-! ### Reading after a write -/

@[simp] theorem cget_nil {α : Type} (d : α) (k : Nat) : cget d [] k = d := rfl

theorem cget_cins_self {α : Type} (d v : α) (t : List (Nat × α)) (k : Nat) (h : ∀ p ∈ t, p.1 ≠ k) :
    cget d (cins k v t) k = v := by
  induction t with
  | nil => simp [cins, cget]
  | cons p r ih =>
    obtain ⟨k', v'⟩ := p
    have hk : k' ≠ k := h (k', v') (by simp)
    simp only [cins]
    split
    · simp [cget]
    · simp only [cget, if_neg (Ne.symm hk)]
      exact ih (fun p hp => h p (by simp [hp]))

theorem cget_cins_ne {α : Type} (d v : α) (t : List (Nat × α)) {k j : Nat} (h : j ≠ k) : cget d (cins k v t) j = cget d t j := by
  induction t with
  | nil => simp [cins, cget, h]
  | cons p r ih =>
    obtain ⟨k', v'⟩ := p
    simp only [cins]
    split
    · simp [cget, h]
    · simp only [cget]
      split
      · rfl
      · exact ih

theorem cget_cdel_self {α : Type} (d : α) (t : List (Nat × α)) (k : Nat) : cget d (cdel t k) k = d := by
  induction t with
  | nil => rfl
  | cons p r ih =>
    obtain ⟨k', v'⟩ := p
    by_cases h : k' = k
    · simpa [cdel, h] using ih
    · simp only [cdel] at ih ⊢
      simp [h, cget, Ne.symm h, ih]

theorem cget_cdel_ne {α : Type} (d : α) (t : List (Nat × α)) {k j : Nat} (h : j ≠ k) : cget d (cdel t k) j = cget d t j := by
  induction t with
  | nil => rfl
  | cons p r ih =>
    obtain ⟨k', v'⟩ := p
    simp only [cdel] at ih ⊢
    by_cases hk : k' = k
    · subst hk
      simp [cget, h, ih]
    · simp [hk, cget, ih]

theorem cdel_ne {α : Type} (t : List (Nat × α)) (k : Nat) : ∀ p ∈ cdel t k, p.1 ≠ k := by
  simp [cdel]

/-- A key reads what was written to it. -/
@[simp] theorem cget_cput_self {α : Type} [DecidableEq α] (d : α) (t : List (Nat × α)) (k : Nat) (v : α) :
    cget d (cput d t k v) k = v := by
  unfold cput
  split
  · rename_i h
    rw [cget_cdel_self, h]
  · exact cget_cins_self d v _ k (cdel_ne t k)

/-- Every other key reads what it read before. -/
theorem cget_cput_ne {α : Type} [DecidableEq α] (d : α) (t : List (Nat × α)) {k j : Nat} (h : j ≠ k) (v : α) :
    cget d (cput d t k v) j = cget d t j := by
  unfold cput
  split
  · exact cget_cdel_ne d t h
  · rw [cget_cins_ne d v _ h, cget_cdel_ne d t h]

/-- A run of writes leaves every key outside it as it was. -/
theorem cget_cputs_out {α : Type} [DecidableEq α] (d : α) (t : List (Nat × α)) (k j : Nat) (vs : List α)
    (h : j < k ∨ k + vs.length ≤ j) : cget d (cputs d t k vs) j = cget d t j := by
  induction vs generalizing t k with
  | nil => rfl
  | cons v r ih =>
    simp only [List.length_cons] at h
    rw [cputs, ih _ _ (by omega), cget_cput_ne d t (by omega)]

/-- A key inside a run of writes reads its value of the run. -/
theorem cget_cputs_in {α : Type} [DecidableEq α] (d : α) (t : List (Nat × α)) (k i : Nat) (vs : List α) (h : i < vs.length) :
    cget d (cputs d t k vs) (k + i) = vs[i] := by
  induction vs generalizing t k i with
  | nil => simp at h
  | cons v r ih =>
    rw [cputs]
    cases i with
    | zero => rw [Nat.add_zero, cget_cputs_out _ _ _ _ _ (by omega)]; simp
    | succ i =>
      have := ih (cput d t k v) (k + 1) i (by simpa using h)
      rw [show k + (i + 1) = k + 1 + i by omega, this]
      simp

/-- A run of keys reads back the values written to it. -/
theorem cgets_cputs {α : Type} [DecidableEq α] (d : α) (t : List (Nat × α)) (k : Nat) (vs : List α) :
    cgets d (cputs d t k vs) k vs.length = vs := by
  apply List.ext_getElem
  · simp [cgets]
  · intro i h1 h2
    simp only [cgets, List.getElem_map, List.getElem_range]
    exact cget_cputs_in d t k i vs h2

/-! ### Records by number -/

theorem tget?_cins_self {α : Type} (v : α) (t : List (Nat × α)) (k : Nat) (h : ∀ p ∈ t, p.1 ≠ k) :
    tget? (cins k v t) k = some v := by
  induction t with
  | nil => simp [cins, tget?]
  | cons p r ih =>
    obtain ⟨k', v'⟩ := p
    have hk : k' ≠ k := h (k', v') (by simp)
    simp only [cins]
    split
    · simp [tget?]
    · simp only [tget?, if_neg (Ne.symm hk)]
      exact ih (fun p hp => h p (by simp [hp]))

/-- The record written under a number is found there. -/
@[simp] theorem tget?_tput_self {α : Type} (t : List (Nat × α)) (k : Nat) (v : α) : tget? (tput t k v) k = some v :=
  tget?_cins_self v _ k (cdel_ne t k)

/-- Every other number has the record that it had. -/
theorem tget?_tput_ne {α : Type} (t : List (Nat × α)) {k j : Nat} (h : j ≠ k) (v : α) : tget? (tput t k v) j = tget? t j := by
  have hi : ∀ t : List (Nat × α), tget? (cins k v t) j = tget? t j := by
    intro t
    induction t with
    | nil => simp [cins, tget?, h]
    | cons p r ih =>
      obtain ⟨k', v'⟩ := p
      simp only [cins]
      split
      · simp [tget?, h]
      · simp only [tget?]
        split
        · rfl
        · exact ih
  rw [tput, hi]
  induction t with
  | nil => rfl
  | cons p r ih =>
    obtain ⟨k', v'⟩ := p
    simp only [cdel] at ih ⊢
    by_cases hk : k' = k
    · subst hk
      simp [tget?, h, ih]
    · simp [hk, tget?, ih]

/-! ### The canonical form -/

theorem cwf_cons {α : Type} [DecidableEq α] (d : α) (k : Nat) (v : α) (r : List (Nat × α)) :
    cwf d ((k, v) :: r) = true ↔ v ≠ d ∧ (∀ p ∈ r, k < p.1) ∧ cwf d r = true := by
  simp [cwf, and_assoc]

/-- Keeping some of the pairs keeps the form. -/
theorem cwf_filter {α : Type} [DecidableEq α] (d : α) (f : Nat × α → Bool) (t : List (Nat × α)) (h : cwf d t = true) :
    cwf d (t.filter f) = true := by
  induction t with
  | nil => rfl
  | cons p r ih =>
    obtain ⟨k, v⟩ := p
    rw [cwf_cons] at h
    by_cases hf : f (k, v) = true
    · rw [List.filter_cons_of_pos hf, cwf_cons]
      exact ⟨h.1, fun p hp => h.2.1 p (List.mem_of_mem_filter hp), ih h.2.2⟩
    · rw [List.filter_cons_of_neg hf]
      exact ih h.2.2

theorem mem_cins {α : Type} (k : Nat) (v : α) (t : List (Nat × α)) (p : Nat × α) :
    p ∈ cins k v t ↔ p = (k, v) ∨ p ∈ t := by
  induction t with
  | nil => simp [cins]
  | cons q r ih =>
    obtain ⟨k', v'⟩ := q
    simp only [cins]
    split
    · simp
    · simp only [List.mem_cons, ih]
      tauto

theorem cwf_cins {α : Type} [DecidableEq α] (d v : α) (k : Nat) (t : List (Nat × α)) (hv : v ≠ d) (hk : ∀ p ∈ t, p.1 ≠ k)
    (h : cwf d t = true) : cwf d (cins k v t) = true := by
  induction t with
  | nil => simp [cins, cwf, hv]
  | cons p r ih =>
    obtain ⟨k', v'⟩ := p
    rw [cwf_cons] at h
    have hne : k' ≠ k := hk (k', v') (by simp)
    simp only [cins]
    split
    · rename_i hlt
      rw [cwf_cons, cwf_cons]
      refine ⟨hv, fun p hp => ?_, h⟩
      rcases List.mem_cons.mp hp with rfl | hp
      · exact hlt
      · exact lt_trans hlt (h.2.1 p hp)
    · rw [cwf_cons]
      refine ⟨h.1, fun p hp => ?_, ih (fun p hp => hk p (by simp [hp])) h.2.2⟩
      rcases (mem_cins k v r p).mp hp with rfl | hp
      · simp only
        omega
      · exact h.2.1 p hp

/-- A write keeps the form: the value that an unlisted key reads as removes the pair. -/
theorem cwf_cput {α : Type} [DecidableEq α] (d : α) (t : List (Nat × α)) (k : Nat) (v : α) (h : cwf d t = true) :
    cwf d (cput d t k v) = true := by
  unfold cput
  split
  · exact cwf_filter d _ t h
  · rename_i hv
    exact cwf_cins d v k _ hv (cdel_ne t k) (cwf_filter d _ t h)

/-- A run of writes keeps the form. -/
theorem cwf_cputs {α : Type} [DecidableEq α] (d : α) (t : List (Nat × α)) (k : Nat) (vs : List α) (h : cwf d t = true) :
    cwf d (cputs d t k vs) = true := by
  induction vs generalizing t k with
  | nil => exact h
  | cons v r ih => exact ih _ _ (cwf_cput d t k v h)

end Sys2Proof.Laws
end

