-- ==== Sys2Proof/Laws/Issue.lean ====
section
/-! SUPPORT. What issuing an instruction can do: the one lemma per shared operation of Machine/Issue.lean that claims about
encoded instructions cite in place of unfolding it. -/

namespace Sys2Proof.Laws

open Sys2Proof Sys2Proof.Machine

/-- With no work of the group under way in the matrix unit, nothing waits for it. -/
theorem unlessBusy_quiet {s : State} {g : Nat} {x : Group} (h : s.unitBusy g x = false) (t : State) : s.unlessBusy g x t = t := by
  simp [State.unlessBusy, h]

/-- An instruction in hand that may issue goes to its checks as it is. -/
theorem runInstr_canIssue {s : State} {e : Enc} {c : Iss} (h : CanIssue s e c) (priv : Bool) (uses : State → Iss → List Use)
    (moved : Bool) (body : State → Iss → Except Stop State) :
    runInstr priv uses moved e s body = .next (s.issueInstr priv uses moved e c body) := by
  obtain ⟨⟨hi, his, hr, hw, -⟩, hb⟩ := h
  have hx : ({ c with x := { c.x with engineWait := false } } : Iss) = c := by
    rcases c with ⟨g, x, ent, m, act⟩
    simp only at hw ⊢
    rcases x with ⟨⟩
    simp_all
  simp [runInstr, hi, his, hr, State.takeEngines, hw, hx, unlessBusy_quiet hb]

/-- What an issue does once no check stops it: the instruction's own effect, from the state in which it begins, or the stop that the
effect answers. -/
theorem issueInstr_noStop {s : State} {e : Enc} {c : Iss} (h : CanIssue s e c) {priv : Bool} (hp : priv = true → c.x.handler = true)
    {uses : State → Iss → List Use} (hn : NoStop s e c (uses s c)) (moved : Bool) (body : State → Iss → Except Stop State) :
    s.issueInstr priv uses moved e c body =
      match body (s.begun c (uses s c)) (c.passed s (uses s c)) with
      | .error st =>
        match ((s.passed c (uses s c)).portStop (c.passed s (uses s c)) (uses s c)).getD st with
        | .hold => (s.woken c (uses s c)).stopped c .hold
        | .pause => (s.woken c (uses s c)).stopped c .pause
        | .holdAnd f => (s.woken c (uses s c)).stopped c (.holdAnd f)
        | .park ks => if (s.woken c (uses s c)).pushesPend c.x then (s.woken c (uses s c)).stopped c .hold
          else (s.passed c (uses s c)).stopped c (.park ks)
        | st => (s.passed c (uses s c)).stopped c st
      | .ok s' => s'.finish (c.passed s (uses s c)) e moved := by
  obtain ⟨⟨-, -, -, -, hg⟩, -⟩ := h
  obtain ⟨hv, hq, hd, hc, hl⟩ := hn
  have hp' : (priv && !c.x.handler) = false := by
    cases priv <;> simp_all
  have hl' : (!(uses s c).any (fun u => u.mat) && s.matrixHolds c.g c.x e (uses s c)) = false := by
    rcases hl with h1 | h1 <;> simp [h1]
  unfold State.issueInstr
  simp only [hp', hg, hv, hq, hd, hc, hl', List.any_nil, List.isEmpty_nil, Bool.not_true, Bool.or_false, Bool.false_eq_true, if_false]
  rfl

/-- The effect of an instruction whose body answers a state. -/
theorem performs_of {i : Instr} {priv : Bool} {uses : State → Iss → List Use} {moved : Bool} {e : Enc}
    {ok : State → Iss → Prop} {eff : State → Iss → State} (body : State → Iss → Except Stop State)
    (hi : ∀ s, exec i s = runInstr priv uses moved e s body)
    (hb : ∀ s c, ok s c → body s c = .ok (eff s c)) : Performs i priv uses moved e ok eff := by
  intro s c hc hp hn hok
  rw [hi, runInstr_canIssue hc, issueInstr_noStop hc hp hn, hb _ _ hok]

/-- The stop of an instruction whose body answers one that neither holds nor parks it. -/
theorem stops_of {i : Instr} {priv : Bool} {uses : State → Iss → List Use} {moved : Bool} {e : Enc}
    {bad : State → Iss → Prop} {stop : State → Iss → Stop} (body : State → Iss → Except Stop State)
    (hi : ∀ s, exec i s = runInstr priv uses moved e s body)
    (hs : ∀ s c, stop s c ≠ .hold ∧ stop s c ≠ .pause ∧ (∀ f, stop s c ≠ .holdAnd f) ∧ ∀ ks, stop s c ≠ .park ks)
    (hb : ∀ s c, bad s c → body s c = .error (stop s c)) : Stops i priv uses e bad stop := by
  intro s c hc hp hn hq hbad
  rw [hi, runInstr_canIssue hc, issueInstr_noStop hc hp hn, hb _ _ hbad]
  simp only [PortsServe] at hq
  simp only [hq, Option.getD_none]
  have h := hs (s.begun c (uses s c)) (c.passed s (uses s c))
  revert h
  cases stop (s.begun c (uses s c)) (c.passed s (uses s c)) <;> simp

/-- An instruction whose body answers the state that a relation gives. -/
theorem acts_of {i : Instr} {priv : Bool} {uses : State → Iss → List Use} {moved : Bool} {e : Enc}
    {eff : State → Iss → State → Prop} (body : State → Iss → Except Stop State)
    (hi : ∀ s, exec i s = runInstr priv uses moved e s body)
    (hb : ∀ s c w, eff s c w → body s c = .ok w) : Acts i priv uses moved e eff := by
  intro s c w hc hp hn hok
  rw [hi, runInstr_canIssue hc, issueInstr_noStop hc hp hn, hb _ _ _ hok]

/-- An instruction whose body ends the step in a state of its own. -/
theorem ends_of {i : Instr} {priv : Bool} {uses : State → Iss → List Use} {moved : Bool} {e : Enc}
    {ok : State → Iss → Prop} {eff : State → Iss → State} (body : State → Iss → Except Stop State)
    (hi : ∀ s, exec i s = runInstr priv uses moved e s body)
    (hb : ∀ s c, ok s c → body s c = .error (.done (eff s c))) : Ends i priv uses e ok eff := by
  intro s c hc hp hn hq hok
  rw [hi, runInstr_canIssue hc, issueInstr_noStop hc hp hn, hb _ _ hok]
  simp only [PortsServe] at hq
  simp only [hq, Option.getD_none]
  rfl

/-- An instruction whose body holds it. -/
theorem heldBack_of {i : Instr} {priv : Bool} {uses : State → Iss → List Use} {moved : Bool} {e : Enc}
    {ok : State → Iss → Prop} (body : State → Iss → Except Stop State)
    (hi : ∀ s, exec i s = runInstr priv uses moved e s body)
    (hb : ∀ s c, ok s c → body s c = .error .hold) : HeldBack i priv uses e ok := by
  intro s c hc hp hn hq hok
  rw [hi, runInstr_canIssue hc, issueInstr_noStop hc hp hn, hb _ _ hok]
  simp only [PortsServe] at hq
  simp only [hq, Option.getD_none]
  rfl

/-- An instruction whose body makes it wait briefly. -/
theorem heldBriefly_of {i : Instr} {priv : Bool} {uses : State → Iss → List Use} {moved : Bool} {e : Enc}
    {ok : State → Iss → Prop} (body : State → Iss → Except Stop State)
    (hi : ∀ s, exec i s = runInstr priv uses moved e s body)
    (hb : ∀ s c, ok s c → body s c = .error .pause) : HeldAs true i priv uses e ok := by
  intro s c hc hp hn hq hok
  rw [hi, runInstr_canIssue hc, issueInstr_noStop hc hp hn, hb _ _ hok]
  simp only [PortsServe] at hq
  simp only [hq, Option.getD_none]
  rfl

/-- With no fault in a pipe, every result passes as it was computed. -/
theorem passPipes_quiet {s : State} {chk : Option (List (Nat × Bool) → ShadowIn)} (h : chk.isSome = true → s.phys.pipe = [])
    {c : Iss} {d : Opnd} {pop : Popped} {srcs : List Src} {outs : List (Nat × LaneOut × Nat)} :
    s.passPipes c d pop srcs chk outs = .ok (s, outs) := by
  cases chk with
  | none => rfl
  | some q => simp [State.passPipes, h rfl]

/-- The lane-by-lane instructions compute. -/
theorem computesWith_of {i : Instr} {e : Enc} {srcs : List Src} {n bits : Nat} {late : Option (Nat × Bool × Bool)}
    {chk : Option (List (Nat × Bool) → ShadowIn)} {carry : Option Nat} {f : Iss → Nat → List (Nat × Bool) → Word32 → LaneOut}
    (hi : ∀ s, exec i s = runInstr false (opUses srcs e.d n) false e s
      (fun s c => laneBody e.d srcs n bits late chk carry (f c) s c)) :
    ComputesWith i e srcs n bits late chk.isSome carry f := by
  intro s c st w pop us c' outs st1 st2 hc hn hpop hsh hput
  rw [hi, runInstr_canIssue hc, issueInstr_noStop hc (by simp) hn]
  have hbody : laneBody e.d srcs n bits late chk carry (f c') (s.begun c us) c' = .ok w := by
    simp only [laneBody, hpop]
    rw [passPipes_quiet hsh]
    simp only [st2, st1, outs, State.laneFlags, laneResults, State.laneSrcs, State.laneSkips] at hput
    simp only [List.map_map, List.foldl_map, List.filter_map, Function.comp_def, State.computeLane, maskWhere] at hput ⊢
    exact hput
  simp only [us, c'] at hbody
  rw [hbody]

/-- The instructions that compute from their sources alone. -/
theorem computes_of {i : Instr} {e : Enc} {srcs : List Src} {n bits : Nat} {chk : Option (List (Nat × Bool) → ShadowIn)}
    {f : Nat → List (Nat × Bool) → Word32 → LaneOut}
    (hi : ∀ s, exec i s = runLanes e s srcs n bits chk f) : Computes i e srcs n bits chk.isSome f :=
  computesWith_of (f := fun _ => f) hi

/-- The instructions that write a predicate compute it. -/
theorem computesPred_of {i : Instr} {e : Enc} {srcs : List Src} {f : List (Nat × Bool) → Bool × Flags}
    (hi : ∀ s, exec i s = runInstr false (opUses srcs e.d 0) false e s (predBody (predIdxOf e.d) srcs f)) :
    ComputesPred i e srcs f := by
  intro s c st pop us c' truth ls hc hn hpop
  rw [hi, runInstr_canIssue hc, issueInstr_noStop hc (by simp) hn]
  have hbody : predBody (predIdxOf e.d) srcs f (s.begun c us) c' = .ok (st.modGroup c'.g (fun x =>
      ((x.skip (ls.foldl (fun n l => n + st.laneSkips c' pop srcs l) 0)).addFlags
        ((ls.filter (fun l => (c'.x.lane l).st != .helper)).foldl (fun a l => a ||| (truth l).2) 0)).setPred
        (predIdxOf e.d).toNat c'.act (maskOf (ls.filter (fun l => (truth l).1))))) := by
    simp only [predBody, hpop, maskWhere, List.foldl_map, List.filter_map, List.map_map, Function.comp_def, State.laneSrcs,
      State.laneSkips, truth, ls]
    simp
  simp only [us, c'] at hbody
  rw [hbody]

/-- The instructions across lanes compute. -/
theorem computesAcross_of {i : Instr} {uses : State → Iss → List Use} {e : Enc} {srcs : List Src} {n bits : Nat}
    {ok : State → Iss → Prop} {skip : State → Iss → Popped → Nat → Nat} {f : State → Iss → Popped → Nat → Nat × Bool × Flags}
    (body : State → Iss → Except Stop State) (hi : ∀ s, exec i s = runInstr false uses false e s body)
    (hb : ∀ s c, ok s c → body s c = xlaneBody e.d srcs n bits skip f s c) :
    ComputesAcross i uses e srcs n bits ok skip f := by
  intro s c st w pop c' hc hn hok hpop hput
  rw [hi, runInstr_canIssue hc, issueInstr_noStop hc (by simp) hn]
  have hbody : body (s.begun c (uses s c)) c' = .ok w := by
    rw [hb _ _ hok]
    simp only [xlaneBody, hpop]
    exact hput
  simp only [c'] at hbody
  rw [hbody]

end Sys2Proof.Laws
end

