-- ==== Sys2Proof/Laws/Memory.lean ====
section
/-! SUPPORT. Memory: bytes read back, and every operation on memory keeps its canonical form. -/

namespace Sys2Proof.Laws

open Sys2Proof Sys2Proof.Machine

/-! ### Reading back -/

/-- The bytes that a write puts into memory read back in their order. -/
theorem memBytes_cputs (s : State) (pa : Nat) (bs : List Byte) :
    ({ s with mem := cputs 0 s.mem pa bs } : State).memBytes pa bs.length = bs := cgets_cputs 0 s.mem pa bs

/-- Bytes outside the written ones read as before. -/
theorem cgets_cputs_out (m : List Host.Cell) (pa : Nat) (bs : List Byte) (a n : Nat) (h : a + n ≤ pa ∨ pa + bs.length ≤ a) :
    cgets 0 (cputs 0 m pa bs) a n = cgets 0 m a n := by
  apply List.map_congr_left
  intro i hi
  have := List.mem_range.mp hi
  exact cget_cputs_out _ _ _ _ _ (by omega)

/-! ### What leaves memory alone -/

@[simp] theorem hbmTouch_mem (s : State) (pa n : Nat) (w : Bool) : (s.hbmTouch pa n w).mem = s.mem := by
  unfold State.hbmTouch; split <;> rfl

@[simp] theorem hbmTouch_hostMem (s : State) (pa n : Nat) (w : Bool) : (s.hbmTouch pa n w).hostMem = s.hostMem := by
  unfold State.hbmTouch; split <;> rfl

@[simp] theorem noteWrite_mem (s : State) (c : Option Nat) (a n : Nat) (d : Option Nat) : (s.noteWrite c a n d).mem = s.mem := rfl

@[simp] theorem noteWrite_hostMem (s : State) (c : Option Nat) (a n : Nat) (d : Option Nat) : (s.noteWrite c a n d).hostMem = s.hostMem :=
  rfl

@[simp] theorem memPut_mem (s : State) (pa : Nat) (bs : List Byte) (p : Bool) : (s.memPut pa bs p).mem = cputs 0 s.mem pa bs := rfl

@[simp] theorem memPut_hostMem (s : State) (pa : Nat) (bs : List Byte) (p : Bool) : (s.memPut pa bs p).hostMem = s.hostMem := rfl

@[simp] theorem memWrite_mem (s : State) (pa : Nat) (bs : List Byte) (p : Bool) : (s.memWrite pa bs p).mem = cputs 0 s.mem pa bs := by
  simp [State.memWrite]

@[simp] theorem memWrite_hostMem (s : State) (pa : Nat) (bs : List Byte) (p : Bool) : (s.memWrite pa bs p).hostMem = s.hostMem := by
  simp [State.memWrite]

/-- A fold of steps that keep a property keeps it. -/
theorem foldl_keeps {α β : Type} {P : β → Prop} {f : β → α → β} (hf : ∀ b a, P b → P (f b a)) (l : List α) (b : β) (h : P b) :
    P (l.foldl f b) := by
  induction l generalizing b with
  | nil => exact h
  | cons a r ih => exact ih _ (hf _ _ h)

/-- Two states hold the same bytes. -/
def SameMem (s t : State) : Prop := t.mem = s.mem ∧ t.hostMem = s.hostMem

theorem SameMem.refl (s : State) : SameMem s s := ⟨rfl, rfl⟩

theorem SameMem.trans {s t u : State} (h : SameMem s t) (k : SameMem t u) : SameMem s u := ⟨k.1.trans h.1, k.2.trans h.2⟩

/-- A fold of steps that change no byte changes none. -/
theorem SameMem.foldl {α : Type} {f : State → α → State} (hf : ∀ s a, SameMem s (f s a)) (l : List α) (s : State) : SameMem s (l.foldl f s) :=
  foldl_keeps (P := SameMem s) (fun _ a h => h.trans (hf _ a)) l s (SameMem.refl s)

theorem hbmTouch_same (s : State) (pa n : Nat) (w : Bool) : SameMem s (s.hbmTouch pa n w) := ⟨by simp, by simp⟩

theorem fabSend_same (s : State) (m : Nat) : SameMem s (s.fabSend m) := by
  unfold State.fabSend; split <;> exact ⟨rfl, rfl⟩

/-- A write request that arrives changes no byte yet. -/
theorem postReq_same (s : State) (r : MergeReq) : SameMem s (s.postReq r) := by
  unfold State.postReq
  dsimp only
  split
  · exact fabSend_same s _
  · exact SameMem.refl s

/-- What an L2 writes back waits for its home agent. -/
theorem writeOut_same (s : State) (agent die ln : Nat) : SameMem s (s.writeOut agent die ln) := by
  unfold State.writeOut
  split
  · exact SameMem.refl s
  · exact (SameMem.foldl (fun _ _ => postReq_same _ _) _ s).trans ⟨rfl, rfl⟩

theorem dirtyOut_same (s : State) (ln : Nat) : SameMem s (s.dirtyOut ln) := by
  unfold State.dirtyOut
  split
  · exact hbmTouch_same _ _ _ _
  · exact SameMem.refl s

theorem recallLine_same (s : State) (ln : Nat) : SameMem s (s.recallLine ln) := (dirtyOut_same s ln).trans ⟨rfl, rfl⟩

theorem evictL2_same (s : State) (die ln : Nat) : SameMem s (s.evictL2 die ln) := by
  unfold State.evictL2
  dsimp only
  refine (writeOut_same s evictAgent die ln).trans ?_
  split
  · exact (dirtyOut_same _ ln).trans ⟨rfl, rfl⟩
  · exact ⟨rfl, rfl⟩

theorem victim_same (s : State) (ls : List (Nat × LineSt)) (die : Nat) : SameMem s (s.victim ls die).2 := by
  unfold State.victim
  split <;> exact ⟨rfl, rfl⟩

/-- What leaves a full cache changes no byte of memory. -/
theorem makeRoom_same (s : State) (core ln : Nat) : SameMem s (s.makeRoom core ln) := by
  have k : ∀ u : State, SameMem u (if (u.l2Lines (dieOf core)).length ≤ 524288 then u else
      (u.victim ((u.l2Lines (dieOf core)).filter (fun p => p.1 != ln)) (dieOf core)).2.evictL2 (dieOf core)
        (u.victim ((u.l2Lines (dieOf core)).filter (fun p => p.1 != ln)) (dieOf core)).1) := by
    intro u
    split
    · exact SameMem.refl u
    · exact (victim_same _ _ _).trans (evictL2_same _ _ _)
  unfold State.makeRoom
  dsimp only
  refine SameMem.trans ?_ (k _)
  split
  · exact SameMem.refl s
  · exact (victim_same _ _ _).trans ⟨rfl, rfl⟩

theorem gatherLine_same (s : State) (r : MergeReq) (ln : Nat) : SameMem s (s.gatherLine r ln) := by
  unfold State.gatherLine
  split
  · exact SameMem.trans ⟨rfl, rfl⟩ (makeRoom_same _ _ _)
  · exact recallLine_same s ln

/-! ### The canonical form -/

/-- Device memory and host memory are in their canonical form. -/
def InForm (s : State) : Prop := Memory.wf s.mem ∧ Memory.wf s.hostMem

theorem InForm.of_eq {s t : State} (h : InForm s) (hm : t.mem = s.mem) (hh : t.hostMem = s.hostMem) : InForm t := by
  rw [InForm, hm, hh]; exact h

theorem InForm.memWrite {s : State} (h : InForm s) (pa : Nat) (bs : List Byte) (p : Bool) : InForm (s.memWrite pa bs p) :=
  ⟨by rw [memWrite_mem]; exact cwf_cputs 0 s.mem pa bs h.1, by rw [memWrite_hostMem]; exact h.2⟩

theorem InForm.of_same {s t : State} (h : InForm s) (k : SameMem s t) : InForm t := h.of_eq k.1 k.2

theorem InForm.memPut {s : State} (h : InForm s) (pa : Nat) (bs : List Byte) (p : Bool) : InForm (s.memPut pa bs p) :=
  ⟨cwf_cputs 0 s.mem pa bs h.1, h.2⟩

theorem InForm.modTeam {s : State} (h : InForm s) (k : Nat) (f : Team → Team) : InForm (s.modTeam k f) := by
  unfold State.modTeam
  split
  · exact h.of_eq rfl rfl
  · exact h

theorem InForm.applyReq {s : State} (h : InForm s) (r : MergeReq) : InForm (s.applyReq r) := by
  unfold State.applyReq
  split
  · exact h.modTeam _ _
  · split
    · exact h.memPut r.pa r.bytes r.pois
    · exact h.memWrite r.pa r.bytes r.pois

theorem InForm.grantReq {s : State} (h : InForm s) (r : MergeReq) : InForm (s.grantReq r) := by
  have note : SameMem s (if r.scr.isSome || r.tokens then s.noteWrite r.scr r.pa r.bytes.length (dieOfWho r.who) else s) := by
    split
    · exact ⟨rfl, rfl⟩
    · exact SameMem.refl s
  unfold State.grantReq
  dsimp only
  apply InForm.applyReq
  refine h.of_same (note.trans ?_)
  generalize (if r.scr.isSome || r.tokens then s.noteWrite r.scr r.pa r.bytes.length (dieOfWho r.who) else s) = u
  split
  · exact SameMem.refl _
  · exact SameMem.foldl (fun _ _ => gatherLine_same _ _ _) _ _

theorem InForm.grantAll {s : State} (h : InForm s) : InForm s.grantAll :=
  foldl_keeps (P := InForm) (fun _ r hb => hb.applyReq r) _ _ (h.of_eq rfl rfl)

theorem InForm.grantWhere {s : State} (h : InForm s) (p : MergeReq → Bool) : InForm (s.grantWhere p) := by
  unfold State.grantWhere
  split
  · exact h
  · refine InForm.of_eq (foldl_keeps (P := fun acc : State × List MergeReq => InForm acc.1) ?_ _ _ (h.of_eq rfl rfl)) rfl rfl
    intro acc r hb
    dsimp only
    split
    · refine InForm.grantReq (s := { acc.1 with served := _ }) ?_ r
      exact hb.of_eq rfl rfl
    · exact hb

theorem InForm.closeWindow {s : State} (h : InForm s) : InForm s.closeWindow := (h.grantWhere _).of_eq rfl rfl

theorem InForm.postReq {s : State} (h : InForm s) (r : MergeReq) : InForm (s.postReq r) := h.of_same (postReq_same s r)

theorem InForm.homeWrite {s : State} (h : InForm s) (pa : Nat) (bs : List Byte) (p : Bool) : InForm (s.homeWrite pa bs p) := by
  have k : SameMem s (s.noteWrite none pa bs.length none) := ⟨rfl, rfl⟩
  unfold State.homeWrite
  dsimp only
  refine InForm.memWrite ?_ pa bs p
  exact h.of_same ((k.trans (SameMem.foldl (fun _ _ => recallLine_same _ _) (linesOf pa bs.length) _)).trans ⟨rfl, rfl⟩)

theorem InForm.writeRuns {s : State} (h : InForm s) (ln : Nat) (c : CLine) : InForm (s.writeRuns ln c) :=
  foldl_keeps (P := InForm) (fun _ r hb => hb.memWrite (128 * ln + r.1) r.2.1 r.2.2) c.runs s h

theorem InForm.flushLine {s : State} (h : InForm s) (ln : Nat) : InForm (s.flushLine ln) := by
  unfold State.flushLine
  dsimp only
  refine InForm.of_eq (foldl_keeps (P := InForm) (fun _ p hb => InForm.writeRuns hb ln p.2) _ _ ?_) rfl rfl
  exact foldl_keeps (P := InForm) (fun _ r hb => InForm.applyReq hb r) _ _ (h.of_eq rfl rfl)

theorem InForm.writeChunk {s : State} (h : InForm s) (pa : Nat) (bs : List Byte) (pois : Nat → Bool) : InForm (s.writeChunk pa bs pois) :=
  foldl_keeps (P := InForm) (fun _ i hb => InForm.memWrite hb (pa + 32 * i) ((bs.drop (32 * i)).take 32) (pois i)) _ s h

theorem InForm.drainEntry {s : State} (h : InForm s) (e : WbEnt) : InForm (s.drainEntry e) := by
  unfold State.drainEntry
  split
  · exact h.of_eq rfl rfl
  · exact h.memWrite e.pa e.bytes e.pois

theorem InForm.drainAll {s : State} (h : InForm s) : InForm s.drainAll :=
  (foldl_keeps (P := InForm) (fun _ e hb => hb.drainEntry e) s.wbEntries s h).of_eq rfl rfl

theorem InForm.initMemory {s : State} (h : InForm s) : InForm s.initMemory := by
  have k := h.drainAll
  exact ⟨cwf_filter 0 _ _ k.1, k.2⟩

theorem InForm.moduleReset {s : State} (h : InForm s) (trip : Bool) : InForm (s.moduleReset trip) := by
  have k := h.drainAll
  exact ⟨cwf_filter 0 _ _ k.1, k.2⟩

theorem InForm.putCompl {s : State} (h : InForm s) (c : Compl) : InForm (s.putCompl c) := ⟨h.1, cwf_cputs 0 _ _ _ h.2⟩

theorem InForm.putEvent {s : State} (h : InForm s) (st : BitVec 16) (r : Word64) : InForm (s.putEvent st r) := by
  unfold State.putEvent
  dsimp only
  split
  · exact h.putCompl _
  · split <;> exact h.of_eq rfl rfl

theorem InForm.putFetch {s : State} (h : InForm s) (bs : List Byte) (segs : List Seg) : InForm (s.putFetch bs segs) := by
  unfold State.putFetch
  refine foldl_keeps (P := fun p : State × Nat => InForm p.1) ?_ segs (_, 0) (h.of_eq rfl rfl)
  intro b q hb
  exact ⟨cwf_cputs 0 b.1.mem q.pa _ hb.1, hb.2⟩

theorem InForm.probe {s : State} (h : InForm s) : InForm s.probe := by
  unfold State.probe
  generalize leBytes 8 (probeT2 + 1) = a
  generalize leBytes 8 (probeMem + 0x1F) = b
  exact ⟨cwf_cputs 0 _ _ _ (cwf_cputs 0 _ _ _ h.1), h.2⟩

theorem InForm.withFetchWord {s : State} (h : InForm s) (n w : Nat) : InForm (s.withFetchWord n w) := by
  rw [State.withFetchWord, State.withWord]
  split
  · exact h.putFetch _ _
  · exact h.probe.putFetch _ _

/-- The memories at reset are in their form. -/
theorem reset_inForm : InForm State.reset := ⟨rfl, rfl⟩

end Sys2Proof.Laws
end

