-- ==== Sys2Proof/Laws/PerInstr.lean ====
section
/-! SUPPORT. What holds of every instruction as syntax, one lemma per constructor. -/

namespace Sys2Proof.Laws.Enc

open Sys2Proof

/-- An instruction that has an opcode is the one that the opcode map gives for it, with every field where decode puts it; a step of
the hardware or the host has no encoding. -/
def Statement (i : Instr) : Prop :=
  match i.parts with
  | some (op, e) => (opRow op).map (fun r => r.ins e) = some i ∧ encode i = some (encodeParts op e)
  | none => encode i = none

/-- An encoded instruction. -/
theorem of_row {i : Instr} {op : Nat} {e : Enc} (h : i.parts = some (op, e)) (r : (opRow op).map (fun r => r.ins e) = some i) :
    Statement i := by
  simp [Statement, h, encode, r]

/-- A step without an encoding. -/
theorem of_none {i : Instr} (h : i.parts = none) : Statement i := by
  simp [Statement, h, encode]

theorem nop (e : Enc) : Statement (.nop e) := of_row rfl rfl
theorem bra (e : Enc) : Statement (.bra e) := of_row rfl rfl
theorem bri (e : Enc) : Statement (.bri e) := of_row rfl rfl
theorem call (e : Enc) : Statement (.call e) := of_row rfl rfl
theorem calli (e : Enc) : Statement (.calli e) := of_row rfl rfl
theorem ret (e : Enc) : Statement (.ret e) := of_row rfl rfl
theorem exit (e : Enc) : Statement (.exit e) := of_row rfl rfl
theorem yield (e : Enc) : Statement (.yield e) := of_row rfl rfl
theorem yieldMarkExpiry (g : Nat) : Statement (.yieldMarkExpiry g) := of_none rfl
theorem sleep (e : Enc) : Statement (.sleep e) := of_row rfl rfl
theorem sleepExpiry (g : Nat) : Statement (.sleepExpiry g) := of_none rfl
theorem trap (e : Enc) : Statement (.trap e) := of_row rfl rfl
theorem rft (e : Enc) : Statement (.rft e) := of_row rfl rfl
theorem endg (e : Enc) : Statement (.endg e) := of_row rfl rfl
theorem hbeat (e : Enc) : Statement (.hbeat e) := of_row rfl rfl
theorem beos (e : Enc) : Statement (.beos e) := of_row rfl rfl
theorem brk (e : Enc) : Statement (.brk e) := of_row rfl rfl
theorem srd (e : Enc) : Statement (.srd e) := of_row rfl rfl
theorem swr (e : Enc) : Statement (.swr e) := of_row rfl rfl
theorem tlbi (e : Enc) : Statement (.tlbi e) := of_row rfl rfl
theorem tlbiAck (g : Nat) : Statement (.tlbiAck g) := of_none rfl
theorem rply (e : Enc) : Statement (.rply e) := of_row rfl rfl
theorem errd (e : Enc) : Statement (.errd e) := of_row rfl rfl
theorem wdset (e : Enc) : Statement (.wdset e) := of_row rfl rfl
theorem timeI (e : Enc) : Statement (.timeI e) := of_row rfl rfl
theorem pmcrd (e : Enc) : Statement (.pmcrd e) := of_row rfl rfl
theorem mov (e : Enc) : Statement (.mov e) := of_row rfl rfl
theorem sel (e : Enc) : Statement (.sel e) := of_row rfl rfl
theorem iadd (e : Enc) : Statement (.iadd e) := of_row rfl rfl
theorem iaddc (e : Enc) : Statement (.iaddc e) := of_row rfl rfl
theorem isub (e : Enc) : Statement (.isub e) := of_row rfl rfl
theorem isubb (e : Enc) : Statement (.isubb e) := of_row rfl rfl
theorem imul (e : Enc) : Statement (.imul e) := of_row rfl rfl
theorem imulh (e : Enc) : Statement (.imulh e) := of_row rfl rfl
theorem imad (e : Enc) : Statement (.imad e) := of_row rfl rfl
theorem imadh (e : Enc) : Statement (.imadh e) := of_row rfl rfl
theorem idiv (e : Enc) : Statement (.idiv e) := of_row rfl rfl
theorem irem (e : Enc) : Statement (.irem e) := of_row rfl rfl
theorem ineg (e : Enc) : Statement (.ineg e) := of_row rfl rfl
theorem iabs (e : Enc) : Statement (.iabs e) := of_row rfl rfl
theorem imin (e : Enc) : Statement (.imin e) := of_row rfl rfl
theorem imax (e : Enc) : Statement (.imax e) := of_row rfl rfl
theorem icmp (e : Enc) : Statement (.icmp e) := of_row rfl rfl
theorem andB (e : Enc) : Statement (.andB e) := of_row rfl rfl
theorem orB (e : Enc) : Statement (.orB e) := of_row rfl rfl
theorem xorB (e : Enc) : Statement (.xorB e) := of_row rfl rfl
theorem andn (e : Enc) : Statement (.andn e) := of_row rfl rfl
theorem notB (e : Enc) : Statement (.notB e) := of_row rfl rfl
theorem shl (e : Enc) : Statement (.shl e) := of_row rfl rfl
theorem shr (e : Enc) : Statement (.shr e) := of_row rfl rfl
theorem sar (e : Enc) : Statement (.sar e) := of_row rfl rfl
theorem rotl (e : Enc) : Statement (.rotl e) := of_row rfl rfl
theorem bfe (e : Enc) : Statement (.bfe e) := of_row rfl rfl
theorem bfi (e : Enc) : Statement (.bfi e) := of_row rfl rfl
theorem popc (e : Enc) : Statement (.popc e) := of_row rfl rfl
theorem clz (e : Enc) : Statement (.clz e) := of_row rfl rfl
theorem ctz (e : Enc) : Statement (.ctz e) := of_row rfl rfl
theorem brev (e : Enc) : Statement (.brev e) := of_row rfl rfl
theorem lea (e : Enc) : Statement (.lea e) := of_row rfl rfl
theorem plop (e : Enc) : Statement (.plop e) := of_row rfl rfl
theorem pmov (e : Enc) : Statement (.pmov e) := of_row rfl rfl
theorem fadd (e : Enc) : Statement (.fadd e) := of_row rfl rfl
theorem fsub (e : Enc) : Statement (.fsub e) := of_row rfl rfl
theorem fmul (e : Enc) : Statement (.fmul e) := of_row rfl rfl
theorem ffma (e : Enc) : Statement (.ffma e) := of_row rfl rfl
theorem fmin (e : Enc) : Statement (.fmin e) := of_row rfl rfl
theorem fmax (e : Enc) : Statement (.fmax e) := of_row rfl rfl
theorem fcmp (e : Enc) : Statement (.fcmp e) := of_row rfl rfl
theorem fclass (e : Enc) : Statement (.fclass e) := of_row rfl rfl
theorem frnd (e : Enc) : Statement (.frnd e) := of_row rfl rfl
theorem fdiv (e : Enc) : Statement (.fdiv e) := of_row rfl rfl
theorem fsqrt (e : Enc) : Statement (.fsqrt e) := of_row rfl rfl
theorem frcp (e : Enc) : Statement (.frcp e) := of_row rfl rfl
theorem frsq (e : Enc) : Statement (.frsq e) := of_row rfl rfl
theorem fexp2 (e : Enc) : Statement (.fexp2 e) := of_row rfl rfl
theorem flog2 (e : Enc) : Statement (.flog2 e) := of_row rfl rfl
theorem fsin (e : Enc) : Statement (.fsin e) := of_row rfl rfl
theorem fcos (e : Enc) : Statement (.fcos e) := of_row rfl rfl
theorem fscale (e : Enc) : Statement (.fscale e) := of_row rfl rfl
theorem fdot2 (e : Enc) : Statement (.fdot2 e) := of_row rfl rfl
theorem aadd (e : Enc) : Statement (.aadd e) := of_row rfl rfl
theorem cvt (e : Enc) : Statement (.cvt e) := of_row rfl rfl
theorem pack (e : Enc) : Statement (.pack e) := of_row rfl rfl
theorem unpk (e : Enc) : Statement (.unpk e) := of_row rfl rfl
theorem qblk (e : Enc) : Statement (.qblk e) := of_row rfl rfl
theorem dqblk (e : Enc) : Statement (.dqblk e) := of_row rfl rfl
theorem resid (e : Enc) : Statement (.resid e) := of_row rfl rfl
theorem shfi (e : Enc) : Statement (.shfi e) := of_row rfl rfl
theorem shfx (e : Enc) : Statement (.shfx e) := of_row rfl rfl
theorem shfn (e : Enc) : Statement (.shfn e) := of_row rfl rfl
theorem qswp (e : Enc) : Statement (.qswp e) := of_row rfl rfl
theorem qbc (e : Enc) : Statement (.qbc e) := of_row rfl rfl
theorem qred (e : Enc) : Statement (.qred e) := of_row rfl rfl
theorem vote (e : Enc) : Statement (.vote e) := of_row rfl rfl
theorem gred (e : Enc) : Statement (.gred e) := of_row rfl rfl
theorem gscan (e : Enc) : Statement (.gscan e) := of_row rfl rfl
theorem matchL (e : Enc) : Statement (.matchL e) := of_row rfl rfl
theorem cmpk (e : Enc) : Statement (.cmpk e) := of_row rfl rfl
theorem ld (e : Enc) : Statement (.ld e) := of_row rfl rfl
theorem st (e : Enc) : Statement (.st e) := of_row rfl rfl
theorem ldpk (e : Enc) : Statement (.ldpk e) := of_row rfl rfl
theorem stpk (e : Enc) : Statement (.stpk e) := of_row rfl rfl
theorem pref (e : Enc) : Statement (.pref e) := of_row rfl rfl
theorem atom (e : Enc) : Statement (.atom e) := of_row rfl rfl
theorem red (e : Enc) : Statement (.red e) := of_row rfl rfl
theorem cas (e : Enc) : Statement (.cas e) := of_row rfl rfl
theorem xchg (e : Enc) : Statement (.xchg e) := of_row rfl rfl
theorem mwait (e : Enc) : Statement (.mwait e) := of_row rfl rfl
theorem mwaitWake (g : Nat) : Statement (.mwaitWake g) := of_none rfl
theorem mwaitTimeout (g : Nat) : Statement (.mwaitTimeout g) := of_none rfl
theorem vspill (e : Enc) : Statement (.vspill e) := of_row rfl rfl
theorem vfill (e : Enc) : Statement (.vfill e) := of_row rfl rfl
theorem ctpl (e : Enc) : Statement (.ctpl e) := of_row rfl rfl
theorem bseal (e : Enc) : Statement (.bseal e) := of_row rfl rfl
theorem bwait (e : Enc) : Statement (.bwait e) := of_row rfl rfl
theorem btest (e : Enc) : Statement (.btest e) := of_row rfl rfl
theorem spbind (e : Enc) : Statement (.spbind e) := of_row rfl rfl
theorem spseek (e : Enc) : Statement (.spseek e) := of_row rfl rfl
theorem spdrn (e : Enc) : Statement (.spdrn e) := of_row rfl rfl
theorem sprel (e : Enc) : Statement (.sprel e) := of_row rfl rfl
theorem bari (e : Enc) : Statement (.bari e) := of_row rfl rfl
theorem barr (e : Enc) : Statement (.barr e) := of_row rfl rfl
theorem barw (e : Enc) : Statement (.barw e) := of_row rfl rfl
theorem barrw (e : Enc) : Statement (.barrw e) := of_row rfl rfl
theorem bart (e : Enc) : Statement (.bart e) := of_row rfl rfl
theorem fence (e : Enc) : Statement (.fence e) := of_row rfl rfl
theorem pbar (e : Enc) : Statement (.pbar e) := of_row rfl rfl
theorem psync (e : Enc) : Statement (.psync e) := of_row rfl rfl
theorem stepadv (e : Enc) : Statement (.stepadv e) := of_row rfl rfl
theorem depdec (e : Enc) : Statement (.depdec e) := of_row rfl rfl
theorem qpush (e : Enc) : Statement (.qpush e) := of_row rfl rfl
theorem lhinge (e : Enc) : Statement (.lhinge e) := of_row rfl rfl
theorem dhop (e : Enc) : Statement (.dhop e) := of_row rfl rfl
theorem mloop (e : Enc) : Statement (.mloop e) := of_row rfl rfl
theorem mstep (e : Enc) : Statement (.mstep e) := of_row rfl rfl
theorem mzero (e : Enc) : Statement (.mzero e) := of_row rfl rfl
theorem mcvt (e : Enc) : Statement (.mcvt e) := of_row rfl rfl
theorem macc (e : Enc) : Statement (.macc e) := of_row rfl rfl
theorem msync (e : Enc) : Statement (.msync e) := of_row rfl rfl
theorem obres (e : Enc) : Statement (.obres e) := of_row rfl rfl
theorem obrel (e : Enc) : Statement (.obrel e) := of_row rfl rfl
theorem obld (e : Enc) : Statement (.obld e) := of_row rfl rfl
theorem matrixOpStart (core : Nat) : Statement (.matrixOpStart core) := of_none rfl
theorem matrixStep (core : Nat) (fault : StepFault) : Statement (.matrixStep core fault) := of_none rfl
theorem matrixOpComplete (core : Nat) (fault : StepFault) : Statement (.matrixOpComplete core fault) := of_none rfl
theorem longLatencyComplete (g : Nat) : Statement (.longLatencyComplete g) := of_none rfl
theorem trapEntry (g : Nat) (cause : BitVec 9) (mask : Mask) (info : Word64) : Statement (.trapEntry g cause mask info) := of_none rfl
theorem asyncCauseDelivery (g : Nat) : Statement (.asyncCauseDelivery g) := of_none rfl
theorem groupSwap (core : Nat) : Statement (.groupSwap core) := of_none rfl
theorem sketchSpawn (g : Nat) : Statement (.sketchSpawn g) := of_none rfl
theorem sketchEnd (g : Nat) (why : SketchEnd) : Statement (.sketchEnd g why) := of_none rfl
theorem groupPark (g : Nat) : Statement (.groupPark g) := of_none rfl
theorem granuleDrowsy (g : Nat) (granule : Nat) : Statement (.granuleDrowsy g granule) := of_none rfl
theorem drowsyWake (g : Nat) (granule : Nat) : Statement (.drowsyWake g granule) := of_none rfl
theorem streamReadAhead (g : Nat) (port : BitVec 4) (lane : Nat) : Statement (.streamReadAhead g port lane) := of_none rfl
theorem copyDelivery (core : Nat) (chan : BitVec 3) : Statement (.copyDelivery core chan) := of_none rfl
theorem copyComplete (core : Nat) (chan : BitVec 3) : Statement (.copyComplete core chan) := of_none rfl
theorem writeBackAccept (core : Nat) (chan : BitVec 3) : Statement (.writeBackAccept core chan) := of_none rfl
theorem writeBackDrain (die : BitVec 2) : Statement (.writeBackDrain die) := of_none rfl
theorem queueHeadService (q : BitVec 12) : Statement (.queueHeadService q) := of_none rfl
theorem clusterPreempt (cluster : Nat) : Statement (.clusterPreempt cluster) := of_none rfl
theorem clusterRestore (cluster : Nat) : Statement (.clusterRestore cluster) := of_none rfl
theorem groupEnd (g : Nat) : Statement (.groupEnd g) := of_none rfl
theorem contextSaved (ctx : BitVec 7) : Statement (.contextSaved ctx) := of_none rfl
theorem contextDrainComplete (ctx : BitVec 7) : Statement (.contextDrainComplete ctx) := of_none rfl
theorem watchdog (g : Nat) : Statement (.watchdog g) := of_none rfl
theorem deadWaitExpiry (g : Nat) : Statement (.deadWaitExpiry g) := of_none rfl
theorem watchdogSecond (g : Nat) : Statement (.watchdogSecond g) := of_none rfl
theorem coreRetired (core : Nat) : Statement (.coreRetired core) := of_none rfl
theorem etcherMark (ctx : BitVec 7) : Statement (.etcherMark ctx) := of_none rfl
theorem etcherPageCopy (ctx : BitVec 7) : Statement (.etcherPageCopy ctx) := of_none rfl
theorem boundaryCommit (ctx : BitVec 7) : Statement (.boundaryCommit ctx) := of_none rfl
theorem boundaryComplete (ctx : BitVec 7) : Statement (.boundaryComplete ctx) := of_none rfl
theorem beaconTimeout (m : BitVec 9) : Statement (.beaconTimeout m) := of_none rfl
theorem recoveryDetect (m : BitVec 9) : Statement (.recoveryDetect m) := of_none rfl
theorem recoveryAdmit (spare : BitVec 9) : Statement (.recoveryAdmit spare) := of_none rfl
theorem scmRebuild (stripe : Nat) (shards : List (List Byte)) : Statement (.scmRebuild stripe shards) := of_none rfl
theorem scrubStripe (found : List (Nat × SectorCheck)) : Statement (.scrubStripe found) := of_none rfl
theorem refreshRetry (stack : Nat) : Statement (.refreshRetry stack) := of_none rfl
theorem srefEntry (pc : Nat) : Statement (.srefEntry pc) := of_none rfl
theorem srefEntryComplete (pc : Nat) : Statement (.srefEntryComplete pc) := of_none rfl
theorem srefExitComplete (pc : Nat) : Statement (.srefExitComplete pc) := of_none rfl
theorem transientRequestFail (line : Nat) (die : BitVec 3) : Statement (.transientRequestFail line die) := of_none rfl
theorem persistentRequestRetire (line : Nat) : Statement (.persistentRequestRetire line) := of_none rfl
theorem linkTrainAttempt (link : Nat) (failed : List (Nat × Nat)) (ok : Bool) : Statement (.linkTrainAttempt link failed ok) := of_none rfl
theorem laneFailure (link : Nat) (bundle lane : Nat) : Statement (.laneFailure link bundle lane) := of_none rfl
theorem bundleDrainComplete (link : Nat) : Statement (.bundleDrainComplete link) := of_none rfl
theorem deadTimeExpiry (link : Nat) : Statement (.deadTimeExpiry link) := of_none rfl
theorem dwellExpiry (link : Nat) : Statement (.dwellExpiry link) := of_none rfl
theorem withdrawalConfirm (m : BitVec 9) : Statement (.withdrawalConfirm m) := of_none rfl
theorem pathLostResend (seq : Nat) : Statement (.pathLostResend seq) := of_none rfl
theorem throttleStep (watts : BitVec 16) (inlet tj : BitVec 8) : Statement (.throttleStep watts inlet tj) := of_none rfl
theorem thermalTrip (inlet tj : BitVec 8) : Statement (.thermalTrip inlet tj) := of_none rfl
theorem meminitDone (listsAgree : Bool) : Statement (.meminitDone listsAgree) := of_none rfl
theorem selftestDone (r : SelfTest) : Statement (.selftestDone r) := of_none rfl
theorem mwRead (off : BitVec 36) (n : Nat) : Statement (.mwRead off n) := of_none rfl
theorem mwWrite (off : BitVec 36) (bytes : List Byte) : Statement (.mwWrite off bytes) := of_none rfl
theorem queueTailWrite (q : BitVec 12) (tail : BitVec 16) : Statement (.queueTailWrite q tail) := of_none rfl
theorem mctlReset (v : Word64) : Statement (.mctlReset v) := of_none rfl
theorem fwload (v : Word64) : Statement (.fwload v) := of_none rfl
theorem ictailWrite (v : Word64) : Statement (.ictailWrite v) := of_none rfl
theorem ccheadWrite (v : Word64) : Statement (.ccheadWrite v) := of_none rfl
theorem thstatClear (v : Word64) : Statement (.thstatClear v) := of_none rfl
theorem etcfgWrite (v : Word64) : Statement (.etcfgWrite v) := of_none rfl
theorem routeWrite (m : BitVec 9) (v : Word32) : Statement (.routeWrite m v) := of_none rfl
theorem cwRegisterWrite (off : BitVec 16) (v : Word64) : Statement (.cwRegisterWrite off v) := of_none rfl
theorem ctxnew (c : Cmd) : Statement (.ctxnew c) := of_none rfl
theorem ctxrun (c : Cmd) : Statement (.ctxrun c) := of_none rfl
theorem ctxstop (c : Cmd) : Statement (.ctxstop c) := of_none rfl
theorem ctxkill (c : Cmd) : Statement (.ctxkill c) := of_none rfl
theorem ctxsync (c : Cmd) : Statement (.ctxsync c) := of_none rfl
theorem resync (c : Cmd) : Statement (.resync c) := of_none rfl
theorem qcreate (c : Cmd) : Statement (.qcreate c) := of_none rfl
theorem qresumeSkip (c : Cmd) : Statement (.qresumeSkip c) := of_none rfl
theorem qresumeRetry (c : Cmd) : Statement (.qresumeRetry c) := of_none rfl
theorem qdestroy (c : Cmd) : Statement (.qdestroy c) := of_none rfl
theorem depset (c : Cmd) : Statement (.depset c) := of_none rfl
theorem depfree (c : Cmd) : Statement (.depfree c) := of_none rfl
theorem hostDepdec (c : Cmd) : Statement (.hostDepdec c) := of_none rfl
theorem cohset (c : Cmd) : Statement (.cohset c) := of_none rfl
theorem pgfree (c : Cmd) : Statement (.pgfree c) := of_none rfl
theorem pgmig (c : Cmd) : Statement (.pgmig c) := of_none rfl
theorem hostRply (c : Cmd) : Statement (.hostRply c) := of_none rfl
theorem hostTlbi (c : Cmd) : Statement (.hostTlbi c) := of_none rfl
theorem ltrain (c : Cmd) : Statement (.ltrain c) := of_none rfl
theorem rstep (c : Cmd) : Statement (.rstep c) := of_none rfl
theorem sgjoin (c : Cmd) : Statement (.sgjoin c) := of_none rfl
theorem scrub (c : Cmd) : Statement (.scrub c) := of_none rfl
theorem errpop (c : Cmd) : Statement (.errpop c) := of_none rfl
theorem coreret (c : Cmd) : Statement (.coreret c) := of_none rfl
theorem capset (c : Cmd) : Statement (.capset c) := of_none rfl
theorem replay (c : Cmd) : Statement (.replay c) := of_none rfl
theorem dbgrd (c : Cmd) : Statement (.dbgrd c) := of_none rfl
theorem dbgwr (c : Cmd) : Statement (.dbgwr c) := of_none rfl
theorem dbgres (c : Cmd) : Statement (.dbgres c) := of_none rfl
theorem dbgresEnd (c : Cmd) : Statement (.dbgresEnd c) := of_none rfl
theorem mreset (c : Cmd) : Statement (.mreset c) := of_none rfl
theorem illegalOpcode (why : DecodeCause) : Statement (.illegalOpcode why) := of_none rfl
theorem l2Eviction (die : BitVec 3) (line : Nat) : Statement (.l2Eviction die line) := of_none rfl
theorem directoryEviction (line : Nat) : Statement (.directoryEviction line) := of_none rfl
theorem flitCrcFail (link : Nat) (bundle lane : Nat) : Statement (.flitCrcFail link bundle lane) := of_none rfl
theorem templateVisible (g : Nat) : Statement (.templateVisible g) := of_none rfl
theorem beacon (m : BitVec 9) : Statement (.beacon m) := of_none rfl
theorem pageServiceDemandZero : Statement (.pageServiceDemandZero) := of_none rfl
theorem launchStart : Statement (.launchStart) := of_none rfl
theorem clusterPlace : Statement (.clusterPlace) := of_none rfl
theorem recoveryFence : Statement (.recoveryFence) := of_none rfl
theorem recoveryQuiesce : Statement (.recoveryQuiesce) := of_none rfl
theorem recoveryRebuild : Statement (.recoveryRebuild) := of_none rfl
theorem recoveryMap : Statement (.recoveryMap) := of_none rfl
theorem recoveryResume : Statement (.recoveryResume) := of_none rfl
theorem memoryLinkSplit : Statement (.memoryLinkSplit) := of_none rfl
theorem forwardOnlyTimeout : Statement (.forwardOnlyTimeout) := of_none rfl
theorem powerFail : Statement (.powerFail) := of_none rfl
theorem holdupRecharged : Statement (.holdupRecharged) := of_none rfl
theorem fwloadComplete : Statement (.fwloadComplete) := of_none rfl
theorem bringupLtrainDone : Statement (.bringupLtrainDone) := of_none rfl
theorem restoreDone : Statement (.restoreDone) := of_none rfl
theorem fetchBounds : Statement (.fetchBounds) := of_none rfl
theorem powerReturn : Statement (.powerReturn) := of_none rfl
theorem mergeWindowGrant : Statement (.mergeWindowGrant) := of_none rfl
theorem keptResponseExpiry : Statement (.keptResponseExpiry) := of_none rfl

end Sys2Proof.Laws.Enc
end

