-- ==== Sys2Proof/Laws/State.lean ====
section
/-! SUPPORT. What each named update of the state leaves as it was, one lemma per field, and what a part reads after it is written. -/

namespace Sys2Proof.Laws

open Sys2Proof Sys2Proof.Machine

/-! ### A part reads what was written to it -/

@[simp] theorem setGroup_group?_self (s : State) (g : Nat) (x : Group) : (s.setGroup g x).group? g = some x :=
  tget?_tput_self s.groups g x

theorem setGroup_group?_ne (s : State) {g h : Nat} (n : h ≠ g) (x : Group) : (s.setGroup g x).group? h = s.group? h :=
  tget?_tput_ne s.groups n x

theorem modGroup_group?_self (s : State) (g : Nat) (f : Group → Group) : (s.modGroup g f).group? g = (s.group? g).map f := by
  unfold State.modGroup
  cases h : s.group? g <;> simp [h]

theorem modGroup_group?_ne (s : State) {g h : Nat} (n : h ≠ g) (f : Group → Group) : (s.modGroup g f).group? h = s.group? h := by
  unfold State.modGroup
  cases hg : s.group? g <;> simp [setGroup_group?_ne, n]

/-- Changing a group that exists writes the changed record. -/
theorem modGroup_eq (s : State) (g : Nat) (x : Group) (f : Group → Group) (h : s.group? g = some x) :
    s.modGroup g f = s.setGroup g (f x) := by
  simp [State.modGroup, h]

@[simp] theorem setTeam_team?_self (s : State) (t : Nat) (x : Team) : (s.setTeam t x).team? t = some x :=
  tget?_tput_self s.teams t x

theorem setTeam_team?_ne (s : State) {t u : Nat} (n : u ≠ t) (x : Team) : (s.setTeam t x).team? u = s.team? u :=
  tget?_tput_ne s.teams n x

@[simp] theorem setCtx_ctx_self (s : State) (c : Nat) (x : Ctx) : (s.setCtx c x).ctx c = x := cget_cput_self _ _ c x

theorem setCtx_ctx_ne (s : State) {c d : Nat} (n : d ≠ c) (x : Ctx) : (s.setCtx c x).ctx d = s.ctx d := cget_cput_ne _ _ n x

@[simp] theorem modCtx_ctx_self (s : State) (c : Nat) (f : Ctx → Ctx) : (s.modCtx c f).ctx c = f (s.ctx c) :=
  setCtx_ctx_self s c _

@[simp] theorem setCore_core_self (s : State) (c : Nat) (x : Core) : (s.setCore c x).core c = x := cget_cput_self _ _ c x

theorem setCore_core_ne (s : State) {c d : Nat} (n : d ≠ c) (x : Core) : (s.setCore c x).core d = s.core d := cget_cput_ne _ _ n x

@[simp] theorem modCore_core_self (s : State) (c : Nat) (f : Core → Core) : (s.modCore c f).core c = f (s.core c) :=
  setCore_core_self s c _

/-- A counter counts. -/
theorem count_self (s : State) (c k n : Nat) :
    cget 0 ((s.count c k n).core c).pmc k = cget 0 (s.core c).pmc k + BitVec.ofNat 64 n := by
  simp [State.count]

/-! ### `setGroup` -/

@[simp] theorem setGroup_agenda (s : State) (g : Nat) (x : Group) : (s.setGroup g x).agenda = s.agenda := rfl
@[simp] theorem setGroup_issued (s : State) (g : Nat) (x : Group) : (s.setGroup g x).issued = s.issued := rfl
@[simp] theorem setGroup_cur (s : State) (g : Nat) (x : Group) : (s.setGroup g x).cur = s.cur := rfl
@[simp] theorem setGroup_freeCtr (s : State) (g : Nat) (x : Group) : (s.setGroup g x).freeCtr = s.freeCtr := rfl
@[simp] theorem setGroup_nextId (s : State) (g : Nat) (x : Group) : (s.setGroup g x).nextId = s.nextId := rfl
@[simp] theorem setGroup_cycle (s : State) (g : Nat) (x : Group) : (s.setGroup g x).cycle = s.cycle := rfl
@[simp] theorem setGroup_timebase (s : State) (g : Nat) (x : Group) : (s.setGroup g x).timebase = s.timebase := rfl
@[simp] theorem setGroup_subTick (s : State) (g : Nat) (x : Group) : (s.setGroup g x).subTick = s.subTick := rfl
@[simp] theorem setGroup_modnum (s : State) (g : Nat) (x : Group) : (s.setGroup g x).modnum = s.modnum := rfl
@[simp] theorem setGroup_phys (s : State) (g : Nat) (x : Group) : (s.setGroup g x).phys = s.phys := rfl
@[simp] theorem setGroup_mem (s : State) (g : Nat) (x : Group) : (s.setGroup g x).mem = s.mem := rfl
@[simp] theorem setGroup_sectorPoison (s : State) (g : Nat) (x : Group) : (s.setGroup g x).sectorPoison = s.sectorPoison := rfl
@[simp] theorem setGroup_parPoison (s : State) (g : Nat) (x : Group) : (s.setGroup g x).parPoison = s.parPoison := rfl
@[simp] theorem setGroup_advTime (s : State) (g : Nat) (x : Group) : (s.setGroup g x).advTime = s.advTime := rfl
@[simp] theorem setGroup_mergeQ (s : State) (g : Nat) (x : Group) : (s.setGroup g x).mergeQ = s.mergeQ := rfl
@[simp] theorem setGroup_served (s : State) (g : Nat) (x : Group) : (s.setGroup g x).served = s.served := rfl
@[simp] theorem setGroup_lines (s : State) (g : Nat) (x : Group) : (s.setGroup g x).lines = s.lines := rfl
@[simp] theorem setGroup_tokReqs (s : State) (g : Nat) (x : Group) : (s.setGroup g x).tokReqs = s.tokReqs := rfl
@[simp] theorem setGroup_tlbs (s : State) (g : Nat) (x : Group) : (s.setGroup g x).tlbs = s.tlbs := rfl
@[simp] theorem setGroup_wcache (s : State) (g : Nat) (x : Group) : (s.setGroup g x).wcache = s.wcache := rfl
@[simp] theorem setGroup_waits (s : State) (g : Nat) (x : Group) : (s.setGroup g x).waits = s.waits := rfl
@[simp] theorem setGroup_faults (s : State) (g : Nat) (x : Group) : (s.setGroup g x).faults = s.faults := rfl
@[simp] theorem setGroup_token (s : State) (g : Nat) (x : Group) : (s.setGroup g x).token = s.token := rfl
@[simp] theorem setGroup_faultTail (s : State) (g : Nat) (x : Group) : (s.setGroup g x).faultTail = s.faultTail := rfl
@[simp] theorem setGroup_teams (s : State) (g : Nat) (x : Group) : (s.setGroup g x).teams = s.teams := rfl
@[simp] theorem setGroup_clusters (s : State) (g : Nat) (x : Group) : (s.setGroup g x).clusters = s.clusters := rfl
@[simp] theorem setGroup_launches (s : State) (g : Nat) (x : Group) : (s.setGroup g x).launches = s.launches := rfl
@[simp] theorem setGroup_ctxs (s : State) (g : Nat) (x : Group) : (s.setGroup g x).ctxs = s.ctxs := rfl
@[simp] theorem setGroup_cores (s : State) (g : Nat) (x : Group) : (s.setGroup g x).cores = s.cores := rfl
@[simp] theorem setGroup_host (s : State) (g : Nat) (x : Group) : (s.setGroup g x).host = s.host := rfl
@[simp] theorem setGroup_hostMem (s : State) (g : Nat) (x : Group) : (s.setGroup g x).hostMem = s.hostMem := rfl
@[simp] theorem setGroup_mwReply (s : State) (g : Nat) (x : Group) : (s.setGroup g x).mwReply = s.mwReply := rfl
@[simp] theorem setGroup_evbuf (s : State) (g : Nat) (x : Group) : (s.setGroup g x).evbuf = s.evbuf := rfl
@[simp] theorem setGroup_evLost (s : State) (g : Nat) (x : Group) : (s.setGroup g x).evLost = s.evLost := rfl
@[simp] theorem setGroup_msix (s : State) (g : Nat) (x : Group) : (s.setGroup g x).msix = s.msix := rfl
@[simp] theorem setGroup_modErrq (s : State) (g : Nat) (x : Group) : (s.setGroup g x).modErrq = s.modErrq := rfl
@[simp] theorem setGroup_errCounts (s : State) (g : Nat) (x : Group) : (s.setGroup g x).errCounts = s.errCounts := rfl
@[simp] theorem setGroup_corrTimes (s : State) (g : Nat) (x : Group) : (s.setGroup g x).corrTimes = s.corrTimes := rfl
@[simp] theorem setGroup_caps (s : State) (g : Nat) (x : Group) : (s.setGroup g x).caps = s.caps := rfl
@[simp] theorem setGroup_replays (s : State) (g : Nat) (x : Group) : (s.setGroup g x).replays = s.replays := rfl
@[simp] theorem setGroup_queues (s : State) (g : Nat) (x : Group) : (s.setGroup g x).queues = s.queues := rfl
@[simp] theorem setGroup_ctrs (s : State) (g : Nat) (x : Group) : (s.setGroup g x).ctrs = s.ctrs := rfl
@[simp] theorem setGroup_lastServed (s : State) (g : Nat) (x : Group) : (s.setGroup g x).lastServed = s.lastServed := rfl
@[simp] theorem setGroup_links (s : State) (g : Nat) (x : Group) : (s.setGroup g x).links = s.links := rfl
@[simp] theorem setGroup_routes (s : State) (g : Nat) (x : Group) : (s.setGroup g x).routes = s.routes := rfl
@[simp] theorem setGroup_withdrawn (s : State) (g : Nat) (x : Group) : (s.setGroup g x).withdrawn = s.withdrawn := rfl
@[simp] theorem setGroup_fwd (s : State) (g : Nat) (x : Group) : (s.setGroup g x).fwd = s.fwd := rfl
@[simp] theorem setGroup_fabric (s : State) (g : Nat) (x : Group) : (s.setGroup g x).fabric = s.fabric := rfl
@[simp] theorem setGroup_fabSeq (s : State) (g : Nat) (x : Group) : (s.setGroup g x).fabSeq = s.fabSeq := rfl
@[simp] theorem setGroup_kept (s : State) (g : Nat) (x : Group) : (s.setGroup g x).kept = s.kept := rfl
@[simp] theorem setGroup_lmap (s : State) (g : Nat) (x : Group) : (s.setGroup g x).lmap = s.lmap := rfl
@[simp] theorem setGroup_srefs (s : State) (g : Nat) (x : Group) : (s.setGroup g x).srefs = s.srefs := rfl
@[simp] theorem setGroup_retries (s : State) (g : Nat) (x : Group) : (s.setGroup g x).retries = s.retries := rfl
@[simp] theorem setGroup_chanFails (s : State) (g : Nat) (x : Group) : (s.setGroup g x).chanFails = s.chanFails := rfl
@[simp] theorem setGroup_chanLost (s : State) (g : Nat) (x : Group) : (s.setGroup g x).chanLost = s.chanLost := rfl
@[simp] theorem setGroup_scrubPos (s : State) (g : Nat) (x : Group) : (s.setGroup g x).scrubPos = s.scrubPos := rfl
@[simp] theorem setGroup_scrubBack (s : State) (g : Nat) (x : Group) : (s.setGroup g x).scrubBack = s.scrubBack := rfl
@[simp] theorem setGroup_splitDue (s : State) (g : Nat) (x : Group) : (s.setGroup g x).splitDue = s.splitDue := rfl
@[simp] theorem setGroup_stepDue (s : State) (g : Nat) (x : Group) : (s.setGroup g x).stepDue = s.stepDue := rfl
@[simp] theorem setGroup_bootErrs (s : State) (g : Nat) (x : Group) : (s.setGroup g x).bootErrs = s.bootErrs := rfl
@[simp] theorem setGroup_wbqs (s : State) (g : Nat) (x : Group) : (s.setGroup g x).wbqs = s.wbqs := rfl
@[simp] theorem setGroup_parity (s : State) (g : Nat) (x : Group) : (s.setGroup g x).parity = s.parity := rfl
@[simp] theorem setGroup_manifest (s : State) (g : Nat) (x : Group) : (s.setGroup g x).manifest = s.manifest := rfl
@[simp] theorem setGroup_records (s : State) (g : Nat) (x : Group) : (s.setGroup g x).records = s.records := rfl
@[simp] theorem setGroup_power (s : State) (g : Nat) (x : Group) : (s.setGroup g x).power = s.power := rfl
@[simp] theorem setGroup_stepGroups (s : State) (g : Nat) (x : Group) : (s.setGroup g x).stepGroups = s.stepGroups := rfl
@[simp] theorem setGroup_etches (s : State) (g : Nat) (x : Group) : (s.setGroup g x).etches = s.etches := rfl
@[simp] theorem setGroup_recov (s : State) (g : Nat) (x : Group) : (s.setGroup g x).recov = s.recov := rfl
@[simp] theorem setGroup_resyncSeq (s : State) (g : Nat) (x : Group) : (s.setGroup g x).resyncSeq = s.resyncSeq := rfl

/-! ### `modGroup` -/

@[simp] theorem modGroup_agenda (s : State) (g : Nat) (f : Group → Group) : (s.modGroup g f).agenda = s.agenda := by
  unfold State.modGroup; split <;> rfl
@[simp] theorem modGroup_issued (s : State) (g : Nat) (f : Group → Group) : (s.modGroup g f).issued = s.issued := by
  unfold State.modGroup; split <;> rfl
@[simp] theorem modGroup_cur (s : State) (g : Nat) (f : Group → Group) : (s.modGroup g f).cur = s.cur := by
  unfold State.modGroup; split <;> rfl
@[simp] theorem modGroup_freeCtr (s : State) (g : Nat) (f : Group → Group) : (s.modGroup g f).freeCtr = s.freeCtr := by
  unfold State.modGroup; split <;> rfl
@[simp] theorem modGroup_nextId (s : State) (g : Nat) (f : Group → Group) : (s.modGroup g f).nextId = s.nextId := by
  unfold State.modGroup; split <;> rfl
@[simp] theorem modGroup_cycle (s : State) (g : Nat) (f : Group → Group) : (s.modGroup g f).cycle = s.cycle := by
  unfold State.modGroup; split <;> rfl
@[simp] theorem modGroup_timebase (s : State) (g : Nat) (f : Group → Group) : (s.modGroup g f).timebase = s.timebase := by
  unfold State.modGroup; split <;> rfl
@[simp] theorem modGroup_subTick (s : State) (g : Nat) (f : Group → Group) : (s.modGroup g f).subTick = s.subTick := by
  unfold State.modGroup; split <;> rfl
@[simp] theorem modGroup_modnum (s : State) (g : Nat) (f : Group → Group) : (s.modGroup g f).modnum = s.modnum := by
  unfold State.modGroup; split <;> rfl
@[simp] theorem modGroup_phys (s : State) (g : Nat) (f : Group → Group) : (s.modGroup g f).phys = s.phys := by
  unfold State.modGroup; split <;> rfl
@[simp] theorem modGroup_mem (s : State) (g : Nat) (f : Group → Group) : (s.modGroup g f).mem = s.mem := by
  unfold State.modGroup; split <;> rfl
@[simp] theorem modGroup_sectorPoison (s : State) (g : Nat) (f : Group → Group) : (s.modGroup g f).sectorPoison = s.sectorPoison := by
  unfold State.modGroup; split <;> rfl
@[simp] theorem modGroup_parPoison (s : State) (g : Nat) (f : Group → Group) : (s.modGroup g f).parPoison = s.parPoison := by
  unfold State.modGroup; split <;> rfl
@[simp] theorem modGroup_advTime (s : State) (g : Nat) (f : Group → Group) : (s.modGroup g f).advTime = s.advTime := by
  unfold State.modGroup; split <;> rfl
@[simp] theorem modGroup_mergeQ (s : State) (g : Nat) (f : Group → Group) : (s.modGroup g f).mergeQ = s.mergeQ := by
  unfold State.modGroup; split <;> rfl
@[simp] theorem modGroup_served (s : State) (g : Nat) (f : Group → Group) : (s.modGroup g f).served = s.served := by
  unfold State.modGroup; split <;> rfl
@[simp] theorem modGroup_lines (s : State) (g : Nat) (f : Group → Group) : (s.modGroup g f).lines = s.lines := by
  unfold State.modGroup; split <;> rfl
@[simp] theorem modGroup_tokReqs (s : State) (g : Nat) (f : Group → Group) : (s.modGroup g f).tokReqs = s.tokReqs := by
  unfold State.modGroup; split <;> rfl
@[simp] theorem modGroup_tlbs (s : State) (g : Nat) (f : Group → Group) : (s.modGroup g f).tlbs = s.tlbs := by
  unfold State.modGroup; split <;> rfl
@[simp] theorem modGroup_wcache (s : State) (g : Nat) (f : Group → Group) : (s.modGroup g f).wcache = s.wcache := by
  unfold State.modGroup; split <;> rfl
@[simp] theorem modGroup_waits (s : State) (g : Nat) (f : Group → Group) : (s.modGroup g f).waits = s.waits := by
  unfold State.modGroup; split <;> rfl
@[simp] theorem modGroup_faults (s : State) (g : Nat) (f : Group → Group) : (s.modGroup g f).faults = s.faults := by
  unfold State.modGroup; split <;> rfl
@[simp] theorem modGroup_token (s : State) (g : Nat) (f : Group → Group) : (s.modGroup g f).token = s.token := by
  unfold State.modGroup; split <;> rfl
@[simp] theorem modGroup_faultTail (s : State) (g : Nat) (f : Group → Group) : (s.modGroup g f).faultTail = s.faultTail := by
  unfold State.modGroup; split <;> rfl
@[simp] theorem modGroup_teams (s : State) (g : Nat) (f : Group → Group) : (s.modGroup g f).teams = s.teams := by
  unfold State.modGroup; split <;> rfl
@[simp] theorem modGroup_clusters (s : State) (g : Nat) (f : Group → Group) : (s.modGroup g f).clusters = s.clusters := by
  unfold State.modGroup; split <;> rfl
@[simp] theorem modGroup_launches (s : State) (g : Nat) (f : Group → Group) : (s.modGroup g f).launches = s.launches := by
  unfold State.modGroup; split <;> rfl
@[simp] theorem modGroup_ctxs (s : State) (g : Nat) (f : Group → Group) : (s.modGroup g f).ctxs = s.ctxs := by
  unfold State.modGroup; split <;> rfl
@[simp] theorem modGroup_cores (s : State) (g : Nat) (f : Group → Group) : (s.modGroup g f).cores = s.cores := by
  unfold State.modGroup; split <;> rfl
@[simp] theorem modGroup_host (s : State) (g : Nat) (f : Group → Group) : (s.modGroup g f).host = s.host := by
  unfold State.modGroup; split <;> rfl
@[simp] theorem modGroup_hostMem (s : State) (g : Nat) (f : Group → Group) : (s.modGroup g f).hostMem = s.hostMem := by
  unfold State.modGroup; split <;> rfl
@[simp] theorem modGroup_mwReply (s : State) (g : Nat) (f : Group → Group) : (s.modGroup g f).mwReply = s.mwReply := by
  unfold State.modGroup; split <;> rfl
@[simp] theorem modGroup_evbuf (s : State) (g : Nat) (f : Group → Group) : (s.modGroup g f).evbuf = s.evbuf := by
  unfold State.modGroup; split <;> rfl
@[simp] theorem modGroup_evLost (s : State) (g : Nat) (f : Group → Group) : (s.modGroup g f).evLost = s.evLost := by
  unfold State.modGroup; split <;> rfl
@[simp] theorem modGroup_msix (s : State) (g : Nat) (f : Group → Group) : (s.modGroup g f).msix = s.msix := by
  unfold State.modGroup; split <;> rfl
@[simp] theorem modGroup_modErrq (s : State) (g : Nat) (f : Group → Group) : (s.modGroup g f).modErrq = s.modErrq := by
  unfold State.modGroup; split <;> rfl
@[simp] theorem modGroup_errCounts (s : State) (g : Nat) (f : Group → Group) : (s.modGroup g f).errCounts = s.errCounts := by
  unfold State.modGroup; split <;> rfl
@[simp] theorem modGroup_corrTimes (s : State) (g : Nat) (f : Group → Group) : (s.modGroup g f).corrTimes = s.corrTimes := by
  unfold State.modGroup; split <;> rfl
@[simp] theorem modGroup_caps (s : State) (g : Nat) (f : Group → Group) : (s.modGroup g f).caps = s.caps := by
  unfold State.modGroup; split <;> rfl
@[simp] theorem modGroup_replays (s : State) (g : Nat) (f : Group → Group) : (s.modGroup g f).replays = s.replays := by
  unfold State.modGroup; split <;> rfl
@[simp] theorem modGroup_queues (s : State) (g : Nat) (f : Group → Group) : (s.modGroup g f).queues = s.queues := by
  unfold State.modGroup; split <;> rfl
@[simp] theorem modGroup_ctrs (s : State) (g : Nat) (f : Group → Group) : (s.modGroup g f).ctrs = s.ctrs := by
  unfold State.modGroup; split <;> rfl
@[simp] theorem modGroup_lastServed (s : State) (g : Nat) (f : Group → Group) : (s.modGroup g f).lastServed = s.lastServed := by
  unfold State.modGroup; split <;> rfl
@[simp] theorem modGroup_links (s : State) (g : Nat) (f : Group → Group) : (s.modGroup g f).links = s.links := by
  unfold State.modGroup; split <;> rfl
@[simp] theorem modGroup_routes (s : State) (g : Nat) (f : Group → Group) : (s.modGroup g f).routes = s.routes := by
  unfold State.modGroup; split <;> rfl
@[simp] theorem modGroup_withdrawn (s : State) (g : Nat) (f : Group → Group) : (s.modGroup g f).withdrawn = s.withdrawn := by
  unfold State.modGroup; split <;> rfl
@[simp] theorem modGroup_fwd (s : State) (g : Nat) (f : Group → Group) : (s.modGroup g f).fwd = s.fwd := by
  unfold State.modGroup; split <;> rfl
@[simp] theorem modGroup_fabric (s : State) (g : Nat) (f : Group → Group) : (s.modGroup g f).fabric = s.fabric := by
  unfold State.modGroup; split <;> rfl
@[simp] theorem modGroup_fabSeq (s : State) (g : Nat) (f : Group → Group) : (s.modGroup g f).fabSeq = s.fabSeq := by
  unfold State.modGroup; split <;> rfl
@[simp] theorem modGroup_kept (s : State) (g : Nat) (f : Group → Group) : (s.modGroup g f).kept = s.kept := by
  unfold State.modGroup; split <;> rfl
@[simp] theorem modGroup_lmap (s : State) (g : Nat) (f : Group → Group) : (s.modGroup g f).lmap = s.lmap := by
  unfold State.modGroup; split <;> rfl
@[simp] theorem modGroup_srefs (s : State) (g : Nat) (f : Group → Group) : (s.modGroup g f).srefs = s.srefs := by
  unfold State.modGroup; split <;> rfl
@[simp] theorem modGroup_retries (s : State) (g : Nat) (f : Group → Group) : (s.modGroup g f).retries = s.retries := by
  unfold State.modGroup; split <;> rfl
@[simp] theorem modGroup_chanFails (s : State) (g : Nat) (f : Group → Group) : (s.modGroup g f).chanFails = s.chanFails := by
  unfold State.modGroup; split <;> rfl
@[simp] theorem modGroup_chanLost (s : State) (g : Nat) (f : Group → Group) : (s.modGroup g f).chanLost = s.chanLost := by
  unfold State.modGroup; split <;> rfl
@[simp] theorem modGroup_scrubPos (s : State) (g : Nat) (f : Group → Group) : (s.modGroup g f).scrubPos = s.scrubPos := by
  unfold State.modGroup; split <;> rfl
@[simp] theorem modGroup_scrubBack (s : State) (g : Nat) (f : Group → Group) : (s.modGroup g f).scrubBack = s.scrubBack := by
  unfold State.modGroup; split <;> rfl
@[simp] theorem modGroup_splitDue (s : State) (g : Nat) (f : Group → Group) : (s.modGroup g f).splitDue = s.splitDue := by
  unfold State.modGroup; split <;> rfl
@[simp] theorem modGroup_stepDue (s : State) (g : Nat) (f : Group → Group) : (s.modGroup g f).stepDue = s.stepDue := by
  unfold State.modGroup; split <;> rfl
@[simp] theorem modGroup_bootErrs (s : State) (g : Nat) (f : Group → Group) : (s.modGroup g f).bootErrs = s.bootErrs := by
  unfold State.modGroup; split <;> rfl
@[simp] theorem modGroup_wbqs (s : State) (g : Nat) (f : Group → Group) : (s.modGroup g f).wbqs = s.wbqs := by
  unfold State.modGroup; split <;> rfl
@[simp] theorem modGroup_parity (s : State) (g : Nat) (f : Group → Group) : (s.modGroup g f).parity = s.parity := by
  unfold State.modGroup; split <;> rfl
@[simp] theorem modGroup_manifest (s : State) (g : Nat) (f : Group → Group) : (s.modGroup g f).manifest = s.manifest := by
  unfold State.modGroup; split <;> rfl
@[simp] theorem modGroup_records (s : State) (g : Nat) (f : Group → Group) : (s.modGroup g f).records = s.records := by
  unfold State.modGroup; split <;> rfl
@[simp] theorem modGroup_power (s : State) (g : Nat) (f : Group → Group) : (s.modGroup g f).power = s.power := by
  unfold State.modGroup; split <;> rfl
@[simp] theorem modGroup_stepGroups (s : State) (g : Nat) (f : Group → Group) : (s.modGroup g f).stepGroups = s.stepGroups := by
  unfold State.modGroup; split <;> rfl
@[simp] theorem modGroup_etches (s : State) (g : Nat) (f : Group → Group) : (s.modGroup g f).etches = s.etches := by
  unfold State.modGroup; split <;> rfl
@[simp] theorem modGroup_recov (s : State) (g : Nat) (f : Group → Group) : (s.modGroup g f).recov = s.recov := by
  unfold State.modGroup; split <;> rfl
@[simp] theorem modGroup_resyncSeq (s : State) (g : Nat) (f : Group → Group) : (s.modGroup g f).resyncSeq = s.resyncSeq := by
  unfold State.modGroup; split <;> rfl

/-! ### `setTeam` -/

@[simp] theorem setTeam_agenda (s : State) (t : Nat) (x : Team) : (s.setTeam t x).agenda = s.agenda := rfl
@[simp] theorem setTeam_issued (s : State) (t : Nat) (x : Team) : (s.setTeam t x).issued = s.issued := rfl
@[simp] theorem setTeam_cur (s : State) (t : Nat) (x : Team) : (s.setTeam t x).cur = s.cur := rfl
@[simp] theorem setTeam_freeCtr (s : State) (t : Nat) (x : Team) : (s.setTeam t x).freeCtr = s.freeCtr := rfl
@[simp] theorem setTeam_nextId (s : State) (t : Nat) (x : Team) : (s.setTeam t x).nextId = s.nextId := rfl
@[simp] theorem setTeam_cycle (s : State) (t : Nat) (x : Team) : (s.setTeam t x).cycle = s.cycle := rfl
@[simp] theorem setTeam_timebase (s : State) (t : Nat) (x : Team) : (s.setTeam t x).timebase = s.timebase := rfl
@[simp] theorem setTeam_subTick (s : State) (t : Nat) (x : Team) : (s.setTeam t x).subTick = s.subTick := rfl
@[simp] theorem setTeam_modnum (s : State) (t : Nat) (x : Team) : (s.setTeam t x).modnum = s.modnum := rfl
@[simp] theorem setTeam_phys (s : State) (t : Nat) (x : Team) : (s.setTeam t x).phys = s.phys := rfl
@[simp] theorem setTeam_mem (s : State) (t : Nat) (x : Team) : (s.setTeam t x).mem = s.mem := rfl
@[simp] theorem setTeam_sectorPoison (s : State) (t : Nat) (x : Team) : (s.setTeam t x).sectorPoison = s.sectorPoison := rfl
@[simp] theorem setTeam_parPoison (s : State) (t : Nat) (x : Team) : (s.setTeam t x).parPoison = s.parPoison := rfl
@[simp] theorem setTeam_advTime (s : State) (t : Nat) (x : Team) : (s.setTeam t x).advTime = s.advTime := rfl
@[simp] theorem setTeam_mergeQ (s : State) (t : Nat) (x : Team) : (s.setTeam t x).mergeQ = s.mergeQ := rfl
@[simp] theorem setTeam_served (s : State) (t : Nat) (x : Team) : (s.setTeam t x).served = s.served := rfl
@[simp] theorem setTeam_lines (s : State) (t : Nat) (x : Team) : (s.setTeam t x).lines = s.lines := rfl
@[simp] theorem setTeam_tokReqs (s : State) (t : Nat) (x : Team) : (s.setTeam t x).tokReqs = s.tokReqs := rfl
@[simp] theorem setTeam_tlbs (s : State) (t : Nat) (x : Team) : (s.setTeam t x).tlbs = s.tlbs := rfl
@[simp] theorem setTeam_wcache (s : State) (t : Nat) (x : Team) : (s.setTeam t x).wcache = s.wcache := rfl
@[simp] theorem setTeam_waits (s : State) (t : Nat) (x : Team) : (s.setTeam t x).waits = s.waits := rfl
@[simp] theorem setTeam_faults (s : State) (t : Nat) (x : Team) : (s.setTeam t x).faults = s.faults := rfl
@[simp] theorem setTeam_token (s : State) (t : Nat) (x : Team) : (s.setTeam t x).token = s.token := rfl
@[simp] theorem setTeam_faultTail (s : State) (t : Nat) (x : Team) : (s.setTeam t x).faultTail = s.faultTail := rfl
@[simp] theorem setTeam_groups (s : State) (t : Nat) (x : Team) : (s.setTeam t x).groups = s.groups := rfl
@[simp] theorem setTeam_clusters (s : State) (t : Nat) (x : Team) : (s.setTeam t x).clusters = s.clusters := rfl
@[simp] theorem setTeam_launches (s : State) (t : Nat) (x : Team) : (s.setTeam t x).launches = s.launches := rfl
@[simp] theorem setTeam_ctxs (s : State) (t : Nat) (x : Team) : (s.setTeam t x).ctxs = s.ctxs := rfl
@[simp] theorem setTeam_cores (s : State) (t : Nat) (x : Team) : (s.setTeam t x).cores = s.cores := rfl
@[simp] theorem setTeam_host (s : State) (t : Nat) (x : Team) : (s.setTeam t x).host = s.host := rfl
@[simp] theorem setTeam_hostMem (s : State) (t : Nat) (x : Team) : (s.setTeam t x).hostMem = s.hostMem := rfl
@[simp] theorem setTeam_mwReply (s : State) (t : Nat) (x : Team) : (s.setTeam t x).mwReply = s.mwReply := rfl
@[simp] theorem setTeam_evbuf (s : State) (t : Nat) (x : Team) : (s.setTeam t x).evbuf = s.evbuf := rfl
@[simp] theorem setTeam_evLost (s : State) (t : Nat) (x : Team) : (s.setTeam t x).evLost = s.evLost := rfl
@[simp] theorem setTeam_msix (s : State) (t : Nat) (x : Team) : (s.setTeam t x).msix = s.msix := rfl
@[simp] theorem setTeam_modErrq (s : State) (t : Nat) (x : Team) : (s.setTeam t x).modErrq = s.modErrq := rfl
@[simp] theorem setTeam_errCounts (s : State) (t : Nat) (x : Team) : (s.setTeam t x).errCounts = s.errCounts := rfl
@[simp] theorem setTeam_corrTimes (s : State) (t : Nat) (x : Team) : (s.setTeam t x).corrTimes = s.corrTimes := rfl
@[simp] theorem setTeam_caps (s : State) (t : Nat) (x : Team) : (s.setTeam t x).caps = s.caps := rfl
@[simp] theorem setTeam_replays (s : State) (t : Nat) (x : Team) : (s.setTeam t x).replays = s.replays := rfl
@[simp] theorem setTeam_queues (s : State) (t : Nat) (x : Team) : (s.setTeam t x).queues = s.queues := rfl
@[simp] theorem setTeam_ctrs (s : State) (t : Nat) (x : Team) : (s.setTeam t x).ctrs = s.ctrs := rfl
@[simp] theorem setTeam_lastServed (s : State) (t : Nat) (x : Team) : (s.setTeam t x).lastServed = s.lastServed := rfl
@[simp] theorem setTeam_links (s : State) (t : Nat) (x : Team) : (s.setTeam t x).links = s.links := rfl
@[simp] theorem setTeam_routes (s : State) (t : Nat) (x : Team) : (s.setTeam t x).routes = s.routes := rfl
@[simp] theorem setTeam_withdrawn (s : State) (t : Nat) (x : Team) : (s.setTeam t x).withdrawn = s.withdrawn := rfl
@[simp] theorem setTeam_fwd (s : State) (t : Nat) (x : Team) : (s.setTeam t x).fwd = s.fwd := rfl
@[simp] theorem setTeam_fabric (s : State) (t : Nat) (x : Team) : (s.setTeam t x).fabric = s.fabric := rfl
@[simp] theorem setTeam_fabSeq (s : State) (t : Nat) (x : Team) : (s.setTeam t x).fabSeq = s.fabSeq := rfl
@[simp] theorem setTeam_kept (s : State) (t : Nat) (x : Team) : (s.setTeam t x).kept = s.kept := rfl
@[simp] theorem setTeam_lmap (s : State) (t : Nat) (x : Team) : (s.setTeam t x).lmap = s.lmap := rfl
@[simp] theorem setTeam_srefs (s : State) (t : Nat) (x : Team) : (s.setTeam t x).srefs = s.srefs := rfl
@[simp] theorem setTeam_retries (s : State) (t : Nat) (x : Team) : (s.setTeam t x).retries = s.retries := rfl
@[simp] theorem setTeam_chanFails (s : State) (t : Nat) (x : Team) : (s.setTeam t x).chanFails = s.chanFails := rfl
@[simp] theorem setTeam_chanLost (s : State) (t : Nat) (x : Team) : (s.setTeam t x).chanLost = s.chanLost := rfl
@[simp] theorem setTeam_scrubPos (s : State) (t : Nat) (x : Team) : (s.setTeam t x).scrubPos = s.scrubPos := rfl
@[simp] theorem setTeam_scrubBack (s : State) (t : Nat) (x : Team) : (s.setTeam t x).scrubBack = s.scrubBack := rfl
@[simp] theorem setTeam_splitDue (s : State) (t : Nat) (x : Team) : (s.setTeam t x).splitDue = s.splitDue := rfl
@[simp] theorem setTeam_stepDue (s : State) (t : Nat) (x : Team) : (s.setTeam t x).stepDue = s.stepDue := rfl
@[simp] theorem setTeam_bootErrs (s : State) (t : Nat) (x : Team) : (s.setTeam t x).bootErrs = s.bootErrs := rfl
@[simp] theorem setTeam_wbqs (s : State) (t : Nat) (x : Team) : (s.setTeam t x).wbqs = s.wbqs := rfl
@[simp] theorem setTeam_parity (s : State) (t : Nat) (x : Team) : (s.setTeam t x).parity = s.parity := rfl
@[simp] theorem setTeam_manifest (s : State) (t : Nat) (x : Team) : (s.setTeam t x).manifest = s.manifest := rfl
@[simp] theorem setTeam_records (s : State) (t : Nat) (x : Team) : (s.setTeam t x).records = s.records := rfl
@[simp] theorem setTeam_power (s : State) (t : Nat) (x : Team) : (s.setTeam t x).power = s.power := rfl
@[simp] theorem setTeam_stepGroups (s : State) (t : Nat) (x : Team) : (s.setTeam t x).stepGroups = s.stepGroups := rfl
@[simp] theorem setTeam_etches (s : State) (t : Nat) (x : Team) : (s.setTeam t x).etches = s.etches := rfl
@[simp] theorem setTeam_recov (s : State) (t : Nat) (x : Team) : (s.setTeam t x).recov = s.recov := rfl
@[simp] theorem setTeam_resyncSeq (s : State) (t : Nat) (x : Team) : (s.setTeam t x).resyncSeq = s.resyncSeq := rfl

/-! ### `modTeam` -/

@[simp] theorem modTeam_agenda (s : State) (t : Nat) (f : Team → Team) : (s.modTeam t f).agenda = s.agenda := by
  unfold State.modTeam; split <;> rfl
@[simp] theorem modTeam_issued (s : State) (t : Nat) (f : Team → Team) : (s.modTeam t f).issued = s.issued := by
  unfold State.modTeam; split <;> rfl
@[simp] theorem modTeam_cur (s : State) (t : Nat) (f : Team → Team) : (s.modTeam t f).cur = s.cur := by
  unfold State.modTeam; split <;> rfl
@[simp] theorem modTeam_freeCtr (s : State) (t : Nat) (f : Team → Team) : (s.modTeam t f).freeCtr = s.freeCtr := by
  unfold State.modTeam; split <;> rfl
@[simp] theorem modTeam_nextId (s : State) (t : Nat) (f : Team → Team) : (s.modTeam t f).nextId = s.nextId := by
  unfold State.modTeam; split <;> rfl
@[simp] theorem modTeam_cycle (s : State) (t : Nat) (f : Team → Team) : (s.modTeam t f).cycle = s.cycle := by
  unfold State.modTeam; split <;> rfl
@[simp] theorem modTeam_timebase (s : State) (t : Nat) (f : Team → Team) : (s.modTeam t f).timebase = s.timebase := by
  unfold State.modTeam; split <;> rfl
@[simp] theorem modTeam_subTick (s : State) (t : Nat) (f : Team → Team) : (s.modTeam t f).subTick = s.subTick := by
  unfold State.modTeam; split <;> rfl
@[simp] theorem modTeam_modnum (s : State) (t : Nat) (f : Team → Team) : (s.modTeam t f).modnum = s.modnum := by
  unfold State.modTeam; split <;> rfl
@[simp] theorem modTeam_phys (s : State) (t : Nat) (f : Team → Team) : (s.modTeam t f).phys = s.phys := by
  unfold State.modTeam; split <;> rfl
@[simp] theorem modTeam_mem (s : State) (t : Nat) (f : Team → Team) : (s.modTeam t f).mem = s.mem := by
  unfold State.modTeam; split <;> rfl
@[simp] theorem modTeam_sectorPoison (s : State) (t : Nat) (f : Team → Team) : (s.modTeam t f).sectorPoison = s.sectorPoison := by
  unfold State.modTeam; split <;> rfl
@[simp] theorem modTeam_parPoison (s : State) (t : Nat) (f : Team → Team) : (s.modTeam t f).parPoison = s.parPoison := by
  unfold State.modTeam; split <;> rfl
@[simp] theorem modTeam_advTime (s : State) (t : Nat) (f : Team → Team) : (s.modTeam t f).advTime = s.advTime := by
  unfold State.modTeam; split <;> rfl
@[simp] theorem modTeam_mergeQ (s : State) (t : Nat) (f : Team → Team) : (s.modTeam t f).mergeQ = s.mergeQ := by
  unfold State.modTeam; split <;> rfl
@[simp] theorem modTeam_served (s : State) (t : Nat) (f : Team → Team) : (s.modTeam t f).served = s.served := by
  unfold State.modTeam; split <;> rfl
@[simp] theorem modTeam_lines (s : State) (t : Nat) (f : Team → Team) : (s.modTeam t f).lines = s.lines := by
  unfold State.modTeam; split <;> rfl
@[simp] theorem modTeam_tokReqs (s : State) (t : Nat) (f : Team → Team) : (s.modTeam t f).tokReqs = s.tokReqs := by
  unfold State.modTeam; split <;> rfl
@[simp] theorem modTeam_tlbs (s : State) (t : Nat) (f : Team → Team) : (s.modTeam t f).tlbs = s.tlbs := by
  unfold State.modTeam; split <;> rfl
@[simp] theorem modTeam_wcache (s : State) (t : Nat) (f : Team → Team) : (s.modTeam t f).wcache = s.wcache := by
  unfold State.modTeam; split <;> rfl
@[simp] theorem modTeam_waits (s : State) (t : Nat) (f : Team → Team) : (s.modTeam t f).waits = s.waits := by
  unfold State.modTeam; split <;> rfl
@[simp] theorem modTeam_faults (s : State) (t : Nat) (f : Team → Team) : (s.modTeam t f).faults = s.faults := by
  unfold State.modTeam; split <;> rfl
@[simp] theorem modTeam_token (s : State) (t : Nat) (f : Team → Team) : (s.modTeam t f).token = s.token := by
  unfold State.modTeam; split <;> rfl
@[simp] theorem modTeam_faultTail (s : State) (t : Nat) (f : Team → Team) : (s.modTeam t f).faultTail = s.faultTail := by
  unfold State.modTeam; split <;> rfl
@[simp] theorem modTeam_groups (s : State) (t : Nat) (f : Team → Team) : (s.modTeam t f).groups = s.groups := by
  unfold State.modTeam; split <;> rfl
@[simp] theorem modTeam_clusters (s : State) (t : Nat) (f : Team → Team) : (s.modTeam t f).clusters = s.clusters := by
  unfold State.modTeam; split <;> rfl
@[simp] theorem modTeam_launches (s : State) (t : Nat) (f : Team → Team) : (s.modTeam t f).launches = s.launches := by
  unfold State.modTeam; split <;> rfl
@[simp] theorem modTeam_ctxs (s : State) (t : Nat) (f : Team → Team) : (s.modTeam t f).ctxs = s.ctxs := by
  unfold State.modTeam; split <;> rfl
@[simp] theorem modTeam_cores (s : State) (t : Nat) (f : Team → Team) : (s.modTeam t f).cores = s.cores := by
  unfold State.modTeam; split <;> rfl
@[simp] theorem modTeam_host (s : State) (t : Nat) (f : Team → Team) : (s.modTeam t f).host = s.host := by
  unfold State.modTeam; split <;> rfl
@[simp] theorem modTeam_hostMem (s : State) (t : Nat) (f : Team → Team) : (s.modTeam t f).hostMem = s.hostMem := by
  unfold State.modTeam; split <;> rfl
@[simp] theorem modTeam_mwReply (s : State) (t : Nat) (f : Team → Team) : (s.modTeam t f).mwReply = s.mwReply := by
  unfold State.modTeam; split <;> rfl
@[simp] theorem modTeam_evbuf (s : State) (t : Nat) (f : Team → Team) : (s.modTeam t f).evbuf = s.evbuf := by
  unfold State.modTeam; split <;> rfl
@[simp] theorem modTeam_evLost (s : State) (t : Nat) (f : Team → Team) : (s.modTeam t f).evLost = s.evLost := by
  unfold State.modTeam; split <;> rfl
@[simp] theorem modTeam_msix (s : State) (t : Nat) (f : Team → Team) : (s.modTeam t f).msix = s.msix := by
  unfold State.modTeam; split <;> rfl
@[simp] theorem modTeam_modErrq (s : State) (t : Nat) (f : Team → Team) : (s.modTeam t f).modErrq = s.modErrq := by
  unfold State.modTeam; split <;> rfl
@[simp] theorem modTeam_errCounts (s : State) (t : Nat) (f : Team → Team) : (s.modTeam t f).errCounts = s.errCounts := by
  unfold State.modTeam; split <;> rfl
@[simp] theorem modTeam_corrTimes (s : State) (t : Nat) (f : Team → Team) : (s.modTeam t f).corrTimes = s.corrTimes := by
  unfold State.modTeam; split <;> rfl
@[simp] theorem modTeam_caps (s : State) (t : Nat) (f : Team → Team) : (s.modTeam t f).caps = s.caps := by
  unfold State.modTeam; split <;> rfl
@[simp] theorem modTeam_replays (s : State) (t : Nat) (f : Team → Team) : (s.modTeam t f).replays = s.replays := by
  unfold State.modTeam; split <;> rfl
@[simp] theorem modTeam_queues (s : State) (t : Nat) (f : Team → Team) : (s.modTeam t f).queues = s.queues := by
  unfold State.modTeam; split <;> rfl
@[simp] theorem modTeam_ctrs (s : State) (t : Nat) (f : Team → Team) : (s.modTeam t f).ctrs = s.ctrs := by
  unfold State.modTeam; split <;> rfl
@[simp] theorem modTeam_lastServed (s : State) (t : Nat) (f : Team → Team) : (s.modTeam t f).lastServed = s.lastServed := by
  unfold State.modTeam; split <;> rfl
@[simp] theorem modTeam_links (s : State) (t : Nat) (f : Team → Team) : (s.modTeam t f).links = s.links := by
  unfold State.modTeam; split <;> rfl
@[simp] theorem modTeam_routes (s : State) (t : Nat) (f : Team → Team) : (s.modTeam t f).routes = s.routes := by
  unfold State.modTeam; split <;> rfl
@[simp] theorem modTeam_withdrawn (s : State) (t : Nat) (f : Team → Team) : (s.modTeam t f).withdrawn = s.withdrawn := by
  unfold State.modTeam; split <;> rfl
@[simp] theorem modTeam_fwd (s : State) (t : Nat) (f : Team → Team) : (s.modTeam t f).fwd = s.fwd := by
  unfold State.modTeam; split <;> rfl
@[simp] theorem modTeam_fabric (s : State) (t : Nat) (f : Team → Team) : (s.modTeam t f).fabric = s.fabric := by
  unfold State.modTeam; split <;> rfl
@[simp] theorem modTeam_fabSeq (s : State) (t : Nat) (f : Team → Team) : (s.modTeam t f).fabSeq = s.fabSeq := by
  unfold State.modTeam; split <;> rfl
@[simp] theorem modTeam_kept (s : State) (t : Nat) (f : Team → Team) : (s.modTeam t f).kept = s.kept := by
  unfold State.modTeam; split <;> rfl
@[simp] theorem modTeam_lmap (s : State) (t : Nat) (f : Team → Team) : (s.modTeam t f).lmap = s.lmap := by
  unfold State.modTeam; split <;> rfl
@[simp] theorem modTeam_srefs (s : State) (t : Nat) (f : Team → Team) : (s.modTeam t f).srefs = s.srefs := by
  unfold State.modTeam; split <;> rfl
@[simp] theorem modTeam_retries (s : State) (t : Nat) (f : Team → Team) : (s.modTeam t f).retries = s.retries := by
  unfold State.modTeam; split <;> rfl
@[simp] theorem modTeam_chanFails (s : State) (t : Nat) (f : Team → Team) : (s.modTeam t f).chanFails = s.chanFails := by
  unfold State.modTeam; split <;> rfl
@[simp] theorem modTeam_chanLost (s : State) (t : Nat) (f : Team → Team) : (s.modTeam t f).chanLost = s.chanLost := by
  unfold State.modTeam; split <;> rfl
@[simp] theorem modTeam_scrubPos (s : State) (t : Nat) (f : Team → Team) : (s.modTeam t f).scrubPos = s.scrubPos := by
  unfold State.modTeam; split <;> rfl
@[simp] theorem modTeam_scrubBack (s : State) (t : Nat) (f : Team → Team) : (s.modTeam t f).scrubBack = s.scrubBack := by
  unfold State.modTeam; split <;> rfl
@[simp] theorem modTeam_splitDue (s : State) (t : Nat) (f : Team → Team) : (s.modTeam t f).splitDue = s.splitDue := by
  unfold State.modTeam; split <;> rfl
@[simp] theorem modTeam_stepDue (s : State) (t : Nat) (f : Team → Team) : (s.modTeam t f).stepDue = s.stepDue := by
  unfold State.modTeam; split <;> rfl
@[simp] theorem modTeam_bootErrs (s : State) (t : Nat) (f : Team → Team) : (s.modTeam t f).bootErrs = s.bootErrs := by
  unfold State.modTeam; split <;> rfl
@[simp] theorem modTeam_wbqs (s : State) (t : Nat) (f : Team → Team) : (s.modTeam t f).wbqs = s.wbqs := by
  unfold State.modTeam; split <;> rfl
@[simp] theorem modTeam_parity (s : State) (t : Nat) (f : Team → Team) : (s.modTeam t f).parity = s.parity := by
  unfold State.modTeam; split <;> rfl
@[simp] theorem modTeam_manifest (s : State) (t : Nat) (f : Team → Team) : (s.modTeam t f).manifest = s.manifest := by
  unfold State.modTeam; split <;> rfl
@[simp] theorem modTeam_records (s : State) (t : Nat) (f : Team → Team) : (s.modTeam t f).records = s.records := by
  unfold State.modTeam; split <;> rfl
@[simp] theorem modTeam_power (s : State) (t : Nat) (f : Team → Team) : (s.modTeam t f).power = s.power := by
  unfold State.modTeam; split <;> rfl
@[simp] theorem modTeam_stepGroups (s : State) (t : Nat) (f : Team → Team) : (s.modTeam t f).stepGroups = s.stepGroups := by
  unfold State.modTeam; split <;> rfl
@[simp] theorem modTeam_etches (s : State) (t : Nat) (f : Team → Team) : (s.modTeam t f).etches = s.etches := by
  unfold State.modTeam; split <;> rfl
@[simp] theorem modTeam_recov (s : State) (t : Nat) (f : Team → Team) : (s.modTeam t f).recov = s.recov := by
  unfold State.modTeam; split <;> rfl
@[simp] theorem modTeam_resyncSeq (s : State) (t : Nat) (f : Team → Team) : (s.modTeam t f).resyncSeq = s.resyncSeq := by
  unfold State.modTeam; split <;> rfl

/-! ### `setCtx` -/

@[simp] theorem setCtx_agenda (s : State) (c : Nat) (x : Ctx) : (s.setCtx c x).agenda = s.agenda := rfl
@[simp] theorem setCtx_issued (s : State) (c : Nat) (x : Ctx) : (s.setCtx c x).issued = s.issued := rfl
@[simp] theorem setCtx_cur (s : State) (c : Nat) (x : Ctx) : (s.setCtx c x).cur = s.cur := rfl
@[simp] theorem setCtx_freeCtr (s : State) (c : Nat) (x : Ctx) : (s.setCtx c x).freeCtr = s.freeCtr := rfl
@[simp] theorem setCtx_nextId (s : State) (c : Nat) (x : Ctx) : (s.setCtx c x).nextId = s.nextId := rfl
@[simp] theorem setCtx_cycle (s : State) (c : Nat) (x : Ctx) : (s.setCtx c x).cycle = s.cycle := rfl
@[simp] theorem setCtx_timebase (s : State) (c : Nat) (x : Ctx) : (s.setCtx c x).timebase = s.timebase := rfl
@[simp] theorem setCtx_subTick (s : State) (c : Nat) (x : Ctx) : (s.setCtx c x).subTick = s.subTick := rfl
@[simp] theorem setCtx_modnum (s : State) (c : Nat) (x : Ctx) : (s.setCtx c x).modnum = s.modnum := rfl
@[simp] theorem setCtx_phys (s : State) (c : Nat) (x : Ctx) : (s.setCtx c x).phys = s.phys := rfl
@[simp] theorem setCtx_mem (s : State) (c : Nat) (x : Ctx) : (s.setCtx c x).mem = s.mem := rfl
@[simp] theorem setCtx_sectorPoison (s : State) (c : Nat) (x : Ctx) : (s.setCtx c x).sectorPoison = s.sectorPoison := rfl
@[simp] theorem setCtx_parPoison (s : State) (c : Nat) (x : Ctx) : (s.setCtx c x).parPoison = s.parPoison := rfl
@[simp] theorem setCtx_advTime (s : State) (c : Nat) (x : Ctx) : (s.setCtx c x).advTime = s.advTime := rfl
@[simp] theorem setCtx_mergeQ (s : State) (c : Nat) (x : Ctx) : (s.setCtx c x).mergeQ = s.mergeQ := rfl
@[simp] theorem setCtx_served (s : State) (c : Nat) (x : Ctx) : (s.setCtx c x).served = s.served := rfl
@[simp] theorem setCtx_lines (s : State) (c : Nat) (x : Ctx) : (s.setCtx c x).lines = s.lines := rfl
@[simp] theorem setCtx_tokReqs (s : State) (c : Nat) (x : Ctx) : (s.setCtx c x).tokReqs = s.tokReqs := rfl
@[simp] theorem setCtx_tlbs (s : State) (c : Nat) (x : Ctx) : (s.setCtx c x).tlbs = s.tlbs := rfl
@[simp] theorem setCtx_wcache (s : State) (c : Nat) (x : Ctx) : (s.setCtx c x).wcache = s.wcache := rfl
@[simp] theorem setCtx_waits (s : State) (c : Nat) (x : Ctx) : (s.setCtx c x).waits = s.waits := rfl
@[simp] theorem setCtx_faults (s : State) (c : Nat) (x : Ctx) : (s.setCtx c x).faults = s.faults := rfl
@[simp] theorem setCtx_token (s : State) (c : Nat) (x : Ctx) : (s.setCtx c x).token = s.token := rfl
@[simp] theorem setCtx_faultTail (s : State) (c : Nat) (x : Ctx) : (s.setCtx c x).faultTail = s.faultTail := rfl
@[simp] theorem setCtx_groups (s : State) (c : Nat) (x : Ctx) : (s.setCtx c x).groups = s.groups := rfl
@[simp] theorem setCtx_teams (s : State) (c : Nat) (x : Ctx) : (s.setCtx c x).teams = s.teams := rfl
@[simp] theorem setCtx_clusters (s : State) (c : Nat) (x : Ctx) : (s.setCtx c x).clusters = s.clusters := rfl
@[simp] theorem setCtx_launches (s : State) (c : Nat) (x : Ctx) : (s.setCtx c x).launches = s.launches := rfl
@[simp] theorem setCtx_cores (s : State) (c : Nat) (x : Ctx) : (s.setCtx c x).cores = s.cores := rfl
@[simp] theorem setCtx_host (s : State) (c : Nat) (x : Ctx) : (s.setCtx c x).host = s.host := rfl
@[simp] theorem setCtx_hostMem (s : State) (c : Nat) (x : Ctx) : (s.setCtx c x).hostMem = s.hostMem := rfl
@[simp] theorem setCtx_mwReply (s : State) (c : Nat) (x : Ctx) : (s.setCtx c x).mwReply = s.mwReply := rfl
@[simp] theorem setCtx_evbuf (s : State) (c : Nat) (x : Ctx) : (s.setCtx c x).evbuf = s.evbuf := rfl
@[simp] theorem setCtx_evLost (s : State) (c : Nat) (x : Ctx) : (s.setCtx c x).evLost = s.evLost := rfl
@[simp] theorem setCtx_msix (s : State) (c : Nat) (x : Ctx) : (s.setCtx c x).msix = s.msix := rfl
@[simp] theorem setCtx_modErrq (s : State) (c : Nat) (x : Ctx) : (s.setCtx c x).modErrq = s.modErrq := rfl
@[simp] theorem setCtx_errCounts (s : State) (c : Nat) (x : Ctx) : (s.setCtx c x).errCounts = s.errCounts := rfl
@[simp] theorem setCtx_corrTimes (s : State) (c : Nat) (x : Ctx) : (s.setCtx c x).corrTimes = s.corrTimes := rfl
@[simp] theorem setCtx_caps (s : State) (c : Nat) (x : Ctx) : (s.setCtx c x).caps = s.caps := rfl
@[simp] theorem setCtx_replays (s : State) (c : Nat) (x : Ctx) : (s.setCtx c x).replays = s.replays := rfl
@[simp] theorem setCtx_queues (s : State) (c : Nat) (x : Ctx) : (s.setCtx c x).queues = s.queues := rfl
@[simp] theorem setCtx_ctrs (s : State) (c : Nat) (x : Ctx) : (s.setCtx c x).ctrs = s.ctrs := rfl
@[simp] theorem setCtx_lastServed (s : State) (c : Nat) (x : Ctx) : (s.setCtx c x).lastServed = s.lastServed := rfl
@[simp] theorem setCtx_links (s : State) (c : Nat) (x : Ctx) : (s.setCtx c x).links = s.links := rfl
@[simp] theorem setCtx_routes (s : State) (c : Nat) (x : Ctx) : (s.setCtx c x).routes = s.routes := rfl
@[simp] theorem setCtx_withdrawn (s : State) (c : Nat) (x : Ctx) : (s.setCtx c x).withdrawn = s.withdrawn := rfl
@[simp] theorem setCtx_fwd (s : State) (c : Nat) (x : Ctx) : (s.setCtx c x).fwd = s.fwd := rfl
@[simp] theorem setCtx_fabric (s : State) (c : Nat) (x : Ctx) : (s.setCtx c x).fabric = s.fabric := rfl
@[simp] theorem setCtx_fabSeq (s : State) (c : Nat) (x : Ctx) : (s.setCtx c x).fabSeq = s.fabSeq := rfl
@[simp] theorem setCtx_kept (s : State) (c : Nat) (x : Ctx) : (s.setCtx c x).kept = s.kept := rfl
@[simp] theorem setCtx_lmap (s : State) (c : Nat) (x : Ctx) : (s.setCtx c x).lmap = s.lmap := rfl
@[simp] theorem setCtx_srefs (s : State) (c : Nat) (x : Ctx) : (s.setCtx c x).srefs = s.srefs := rfl
@[simp] theorem setCtx_retries (s : State) (c : Nat) (x : Ctx) : (s.setCtx c x).retries = s.retries := rfl
@[simp] theorem setCtx_chanFails (s : State) (c : Nat) (x : Ctx) : (s.setCtx c x).chanFails = s.chanFails := rfl
@[simp] theorem setCtx_chanLost (s : State) (c : Nat) (x : Ctx) : (s.setCtx c x).chanLost = s.chanLost := rfl
@[simp] theorem setCtx_scrubPos (s : State) (c : Nat) (x : Ctx) : (s.setCtx c x).scrubPos = s.scrubPos := rfl
@[simp] theorem setCtx_scrubBack (s : State) (c : Nat) (x : Ctx) : (s.setCtx c x).scrubBack = s.scrubBack := rfl
@[simp] theorem setCtx_splitDue (s : State) (c : Nat) (x : Ctx) : (s.setCtx c x).splitDue = s.splitDue := rfl
@[simp] theorem setCtx_stepDue (s : State) (c : Nat) (x : Ctx) : (s.setCtx c x).stepDue = s.stepDue := rfl
@[simp] theorem setCtx_bootErrs (s : State) (c : Nat) (x : Ctx) : (s.setCtx c x).bootErrs = s.bootErrs := rfl
@[simp] theorem setCtx_wbqs (s : State) (c : Nat) (x : Ctx) : (s.setCtx c x).wbqs = s.wbqs := rfl
@[simp] theorem setCtx_parity (s : State) (c : Nat) (x : Ctx) : (s.setCtx c x).parity = s.parity := rfl
@[simp] theorem setCtx_manifest (s : State) (c : Nat) (x : Ctx) : (s.setCtx c x).manifest = s.manifest := rfl
@[simp] theorem setCtx_records (s : State) (c : Nat) (x : Ctx) : (s.setCtx c x).records = s.records := rfl
@[simp] theorem setCtx_power (s : State) (c : Nat) (x : Ctx) : (s.setCtx c x).power = s.power := rfl
@[simp] theorem setCtx_stepGroups (s : State) (c : Nat) (x : Ctx) : (s.setCtx c x).stepGroups = s.stepGroups := rfl
@[simp] theorem setCtx_etches (s : State) (c : Nat) (x : Ctx) : (s.setCtx c x).etches = s.etches := rfl
@[simp] theorem setCtx_recov (s : State) (c : Nat) (x : Ctx) : (s.setCtx c x).recov = s.recov := rfl
@[simp] theorem setCtx_resyncSeq (s : State) (c : Nat) (x : Ctx) : (s.setCtx c x).resyncSeq = s.resyncSeq := rfl

/-! ### `modCtx` -/

@[simp] theorem modCtx_agenda (s : State) (c : Nat) (f : Ctx → Ctx) : (s.modCtx c f).agenda = s.agenda := rfl
@[simp] theorem modCtx_issued (s : State) (c : Nat) (f : Ctx → Ctx) : (s.modCtx c f).issued = s.issued := rfl
@[simp] theorem modCtx_cur (s : State) (c : Nat) (f : Ctx → Ctx) : (s.modCtx c f).cur = s.cur := rfl
@[simp] theorem modCtx_freeCtr (s : State) (c : Nat) (f : Ctx → Ctx) : (s.modCtx c f).freeCtr = s.freeCtr := rfl
@[simp] theorem modCtx_nextId (s : State) (c : Nat) (f : Ctx → Ctx) : (s.modCtx c f).nextId = s.nextId := rfl
@[simp] theorem modCtx_cycle (s : State) (c : Nat) (f : Ctx → Ctx) : (s.modCtx c f).cycle = s.cycle := rfl
@[simp] theorem modCtx_timebase (s : State) (c : Nat) (f : Ctx → Ctx) : (s.modCtx c f).timebase = s.timebase := rfl
@[simp] theorem modCtx_subTick (s : State) (c : Nat) (f : Ctx → Ctx) : (s.modCtx c f).subTick = s.subTick := rfl
@[simp] theorem modCtx_modnum (s : State) (c : Nat) (f : Ctx → Ctx) : (s.modCtx c f).modnum = s.modnum := rfl
@[simp] theorem modCtx_phys (s : State) (c : Nat) (f : Ctx → Ctx) : (s.modCtx c f).phys = s.phys := rfl
@[simp] theorem modCtx_mem (s : State) (c : Nat) (f : Ctx → Ctx) : (s.modCtx c f).mem = s.mem := rfl
@[simp] theorem modCtx_sectorPoison (s : State) (c : Nat) (f : Ctx → Ctx) : (s.modCtx c f).sectorPoison = s.sectorPoison := rfl
@[simp] theorem modCtx_parPoison (s : State) (c : Nat) (f : Ctx → Ctx) : (s.modCtx c f).parPoison = s.parPoison := rfl
@[simp] theorem modCtx_advTime (s : State) (c : Nat) (f : Ctx → Ctx) : (s.modCtx c f).advTime = s.advTime := rfl
@[simp] theorem modCtx_mergeQ (s : State) (c : Nat) (f : Ctx → Ctx) : (s.modCtx c f).mergeQ = s.mergeQ := rfl
@[simp] theorem modCtx_served (s : State) (c : Nat) (f : Ctx → Ctx) : (s.modCtx c f).served = s.served := rfl
@[simp] theorem modCtx_lines (s : State) (c : Nat) (f : Ctx → Ctx) : (s.modCtx c f).lines = s.lines := rfl
@[simp] theorem modCtx_tokReqs (s : State) (c : Nat) (f : Ctx → Ctx) : (s.modCtx c f).tokReqs = s.tokReqs := rfl
@[simp] theorem modCtx_tlbs (s : State) (c : Nat) (f : Ctx → Ctx) : (s.modCtx c f).tlbs = s.tlbs := rfl
@[simp] theorem modCtx_wcache (s : State) (c : Nat) (f : Ctx → Ctx) : (s.modCtx c f).wcache = s.wcache := rfl
@[simp] theorem modCtx_waits (s : State) (c : Nat) (f : Ctx → Ctx) : (s.modCtx c f).waits = s.waits := rfl
@[simp] theorem modCtx_faults (s : State) (c : Nat) (f : Ctx → Ctx) : (s.modCtx c f).faults = s.faults := rfl
@[simp] theorem modCtx_token (s : State) (c : Nat) (f : Ctx → Ctx) : (s.modCtx c f).token = s.token := rfl
@[simp] theorem modCtx_faultTail (s : State) (c : Nat) (f : Ctx → Ctx) : (s.modCtx c f).faultTail = s.faultTail := rfl
@[simp] theorem modCtx_groups (s : State) (c : Nat) (f : Ctx → Ctx) : (s.modCtx c f).groups = s.groups := rfl
@[simp] theorem modCtx_teams (s : State) (c : Nat) (f : Ctx → Ctx) : (s.modCtx c f).teams = s.teams := rfl
@[simp] theorem modCtx_clusters (s : State) (c : Nat) (f : Ctx → Ctx) : (s.modCtx c f).clusters = s.clusters := rfl
@[simp] theorem modCtx_launches (s : State) (c : Nat) (f : Ctx → Ctx) : (s.modCtx c f).launches = s.launches := rfl
@[simp] theorem modCtx_cores (s : State) (c : Nat) (f : Ctx → Ctx) : (s.modCtx c f).cores = s.cores := rfl
@[simp] theorem modCtx_host (s : State) (c : Nat) (f : Ctx → Ctx) : (s.modCtx c f).host = s.host := rfl
@[simp] theorem modCtx_hostMem (s : State) (c : Nat) (f : Ctx → Ctx) : (s.modCtx c f).hostMem = s.hostMem := rfl
@[simp] theorem modCtx_mwReply (s : State) (c : Nat) (f : Ctx → Ctx) : (s.modCtx c f).mwReply = s.mwReply := rfl
@[simp] theorem modCtx_evbuf (s : State) (c : Nat) (f : Ctx → Ctx) : (s.modCtx c f).evbuf = s.evbuf := rfl
@[simp] theorem modCtx_evLost (s : State) (c : Nat) (f : Ctx → Ctx) : (s.modCtx c f).evLost = s.evLost := rfl
@[simp] theorem modCtx_msix (s : State) (c : Nat) (f : Ctx → Ctx) : (s.modCtx c f).msix = s.msix := rfl
@[simp] theorem modCtx_modErrq (s : State) (c : Nat) (f : Ctx → Ctx) : (s.modCtx c f).modErrq = s.modErrq := rfl
@[simp] theorem modCtx_errCounts (s : State) (c : Nat) (f : Ctx → Ctx) : (s.modCtx c f).errCounts = s.errCounts := rfl
@[simp] theorem modCtx_corrTimes (s : State) (c : Nat) (f : Ctx → Ctx) : (s.modCtx c f).corrTimes = s.corrTimes := rfl
@[simp] theorem modCtx_caps (s : State) (c : Nat) (f : Ctx → Ctx) : (s.modCtx c f).caps = s.caps := rfl
@[simp] theorem modCtx_replays (s : State) (c : Nat) (f : Ctx → Ctx) : (s.modCtx c f).replays = s.replays := rfl
@[simp] theorem modCtx_queues (s : State) (c : Nat) (f : Ctx → Ctx) : (s.modCtx c f).queues = s.queues := rfl
@[simp] theorem modCtx_ctrs (s : State) (c : Nat) (f : Ctx → Ctx) : (s.modCtx c f).ctrs = s.ctrs := rfl
@[simp] theorem modCtx_lastServed (s : State) (c : Nat) (f : Ctx → Ctx) : (s.modCtx c f).lastServed = s.lastServed := rfl
@[simp] theorem modCtx_links (s : State) (c : Nat) (f : Ctx → Ctx) : (s.modCtx c f).links = s.links := rfl
@[simp] theorem modCtx_routes (s : State) (c : Nat) (f : Ctx → Ctx) : (s.modCtx c f).routes = s.routes := rfl
@[simp] theorem modCtx_withdrawn (s : State) (c : Nat) (f : Ctx → Ctx) : (s.modCtx c f).withdrawn = s.withdrawn := rfl
@[simp] theorem modCtx_fwd (s : State) (c : Nat) (f : Ctx → Ctx) : (s.modCtx c f).fwd = s.fwd := rfl
@[simp] theorem modCtx_fabric (s : State) (c : Nat) (f : Ctx → Ctx) : (s.modCtx c f).fabric = s.fabric := rfl
@[simp] theorem modCtx_fabSeq (s : State) (c : Nat) (f : Ctx → Ctx) : (s.modCtx c f).fabSeq = s.fabSeq := rfl
@[simp] theorem modCtx_kept (s : State) (c : Nat) (f : Ctx → Ctx) : (s.modCtx c f).kept = s.kept := rfl
@[simp] theorem modCtx_lmap (s : State) (c : Nat) (f : Ctx → Ctx) : (s.modCtx c f).lmap = s.lmap := rfl
@[simp] theorem modCtx_srefs (s : State) (c : Nat) (f : Ctx → Ctx) : (s.modCtx c f).srefs = s.srefs := rfl
@[simp] theorem modCtx_retries (s : State) (c : Nat) (f : Ctx → Ctx) : (s.modCtx c f).retries = s.retries := rfl
@[simp] theorem modCtx_chanFails (s : State) (c : Nat) (f : Ctx → Ctx) : (s.modCtx c f).chanFails = s.chanFails := rfl
@[simp] theorem modCtx_chanLost (s : State) (c : Nat) (f : Ctx → Ctx) : (s.modCtx c f).chanLost = s.chanLost := rfl
@[simp] theorem modCtx_scrubPos (s : State) (c : Nat) (f : Ctx → Ctx) : (s.modCtx c f).scrubPos = s.scrubPos := rfl
@[simp] theorem modCtx_scrubBack (s : State) (c : Nat) (f : Ctx → Ctx) : (s.modCtx c f).scrubBack = s.scrubBack := rfl
@[simp] theorem modCtx_splitDue (s : State) (c : Nat) (f : Ctx → Ctx) : (s.modCtx c f).splitDue = s.splitDue := rfl
@[simp] theorem modCtx_stepDue (s : State) (c : Nat) (f : Ctx → Ctx) : (s.modCtx c f).stepDue = s.stepDue := rfl
@[simp] theorem modCtx_bootErrs (s : State) (c : Nat) (f : Ctx → Ctx) : (s.modCtx c f).bootErrs = s.bootErrs := rfl
@[simp] theorem modCtx_wbqs (s : State) (c : Nat) (f : Ctx → Ctx) : (s.modCtx c f).wbqs = s.wbqs := rfl
@[simp] theorem modCtx_parity (s : State) (c : Nat) (f : Ctx → Ctx) : (s.modCtx c f).parity = s.parity := rfl
@[simp] theorem modCtx_manifest (s : State) (c : Nat) (f : Ctx → Ctx) : (s.modCtx c f).manifest = s.manifest := rfl
@[simp] theorem modCtx_records (s : State) (c : Nat) (f : Ctx → Ctx) : (s.modCtx c f).records = s.records := rfl
@[simp] theorem modCtx_power (s : State) (c : Nat) (f : Ctx → Ctx) : (s.modCtx c f).power = s.power := rfl
@[simp] theorem modCtx_stepGroups (s : State) (c : Nat) (f : Ctx → Ctx) : (s.modCtx c f).stepGroups = s.stepGroups := rfl
@[simp] theorem modCtx_etches (s : State) (c : Nat) (f : Ctx → Ctx) : (s.modCtx c f).etches = s.etches := rfl
@[simp] theorem modCtx_recov (s : State) (c : Nat) (f : Ctx → Ctx) : (s.modCtx c f).recov = s.recov := rfl
@[simp] theorem modCtx_resyncSeq (s : State) (c : Nat) (f : Ctx → Ctx) : (s.modCtx c f).resyncSeq = s.resyncSeq := rfl

/-! ### `setCore` -/

@[simp] theorem setCore_agenda (s : State) (c : Nat) (x : Core) : (s.setCore c x).agenda = s.agenda := rfl
@[simp] theorem setCore_issued (s : State) (c : Nat) (x : Core) : (s.setCore c x).issued = s.issued := rfl
@[simp] theorem setCore_cur (s : State) (c : Nat) (x : Core) : (s.setCore c x).cur = s.cur := rfl
@[simp] theorem setCore_freeCtr (s : State) (c : Nat) (x : Core) : (s.setCore c x).freeCtr = s.freeCtr := rfl
@[simp] theorem setCore_nextId (s : State) (c : Nat) (x : Core) : (s.setCore c x).nextId = s.nextId := rfl
@[simp] theorem setCore_cycle (s : State) (c : Nat) (x : Core) : (s.setCore c x).cycle = s.cycle := rfl
@[simp] theorem setCore_timebase (s : State) (c : Nat) (x : Core) : (s.setCore c x).timebase = s.timebase := rfl
@[simp] theorem setCore_subTick (s : State) (c : Nat) (x : Core) : (s.setCore c x).subTick = s.subTick := rfl
@[simp] theorem setCore_modnum (s : State) (c : Nat) (x : Core) : (s.setCore c x).modnum = s.modnum := rfl
@[simp] theorem setCore_phys (s : State) (c : Nat) (x : Core) : (s.setCore c x).phys = s.phys := rfl
@[simp] theorem setCore_mem (s : State) (c : Nat) (x : Core) : (s.setCore c x).mem = s.mem := rfl
@[simp] theorem setCore_sectorPoison (s : State) (c : Nat) (x : Core) : (s.setCore c x).sectorPoison = s.sectorPoison := rfl
@[simp] theorem setCore_parPoison (s : State) (c : Nat) (x : Core) : (s.setCore c x).parPoison = s.parPoison := rfl
@[simp] theorem setCore_advTime (s : State) (c : Nat) (x : Core) : (s.setCore c x).advTime = s.advTime := rfl
@[simp] theorem setCore_mergeQ (s : State) (c : Nat) (x : Core) : (s.setCore c x).mergeQ = s.mergeQ := rfl
@[simp] theorem setCore_served (s : State) (c : Nat) (x : Core) : (s.setCore c x).served = s.served := rfl
@[simp] theorem setCore_lines (s : State) (c : Nat) (x : Core) : (s.setCore c x).lines = s.lines := rfl
@[simp] theorem setCore_tokReqs (s : State) (c : Nat) (x : Core) : (s.setCore c x).tokReqs = s.tokReqs := rfl
@[simp] theorem setCore_tlbs (s : State) (c : Nat) (x : Core) : (s.setCore c x).tlbs = s.tlbs := rfl
@[simp] theorem setCore_wcache (s : State) (c : Nat) (x : Core) : (s.setCore c x).wcache = s.wcache := rfl
@[simp] theorem setCore_waits (s : State) (c : Nat) (x : Core) : (s.setCore c x).waits = s.waits := rfl
@[simp] theorem setCore_faults (s : State) (c : Nat) (x : Core) : (s.setCore c x).faults = s.faults := rfl
@[simp] theorem setCore_token (s : State) (c : Nat) (x : Core) : (s.setCore c x).token = s.token := rfl
@[simp] theorem setCore_faultTail (s : State) (c : Nat) (x : Core) : (s.setCore c x).faultTail = s.faultTail := rfl
@[simp] theorem setCore_groups (s : State) (c : Nat) (x : Core) : (s.setCore c x).groups = s.groups := rfl
@[simp] theorem setCore_teams (s : State) (c : Nat) (x : Core) : (s.setCore c x).teams = s.teams := rfl
@[simp] theorem setCore_clusters (s : State) (c : Nat) (x : Core) : (s.setCore c x).clusters = s.clusters := rfl
@[simp] theorem setCore_launches (s : State) (c : Nat) (x : Core) : (s.setCore c x).launches = s.launches := rfl
@[simp] theorem setCore_ctxs (s : State) (c : Nat) (x : Core) : (s.setCore c x).ctxs = s.ctxs := rfl
@[simp] theorem setCore_host (s : State) (c : Nat) (x : Core) : (s.setCore c x).host = s.host := rfl
@[simp] theorem setCore_hostMem (s : State) (c : Nat) (x : Core) : (s.setCore c x).hostMem = s.hostMem := rfl
@[simp] theorem setCore_mwReply (s : State) (c : Nat) (x : Core) : (s.setCore c x).mwReply = s.mwReply := rfl
@[simp] theorem setCore_evbuf (s : State) (c : Nat) (x : Core) : (s.setCore c x).evbuf = s.evbuf := rfl
@[simp] theorem setCore_evLost (s : State) (c : Nat) (x : Core) : (s.setCore c x).evLost = s.evLost := rfl
@[simp] theorem setCore_msix (s : State) (c : Nat) (x : Core) : (s.setCore c x).msix = s.msix := rfl
@[simp] theorem setCore_modErrq (s : State) (c : Nat) (x : Core) : (s.setCore c x).modErrq = s.modErrq := rfl
@[simp] theorem setCore_errCounts (s : State) (c : Nat) (x : Core) : (s.setCore c x).errCounts = s.errCounts := rfl
@[simp] theorem setCore_corrTimes (s : State) (c : Nat) (x : Core) : (s.setCore c x).corrTimes = s.corrTimes := rfl
@[simp] theorem setCore_caps (s : State) (c : Nat) (x : Core) : (s.setCore c x).caps = s.caps := rfl
@[simp] theorem setCore_replays (s : State) (c : Nat) (x : Core) : (s.setCore c x).replays = s.replays := rfl
@[simp] theorem setCore_queues (s : State) (c : Nat) (x : Core) : (s.setCore c x).queues = s.queues := rfl
@[simp] theorem setCore_ctrs (s : State) (c : Nat) (x : Core) : (s.setCore c x).ctrs = s.ctrs := rfl
@[simp] theorem setCore_lastServed (s : State) (c : Nat) (x : Core) : (s.setCore c x).lastServed = s.lastServed := rfl
@[simp] theorem setCore_links (s : State) (c : Nat) (x : Core) : (s.setCore c x).links = s.links := rfl
@[simp] theorem setCore_routes (s : State) (c : Nat) (x : Core) : (s.setCore c x).routes = s.routes := rfl
@[simp] theorem setCore_withdrawn (s : State) (c : Nat) (x : Core) : (s.setCore c x).withdrawn = s.withdrawn := rfl
@[simp] theorem setCore_fwd (s : State) (c : Nat) (x : Core) : (s.setCore c x).fwd = s.fwd := rfl
@[simp] theorem setCore_fabric (s : State) (c : Nat) (x : Core) : (s.setCore c x).fabric = s.fabric := rfl
@[simp] theorem setCore_fabSeq (s : State) (c : Nat) (x : Core) : (s.setCore c x).fabSeq = s.fabSeq := rfl
@[simp] theorem setCore_kept (s : State) (c : Nat) (x : Core) : (s.setCore c x).kept = s.kept := rfl
@[simp] theorem setCore_lmap (s : State) (c : Nat) (x : Core) : (s.setCore c x).lmap = s.lmap := rfl
@[simp] theorem setCore_srefs (s : State) (c : Nat) (x : Core) : (s.setCore c x).srefs = s.srefs := rfl
@[simp] theorem setCore_retries (s : State) (c : Nat) (x : Core) : (s.setCore c x).retries = s.retries := rfl
@[simp] theorem setCore_chanFails (s : State) (c : Nat) (x : Core) : (s.setCore c x).chanFails = s.chanFails := rfl
@[simp] theorem setCore_chanLost (s : State) (c : Nat) (x : Core) : (s.setCore c x).chanLost = s.chanLost := rfl
@[simp] theorem setCore_scrubPos (s : State) (c : Nat) (x : Core) : (s.setCore c x).scrubPos = s.scrubPos := rfl
@[simp] theorem setCore_scrubBack (s : State) (c : Nat) (x : Core) : (s.setCore c x).scrubBack = s.scrubBack := rfl
@[simp] theorem setCore_splitDue (s : State) (c : Nat) (x : Core) : (s.setCore c x).splitDue = s.splitDue := rfl
@[simp] theorem setCore_stepDue (s : State) (c : Nat) (x : Core) : (s.setCore c x).stepDue = s.stepDue := rfl
@[simp] theorem setCore_bootErrs (s : State) (c : Nat) (x : Core) : (s.setCore c x).bootErrs = s.bootErrs := rfl
@[simp] theorem setCore_wbqs (s : State) (c : Nat) (x : Core) : (s.setCore c x).wbqs = s.wbqs := rfl
@[simp] theorem setCore_parity (s : State) (c : Nat) (x : Core) : (s.setCore c x).parity = s.parity := rfl
@[simp] theorem setCore_manifest (s : State) (c : Nat) (x : Core) : (s.setCore c x).manifest = s.manifest := rfl
@[simp] theorem setCore_records (s : State) (c : Nat) (x : Core) : (s.setCore c x).records = s.records := rfl
@[simp] theorem setCore_power (s : State) (c : Nat) (x : Core) : (s.setCore c x).power = s.power := rfl
@[simp] theorem setCore_stepGroups (s : State) (c : Nat) (x : Core) : (s.setCore c x).stepGroups = s.stepGroups := rfl
@[simp] theorem setCore_etches (s : State) (c : Nat) (x : Core) : (s.setCore c x).etches = s.etches := rfl
@[simp] theorem setCore_recov (s : State) (c : Nat) (x : Core) : (s.setCore c x).recov = s.recov := rfl
@[simp] theorem setCore_resyncSeq (s : State) (c : Nat) (x : Core) : (s.setCore c x).resyncSeq = s.resyncSeq := rfl

/-! ### `modCore` -/

@[simp] theorem modCore_agenda (s : State) (c : Nat) (f : Core → Core) : (s.modCore c f).agenda = s.agenda := rfl
@[simp] theorem modCore_issued (s : State) (c : Nat) (f : Core → Core) : (s.modCore c f).issued = s.issued := rfl
@[simp] theorem modCore_cur (s : State) (c : Nat) (f : Core → Core) : (s.modCore c f).cur = s.cur := rfl
@[simp] theorem modCore_freeCtr (s : State) (c : Nat) (f : Core → Core) : (s.modCore c f).freeCtr = s.freeCtr := rfl
@[simp] theorem modCore_nextId (s : State) (c : Nat) (f : Core → Core) : (s.modCore c f).nextId = s.nextId := rfl
@[simp] theorem modCore_cycle (s : State) (c : Nat) (f : Core → Core) : (s.modCore c f).cycle = s.cycle := rfl
@[simp] theorem modCore_timebase (s : State) (c : Nat) (f : Core → Core) : (s.modCore c f).timebase = s.timebase := rfl
@[simp] theorem modCore_subTick (s : State) (c : Nat) (f : Core → Core) : (s.modCore c f).subTick = s.subTick := rfl
@[simp] theorem modCore_modnum (s : State) (c : Nat) (f : Core → Core) : (s.modCore c f).modnum = s.modnum := rfl
@[simp] theorem modCore_phys (s : State) (c : Nat) (f : Core → Core) : (s.modCore c f).phys = s.phys := rfl
@[simp] theorem modCore_mem (s : State) (c : Nat) (f : Core → Core) : (s.modCore c f).mem = s.mem := rfl
@[simp] theorem modCore_sectorPoison (s : State) (c : Nat) (f : Core → Core) : (s.modCore c f).sectorPoison = s.sectorPoison := rfl
@[simp] theorem modCore_parPoison (s : State) (c : Nat) (f : Core → Core) : (s.modCore c f).parPoison = s.parPoison := rfl
@[simp] theorem modCore_advTime (s : State) (c : Nat) (f : Core → Core) : (s.modCore c f).advTime = s.advTime := rfl
@[simp] theorem modCore_mergeQ (s : State) (c : Nat) (f : Core → Core) : (s.modCore c f).mergeQ = s.mergeQ := rfl
@[simp] theorem modCore_served (s : State) (c : Nat) (f : Core → Core) : (s.modCore c f).served = s.served := rfl
@[simp] theorem modCore_lines (s : State) (c : Nat) (f : Core → Core) : (s.modCore c f).lines = s.lines := rfl
@[simp] theorem modCore_tokReqs (s : State) (c : Nat) (f : Core → Core) : (s.modCore c f).tokReqs = s.tokReqs := rfl
@[simp] theorem modCore_tlbs (s : State) (c : Nat) (f : Core → Core) : (s.modCore c f).tlbs = s.tlbs := rfl
@[simp] theorem modCore_wcache (s : State) (c : Nat) (f : Core → Core) : (s.modCore c f).wcache = s.wcache := rfl
@[simp] theorem modCore_waits (s : State) (c : Nat) (f : Core → Core) : (s.modCore c f).waits = s.waits := rfl
@[simp] theorem modCore_faults (s : State) (c : Nat) (f : Core → Core) : (s.modCore c f).faults = s.faults := rfl
@[simp] theorem modCore_token (s : State) (c : Nat) (f : Core → Core) : (s.modCore c f).token = s.token := rfl
@[simp] theorem modCore_faultTail (s : State) (c : Nat) (f : Core → Core) : (s.modCore c f).faultTail = s.faultTail := rfl
@[simp] theorem modCore_groups (s : State) (c : Nat) (f : Core → Core) : (s.modCore c f).groups = s.groups := rfl
@[simp] theorem modCore_teams (s : State) (c : Nat) (f : Core → Core) : (s.modCore c f).teams = s.teams := rfl
@[simp] theorem modCore_clusters (s : State) (c : Nat) (f : Core → Core) : (s.modCore c f).clusters = s.clusters := rfl
@[simp] theorem modCore_launches (s : State) (c : Nat) (f : Core → Core) : (s.modCore c f).launches = s.launches := rfl
@[simp] theorem modCore_ctxs (s : State) (c : Nat) (f : Core → Core) : (s.modCore c f).ctxs = s.ctxs := rfl
@[simp] theorem modCore_host (s : State) (c : Nat) (f : Core → Core) : (s.modCore c f).host = s.host := rfl
@[simp] theorem modCore_hostMem (s : State) (c : Nat) (f : Core → Core) : (s.modCore c f).hostMem = s.hostMem := rfl
@[simp] theorem modCore_mwReply (s : State) (c : Nat) (f : Core → Core) : (s.modCore c f).mwReply = s.mwReply := rfl
@[simp] theorem modCore_evbuf (s : State) (c : Nat) (f : Core → Core) : (s.modCore c f).evbuf = s.evbuf := rfl
@[simp] theorem modCore_evLost (s : State) (c : Nat) (f : Core → Core) : (s.modCore c f).evLost = s.evLost := rfl
@[simp] theorem modCore_msix (s : State) (c : Nat) (f : Core → Core) : (s.modCore c f).msix = s.msix := rfl
@[simp] theorem modCore_modErrq (s : State) (c : Nat) (f : Core → Core) : (s.modCore c f).modErrq = s.modErrq := rfl
@[simp] theorem modCore_errCounts (s : State) (c : Nat) (f : Core → Core) : (s.modCore c f).errCounts = s.errCounts := rfl
@[simp] theorem modCore_corrTimes (s : State) (c : Nat) (f : Core → Core) : (s.modCore c f).corrTimes = s.corrTimes := rfl
@[simp] theorem modCore_caps (s : State) (c : Nat) (f : Core → Core) : (s.modCore c f).caps = s.caps := rfl
@[simp] theorem modCore_replays (s : State) (c : Nat) (f : Core → Core) : (s.modCore c f).replays = s.replays := rfl
@[simp] theorem modCore_queues (s : State) (c : Nat) (f : Core → Core) : (s.modCore c f).queues = s.queues := rfl
@[simp] theorem modCore_ctrs (s : State) (c : Nat) (f : Core → Core) : (s.modCore c f).ctrs = s.ctrs := rfl
@[simp] theorem modCore_lastServed (s : State) (c : Nat) (f : Core → Core) : (s.modCore c f).lastServed = s.lastServed := rfl
@[simp] theorem modCore_links (s : State) (c : Nat) (f : Core → Core) : (s.modCore c f).links = s.links := rfl
@[simp] theorem modCore_routes (s : State) (c : Nat) (f : Core → Core) : (s.modCore c f).routes = s.routes := rfl
@[simp] theorem modCore_withdrawn (s : State) (c : Nat) (f : Core → Core) : (s.modCore c f).withdrawn = s.withdrawn := rfl
@[simp] theorem modCore_fwd (s : State) (c : Nat) (f : Core → Core) : (s.modCore c f).fwd = s.fwd := rfl
@[simp] theorem modCore_fabric (s : State) (c : Nat) (f : Core → Core) : (s.modCore c f).fabric = s.fabric := rfl
@[simp] theorem modCore_fabSeq (s : State) (c : Nat) (f : Core → Core) : (s.modCore c f).fabSeq = s.fabSeq := rfl
@[simp] theorem modCore_kept (s : State) (c : Nat) (f : Core → Core) : (s.modCore c f).kept = s.kept := rfl
@[simp] theorem modCore_lmap (s : State) (c : Nat) (f : Core → Core) : (s.modCore c f).lmap = s.lmap := rfl
@[simp] theorem modCore_srefs (s : State) (c : Nat) (f : Core → Core) : (s.modCore c f).srefs = s.srefs := rfl
@[simp] theorem modCore_retries (s : State) (c : Nat) (f : Core → Core) : (s.modCore c f).retries = s.retries := rfl
@[simp] theorem modCore_chanFails (s : State) (c : Nat) (f : Core → Core) : (s.modCore c f).chanFails = s.chanFails := rfl
@[simp] theorem modCore_chanLost (s : State) (c : Nat) (f : Core → Core) : (s.modCore c f).chanLost = s.chanLost := rfl
@[simp] theorem modCore_scrubPos (s : State) (c : Nat) (f : Core → Core) : (s.modCore c f).scrubPos = s.scrubPos := rfl
@[simp] theorem modCore_scrubBack (s : State) (c : Nat) (f : Core → Core) : (s.modCore c f).scrubBack = s.scrubBack := rfl
@[simp] theorem modCore_splitDue (s : State) (c : Nat) (f : Core → Core) : (s.modCore c f).splitDue = s.splitDue := rfl
@[simp] theorem modCore_stepDue (s : State) (c : Nat) (f : Core → Core) : (s.modCore c f).stepDue = s.stepDue := rfl
@[simp] theorem modCore_bootErrs (s : State) (c : Nat) (f : Core → Core) : (s.modCore c f).bootErrs = s.bootErrs := rfl
@[simp] theorem modCore_wbqs (s : State) (c : Nat) (f : Core → Core) : (s.modCore c f).wbqs = s.wbqs := rfl
@[simp] theorem modCore_parity (s : State) (c : Nat) (f : Core → Core) : (s.modCore c f).parity = s.parity := rfl
@[simp] theorem modCore_manifest (s : State) (c : Nat) (f : Core → Core) : (s.modCore c f).manifest = s.manifest := rfl
@[simp] theorem modCore_records (s : State) (c : Nat) (f : Core → Core) : (s.modCore c f).records = s.records := rfl
@[simp] theorem modCore_power (s : State) (c : Nat) (f : Core → Core) : (s.modCore c f).power = s.power := rfl
@[simp] theorem modCore_stepGroups (s : State) (c : Nat) (f : Core → Core) : (s.modCore c f).stepGroups = s.stepGroups := rfl
@[simp] theorem modCore_etches (s : State) (c : Nat) (f : Core → Core) : (s.modCore c f).etches = s.etches := rfl
@[simp] theorem modCore_recov (s : State) (c : Nat) (f : Core → Core) : (s.modCore c f).recov = s.recov := rfl
@[simp] theorem modCore_resyncSeq (s : State) (c : Nat) (f : Core → Core) : (s.modCore c f).resyncSeq = s.resyncSeq := rfl

/-! ### `count` -/

@[simp] theorem count_agenda (s : State) (c k n : Nat) : (s.count c k n).agenda = s.agenda := rfl
@[simp] theorem count_issued (s : State) (c k n : Nat) : (s.count c k n).issued = s.issued := rfl
@[simp] theorem count_cur (s : State) (c k n : Nat) : (s.count c k n).cur = s.cur := rfl
@[simp] theorem count_freeCtr (s : State) (c k n : Nat) : (s.count c k n).freeCtr = s.freeCtr := rfl
@[simp] theorem count_nextId (s : State) (c k n : Nat) : (s.count c k n).nextId = s.nextId := rfl
@[simp] theorem count_cycle (s : State) (c k n : Nat) : (s.count c k n).cycle = s.cycle := rfl
@[simp] theorem count_timebase (s : State) (c k n : Nat) : (s.count c k n).timebase = s.timebase := rfl
@[simp] theorem count_subTick (s : State) (c k n : Nat) : (s.count c k n).subTick = s.subTick := rfl
@[simp] theorem count_modnum (s : State) (c k n : Nat) : (s.count c k n).modnum = s.modnum := rfl
@[simp] theorem count_phys (s : State) (c k n : Nat) : (s.count c k n).phys = s.phys := rfl
@[simp] theorem count_mem (s : State) (c k n : Nat) : (s.count c k n).mem = s.mem := rfl
@[simp] theorem count_sectorPoison (s : State) (c k n : Nat) : (s.count c k n).sectorPoison = s.sectorPoison := rfl
@[simp] theorem count_parPoison (s : State) (c k n : Nat) : (s.count c k n).parPoison = s.parPoison := rfl
@[simp] theorem count_advTime (s : State) (c k n : Nat) : (s.count c k n).advTime = s.advTime := rfl
@[simp] theorem count_mergeQ (s : State) (c k n : Nat) : (s.count c k n).mergeQ = s.mergeQ := rfl
@[simp] theorem count_served (s : State) (c k n : Nat) : (s.count c k n).served = s.served := rfl
@[simp] theorem count_lines (s : State) (c k n : Nat) : (s.count c k n).lines = s.lines := rfl
@[simp] theorem count_tokReqs (s : State) (c k n : Nat) : (s.count c k n).tokReqs = s.tokReqs := rfl
@[simp] theorem count_tlbs (s : State) (c k n : Nat) : (s.count c k n).tlbs = s.tlbs := rfl
@[simp] theorem count_wcache (s : State) (c k n : Nat) : (s.count c k n).wcache = s.wcache := rfl
@[simp] theorem count_waits (s : State) (c k n : Nat) : (s.count c k n).waits = s.waits := rfl
@[simp] theorem count_faults (s : State) (c k n : Nat) : (s.count c k n).faults = s.faults := rfl
@[simp] theorem count_token (s : State) (c k n : Nat) : (s.count c k n).token = s.token := rfl
@[simp] theorem count_faultTail (s : State) (c k n : Nat) : (s.count c k n).faultTail = s.faultTail := rfl
@[simp] theorem count_groups (s : State) (c k n : Nat) : (s.count c k n).groups = s.groups := rfl
@[simp] theorem count_teams (s : State) (c k n : Nat) : (s.count c k n).teams = s.teams := rfl
@[simp] theorem count_clusters (s : State) (c k n : Nat) : (s.count c k n).clusters = s.clusters := rfl
@[simp] theorem count_launches (s : State) (c k n : Nat) : (s.count c k n).launches = s.launches := rfl
@[simp] theorem count_ctxs (s : State) (c k n : Nat) : (s.count c k n).ctxs = s.ctxs := rfl
@[simp] theorem count_host (s : State) (c k n : Nat) : (s.count c k n).host = s.host := rfl
@[simp] theorem count_hostMem (s : State) (c k n : Nat) : (s.count c k n).hostMem = s.hostMem := rfl
@[simp] theorem count_mwReply (s : State) (c k n : Nat) : (s.count c k n).mwReply = s.mwReply := rfl
@[simp] theorem count_evbuf (s : State) (c k n : Nat) : (s.count c k n).evbuf = s.evbuf := rfl
@[simp] theorem count_evLost (s : State) (c k n : Nat) : (s.count c k n).evLost = s.evLost := rfl
@[simp] theorem count_msix (s : State) (c k n : Nat) : (s.count c k n).msix = s.msix := rfl
@[simp] theorem count_modErrq (s : State) (c k n : Nat) : (s.count c k n).modErrq = s.modErrq := rfl
@[simp] theorem count_errCounts (s : State) (c k n : Nat) : (s.count c k n).errCounts = s.errCounts := rfl
@[simp] theorem count_corrTimes (s : State) (c k n : Nat) : (s.count c k n).corrTimes = s.corrTimes := rfl
@[simp] theorem count_caps (s : State) (c k n : Nat) : (s.count c k n).caps = s.caps := rfl
@[simp] theorem count_replays (s : State) (c k n : Nat) : (s.count c k n).replays = s.replays := rfl
@[simp] theorem count_queues (s : State) (c k n : Nat) : (s.count c k n).queues = s.queues := rfl
@[simp] theorem count_ctrs (s : State) (c k n : Nat) : (s.count c k n).ctrs = s.ctrs := rfl
@[simp] theorem count_lastServed (s : State) (c k n : Nat) : (s.count c k n).lastServed = s.lastServed := rfl
@[simp] theorem count_links (s : State) (c k n : Nat) : (s.count c k n).links = s.links := rfl
@[simp] theorem count_routes (s : State) (c k n : Nat) : (s.count c k n).routes = s.routes := rfl
@[simp] theorem count_withdrawn (s : State) (c k n : Nat) : (s.count c k n).withdrawn = s.withdrawn := rfl
@[simp] theorem count_fwd (s : State) (c k n : Nat) : (s.count c k n).fwd = s.fwd := rfl
@[simp] theorem count_fabric (s : State) (c k n : Nat) : (s.count c k n).fabric = s.fabric := rfl
@[simp] theorem count_fabSeq (s : State) (c k n : Nat) : (s.count c k n).fabSeq = s.fabSeq := rfl
@[simp] theorem count_kept (s : State) (c k n : Nat) : (s.count c k n).kept = s.kept := rfl
@[simp] theorem count_lmap (s : State) (c k n : Nat) : (s.count c k n).lmap = s.lmap := rfl
@[simp] theorem count_srefs (s : State) (c k n : Nat) : (s.count c k n).srefs = s.srefs := rfl
@[simp] theorem count_retries (s : State) (c k n : Nat) : (s.count c k n).retries = s.retries := rfl
@[simp] theorem count_chanFails (s : State) (c k n : Nat) : (s.count c k n).chanFails = s.chanFails := rfl
@[simp] theorem count_chanLost (s : State) (c k n : Nat) : (s.count c k n).chanLost = s.chanLost := rfl
@[simp] theorem count_scrubPos (s : State) (c k n : Nat) : (s.count c k n).scrubPos = s.scrubPos := rfl
@[simp] theorem count_scrubBack (s : State) (c k n : Nat) : (s.count c k n).scrubBack = s.scrubBack := rfl
@[simp] theorem count_splitDue (s : State) (c k n : Nat) : (s.count c k n).splitDue = s.splitDue := rfl
@[simp] theorem count_stepDue (s : State) (c k n : Nat) : (s.count c k n).stepDue = s.stepDue := rfl
@[simp] theorem count_bootErrs (s : State) (c k n : Nat) : (s.count c k n).bootErrs = s.bootErrs := rfl
@[simp] theorem count_wbqs (s : State) (c k n : Nat) : (s.count c k n).wbqs = s.wbqs := rfl
@[simp] theorem count_parity (s : State) (c k n : Nat) : (s.count c k n).parity = s.parity := rfl
@[simp] theorem count_manifest (s : State) (c k n : Nat) : (s.count c k n).manifest = s.manifest := rfl
@[simp] theorem count_records (s : State) (c k n : Nat) : (s.count c k n).records = s.records := rfl
@[simp] theorem count_power (s : State) (c k n : Nat) : (s.count c k n).power = s.power := rfl
@[simp] theorem count_stepGroups (s : State) (c k n : Nat) : (s.count c k n).stepGroups = s.stepGroups := rfl
@[simp] theorem count_etches (s : State) (c k n : Nat) : (s.count c k n).etches = s.etches := rfl
@[simp] theorem count_recov (s : State) (c k n : Nat) : (s.count c k n).recov = s.recov := rfl
@[simp] theorem count_resyncSeq (s : State) (c k n : Nat) : (s.count c k n).resyncSeq = s.resyncSeq := rfl

end Sys2Proof.Laws
end

