-- ==== Sys2Proof/Tests/Meets.lean ====
section
/-! SUPPORT. The small machine of the witnesses, and the ways in which a witness shows that the hypotheses of a statement about an
encoded instruction can be met together. -/

namespace Sys2Proof.Tests

open Sys2Proof Sys2Proof.Machine Sys2Proof.Claims

/-- The machine with one resident group of 32 live lanes at PC 0. -/
def small : State := State.reset.probe

/-- The same, its group changed. -/
def smallWith (f : Group → Group) : State := small.modGroup 1 f

/-- The machine in which a write of an agent has been refused and is to be sent again much later. -/
def stuck (agent : Nat) (s : State) : State :=
  { s with mergeQ := [{ who := 3, agent := agent, pa := 2 ^ 42, bytes := [1], pois := false, due := 1000000 }] }

/-- A group in handler mode that came from TRAP at PC 0. -/
def toHandler (x : Group) : Group :=
  { x with handler := true, frontier := [], hfrontier := [{ pc := 0x480, prio := 0xFFF, mask := ~~~0 }],
           sr := { x.sr with trap := { cause := 0x012, pc := 0, prio := 0x800, mask := ~~~0, info := 0 } } }

/-- The machine whose group is in handler mode. -/
def handling : State := smallWith toHandler

/-- An instruction's fields: type, MOD, D, A, B, X; unguarded, no hint. -/
def enc (ty : Ty) (mod : BitVec 4) (d a b : Opnd) (x : BitVec 4) : Enc := ⟨false, 15, ty, 0, false, false, mod, d, a, b, x⟩

/-- Some state and instruction in hand meet every condition under which an instruction performs its effect. -/
def Met (priv : Bool) (us : State → Iss → List Use) (e : Enc) (ok : State → Iss → Prop) : Prop :=
  ∃ s c, CanIssue s e c ∧ (priv = true → c.x.handler = true) ∧ NoStop s e c (us s c) ∧ PortsServe s c (us s c) ∧
    ok (s.begun c (us s c)) (c.passed s (us s c))

/-- The same as a computation on one state. -/
def meets (s : State) (priv : Bool) (us : State → Iss → List Use) (e : Enc) (ok : State → Iss → Bool) : Bool :=
  match s.iss? e with
  | none => false
  | some c =>
    c.x.issuable && s.mayRun c.x && !c.x.engineWait && !guardNever e && !s.unitBusy c.g c.x && (!priv || c.x.handler)
      && decide (checkViews c.x (us s c) = none) && decide (checkPorts c.x (us s c) = none)
      && (dependsOn c.x (us s c)).isEmpty && !(touchedCvts c.x (us s c)).any (fun q => q.window != 0)
      && ((us s c).any (fun u => u.mat) || !s.matrixHolds c.g c.x e (us s c))
      && ((s.passed c (us s c)).portStop (c.passed s (us s c)) (us s c)).isNone
      && ok (s.begun c (us s c)) (c.passed s (us s c))

theorem meets_spec {s : State} {priv : Bool} {us : State → Iss → List Use} {e : Enc} {ok : State → Iss → Bool}
    (h : meets s priv us e ok = true) :
    ∃ c, CanIssue s e c ∧ (priv = true → c.x.handler = true) ∧ NoStop s e c (us s c) ∧ PortsServe s c (us s c) ∧
      ok (s.begun c (us s c)) (c.passed s (us s c)) = true := by
  unfold meets at h
  split at h
  · cases h
  · rename_i c hc
    simp only [Bool.and_eq_true, Bool.or_eq_true, Bool.not_eq_true', decide_eq_true_eq] at h
    obtain ⟨⟨⟨⟨⟨⟨⟨⟨⟨⟨⟨⟨h1, h2⟩, h3⟩, h4⟩, hb⟩, h5⟩, h6⟩, h7⟩, h8⟩, h9⟩, h10⟩, hq⟩, h11⟩ := h
    refine ⟨c, ⟨⟨hc, h1, h2, h3, h4⟩, hb⟩, fun hp => ?_, ⟨h6, h7, List.isEmpty_iff.mp h8, h9, h10⟩, Option.isNone_iff_eq_none.mp hq, h11⟩
    rcases h5 with h5 | h5
    · rw [hp] at h5; cases h5
    · exact h5

theorem met {s : State} {priv : Bool} {us : State → Iss → List Use} {e : Enc} {ok : State → Iss → Prop}
    [∀ s c, Decidable (ok s c)] (h : meets s priv us e (fun s c => decide (ok s c)) = true) : Met priv us e ok := by
  obtain ⟨c, h1, h2, h3, hq, h4⟩ := meets_spec h
  exact ⟨s, c, h1, h2, h3, hq, of_decide_eq_true h4⟩

/-- Some state and operands meet every condition under which an instruction computes lane by lane from sources that are no ports, or
across lanes, whatever its results are. -/
def Ready (us : State → Iss → List Use) (e : Enc) (srcs : List Src) : Prop :=
  ∃ s c st pop, CanIssue s e c ∧ NoStop s e c (us s c) ∧
    (s.begun c (us s c)).popAll (c.passed s (us s c)) (portsOf srcs) = .ok (st, pop) ∧
    st.phys.pipe = [] ∧
    ∀ (t : State) (n bits : Nat) (rs : List LaneRes) (late : Option (Nat × Bool × Bool)),
      ∃ w, t.putResults (c.passed s (us s c)) e.d n bits rs late = .ok w

/-- The destination is no stream port. -/
def notPort : Opnd → Bool
  | .port _ => false
  | _ => true

theorem ready {s : State} {us : State → Iss → List Use} {e : Enc} {srcs : List Src}
    (h : (decide (portsOf srcs = []) && notPort e.d && meets s false us e (fun s _ => decide (s.phys.pipe = []))) = true) :
    Ready us e srcs := by
  simp only [Bool.and_eq_true, decide_eq_true_eq] at h
  obtain ⟨⟨hp, hd⟩, hm⟩ := h
  obtain ⟨c, h1, -, h3, -, h4⟩ := meets_spec hm
  refine ⟨s, c, s.begun c (us s c), [], h1, h3, by rw [hp]; rfl, of_decide_eq_true h4, fun t n bits rs late => ?_⟩
  unfold State.putResults
  split
  · rename_i k hk
    rw [hk] at hd; cases hd
  · exact ⟨_, rfl⟩

end Sys2Proof.Tests
end

