-- ==== Sys2Proof/Tests/Slice0.lean ====
section
/-! SUPPORT. Small tests: ill-formed instructions that each check refuses, words written out from the encoding tables, and single
steps of the small machine with one resident group. -/

namespace Sys2Proof.Tests

set_option Elab.async false

open Sys2Proof Sys2Proof.Machine

/-! ### Well-formedness: one ill-formed instruction for each check of R89 -/

/-- IADD.i32 v1, v0, 1 with fields to spoil. -/
def iaddWith (ty : Ty) (la : BitVec 4) (uni : Bool) (mod : BitVec 4) (d a b : Opnd) (x : BitVec 4) : Instr :=
  .iadd ⟨false, 15, ty, la, uni, false, mod, d, a, b, x⟩

/-- IADD.i32 v1, v0, 1 is well formed. -/
theorem test_wf_iadd : (iaddWith .i32 0 false 0 (.view 0 1) (.view 0 0) (.imm 1) 0).wf = true := by decide +kernel
/-- LA is legal on long-latency instructions only (R87). -/
theorem test_wf_hint_la : (iaddWith .i32 1 false 0 (.view 0 1) (.view 0 0) (.imm 1) 0).wf = false := by decide +kernel
/-- UNI is legal on branches only (R87). -/
theorem test_wf_hint_uni : (iaddWith .i32 0 true 0 (.view 0 1) (.view 0 0) (.imm 1) 0).wf = false := by decide +kernel
/-- IADD takes no F type (R106). -/
theorem test_wf_type : (iaddWith .f32 0 false 0 (.view 0 1) (.view 0 0) (.imm 1) 0).wf = false := by decide +kernel
/-- MOD has one modifier bit (R106). -/
theorem test_wf_mod : (iaddWith .i32 0 false 2 (.view 0 1) (.view 0 0) (.imm 1) 0).wf = false := by decide +kernel
/-- X is not used (R86). -/
theorem test_wf_x : (iaddWith .i32 0 false 0 (.view 0 1) (.view 0 0) (.imm 1) 1).wf = false := by decide +kernel
/-- A predicate is no value destination (R101). -/
theorem test_wf_class_d : (iaddWith .i32 0 false 0 (.pred 1) (.view 0 0) (.imm 1) 0).wf = false := by decide +kernel
/-- A field that the instruction has may not be missing (R81). -/
theorem test_wf_class_missing : (iaddWith .i32 0 false 0 (.view 0 1) .nil (.imm 1) 0).wf = false := by decide +kernel
/-- A wide pair stands only where source a is wide-capable (R82). -/
theorem test_wf_wide : (iaddWith .i32 0 false 0 (.view 0 1) (.wide 5) .nil 0).wf = false := by decide +kernel
/-- A scalar destination takes no vector source (R68). -/
theorem test_wf_scalar_dest : (iaddWith .i32 0 false 0 (.scal 1) (.view 0 0) (.imm 1) 0).wf = false := by decide +kernel
/-- Rounding codes 5 to 7 (R45). -/
theorem test_wf_rounding : (Instr.fadd ⟨false, 15, .f32, 0, false, false, 5, .view 0 1, .view 0 0, .imm 1, 0⟩).wf = false := by
  decide +kernel
/-- An unused field must be zero (R81). -/
theorem test_wf_unused : (Instr.nop ⟨false, 15, .b8, 0, false, false, 0, .nil, .scal 0, .nil, 0⟩).wf = false := by decide +kernel
/-- Bits 19 to 12 of a branch's priority are zero (R83). -/
theorem test_wf_priority : (Instr.bra ⟨false, 15, .b8, 0, false, false, 0, .raw 1, .raw 0x1000, .raw 0, 0⟩).wf = false := by decide +kernel

/-! ### Decode: words written out field by field from R78 and the encoding tables -/

/-- OP, GRD, TY, HINT, MOD, D, A, B, X as R78 lays them out. -/
def word (op : BitVec 10) (grd ty : BitVec 5) (hint : BitVec 8) (mod : BitVec 4) (d a b : BitVec 20) (x : BitVec 4) : BitVec 96 :=
  op ++ grd ++ ty ++ hint ++ mod ++ d ++ a ++ b ++ x

/-- Decode of a word is the instruction. -/
def reads (w : BitVec 96) (i : Instr) : Bool :=
  match decodeWord w with
  | .ok j => decide (j = i)
  | .error _ => false

/-- Decode of a word is refused for this reason. -/
def refusedFor (w : BitVec 96) (why : DecodeCause) : Bool :=
  match decodeWord w with
  | .ok _ => false
  | .error c => decide (c = why)

/-- BRA loop, 0x300, 0x100 | uni, ten instructions back (04_encoding.md). -/
theorem test_decode_bra : reads (word 0x001 0x0F 0x00 0x08 0x0 0xFFFF6 0x00300 0x00100 0x0)
    (.bra ⟨false, 15, .b8, 0, true, false, 0, .raw 0xFFFF6, .raw 0x300, .raw 0x100, 0⟩) = true := by decide +kernel
/-- SWR.b32 %seed, 0x12345678: a wide pair (R82, R170). -/
theorem test_decode_swr : reads (word 0x010 0x0F 0x02 0x00 0x0 0x90021 0xF1234 0xF5678 0x0)
    (.swr ⟨false, 15, .b32, 0, false, false, 0, .sys .seed, .wide 0x12345678, .nil, 0⟩) = true := by decide +kernel
/-- (!p2) IADD.sat.i32 v1, w3, −1 (R106). -/
theorem test_decode_iadd : reads (word 0x042 0x12 0x06 0x00 0x1 0x00001 0x10003 0xAFFFF 0x0)
    (.iadd ⟨true, 2, .i32, 0, false, false, 1, .view 0 1, .view 1 3, .imm 0xFFFF, 0⟩) = true := by decide +kernel
/-- SEL.p1 s3, s1, s2: the sources are scalar, so it is a scalar form (R68, R108). -/
theorem test_decode_sel_scalar : reads (word 0x041 0x0F 0x06 0x00 0x0 0x60003 0x60001 0x60002 0x1)
    (.sel ⟨false, 15, .i32, 0, false, false, 0, .scal 3, .scal 1, .scal 2, 1⟩) = true := by decide +kernel
/-- FDIV.rtz.f32 v1, v0, s2 | la=3 (R87, R120). -/
theorem test_decode_fdiv : reads (word 0x0C9 0x0F 0x10 0x30 0x1 0x00001 0x00000 0x60002 0x0)
    (.fdiv ⟨false, 15, .f32, 3, false, false, 1, .view 0 1, .view 0 0, .scal 2, 0⟩) = true := by decide +kernel
/-- CVT.rne.f16.f32 v1, l0: the source type code 0x10 in MOD[3] and X (R132). -/
theorem test_decode_cvt : reads (word 0x140 0x0F 0x0F 0x00 0x8 0x00001 0x50000 0x00000 0x0)
    (.cvt ⟨false, 15, .f16, 0, false, false, 8, .view 0 1, .last 0, .nil, 0⟩) = true := by decide +kernel
/-- SHFN.f32 v5, v1, 1 (R144). -/
theorem test_decode_shfn : reads (word 0x182 0x0F 0x10 0x00 0x0 0x00005 0x00001 0xA0001 0x0)
    (.shfn ⟨false, 15, .f32, 0, false, false, 0, .view 0 5, .view 0 1, .imm 1, 0⟩) = true := by decide +kernel
/-- The copy issue (p3) ST.b64 s25, %capbase, 0 (22_programs_ring_poison.md). -/
theorem test_decode_st : reads (word 0x1C1 0x03 0x03 0x00 0x0 0x60019 0x90043 0xA0000 0x5)
    (.st ⟨false, 3, .b64, 0, false, false, 0, .scal 25, .sys .capbase, .imm 0, 5⟩) = true := by decide +kernel
/-- SPBIND sp3, s5 (R208). -/
theorem test_decode_spbind : reads (word 0x244 0x0F 0x00 0x00 0x0 0x80003 0x60005 0x00000 0x0)
    (.spbind ⟨false, 15, .b8, 0, false, false, 0, .port 3, .scal 5, .nil, 0⟩) = true := by decide +kernel
/-- BARRW.ln p2, 5 (09_isa_sync.md). -/
theorem test_decode_barrw : reads (word 0x283 0x0F 0x00 0x00 0x1 0x70002 0xA0005 0x00000 0x0)
    (.barrw ⟨false, 15, .b8, 0, false, false, 1, .pred 2, .imm 5, .nil, 0⟩) = true := by decide +kernel
/-- MLOOP.g1.ob0.a80f c0, t0, t4 (08_isa_matrix.md). -/
theorem test_decode_mloop : reads (word 0x2C0 0x0F 0x12 0x00 0x1 0x30000 0x20000 0x20004 0x0)
    (.mloop ⟨false, 15, .a80f, 0, false, false, 1, .view 3 0, .view 2 0, .view 2 4, 0⟩) = true := by decide +kernel
/-- The bytes of a word, the least significant first (R79; the example of 04_encoding.md). -/
theorem test_bytes_of_word : bytesOfWord 0x302700420000740002AFFFD0 =
    [0xD0, 0xFF, 0xAF, 0x02, 0x00, 0x74, 0x00, 0x00, 0x42, 0x00, 0x27, 0x30] := by decide +kernel
/-- The words of the manual are the encodings of what they decode to. -/
theorem test_encode_st : encode (.st ⟨false, 3, .b64, 0, false, false, 0, .scal 25, .sys .capbase, .imm 0, 5⟩) =
    some 0x70463000600199_0043A00005 := by decide +kernel

/-- The first failing check names the cause (R89). -/
theorem test_reject_in_order :
    refusedFor (word 0x3FF 0 0x1F 0xFF 0xF 0 0 0 0) .fillOpcode && refusedFor (word 0x3FE 0 0x1F 0xFF 0xF 0 0 0 0) .illegalOpcode
      && refusedFor (word 0x0C0 0 0x1F 0x01 0xF 0 0 0 1) .illegalHint && refusedFor (word 0x0C0 0 0x1F 0x00 0xF 0 0 0 1) .illegalType
      && refusedFor (word 0x0C0 0 0x10 0x00 0x7 0x70000 0 0 1) .illegalRounding
      && refusedFor (word 0x0C0 0 0x10 0x00 0x9 0x70000 0 0 0) .illegalMod
      && refusedFor (word 0x0C0 0 0x10 0x00 0x0 0x70000 0x9FFFF 0 0) .illegalClass
      && refusedFor (word 0x0C0 0 0x10 0x00 0x0 0 0x9FFFF 0 0) .illegalSysreg = true := by decide +kernel

/-! ### Single steps of the machine with one resident group (the instruction is stored where the step fetches it) -/

/-- A step of the small machine on a word: the group after it. -/
def after (s : State) (w : BitVec 96) : Option Group :=
  match step (s.withFetchWord 96 w.toNat) with
  | .next t => t.group? 1
  | _ => none

/-- The small machine with registers of its group set. -/
def machineWith (f : Group → Group) : State := State.reset.probe.modGroup 1 f

/-- The 32-bit word of register space at v k in lane l, as a step leaves it (the views of a start: R292). -/
def wordAt (x : Option Group) (k : BitVec 16) (l : Nat) : Option Nat :=
  x.map (fun x => (readWords x.rf.win (vwAddr (x.view 0) k.toNat l) 4).1)

/-- IADD wraps: 2^32 − 1 + 1 is 0 (R109); every lane moves on (R153). -/
theorem test_iadd_wraps :
    let x := after (machineWith (fun x => x.setScal 1 0xFFFFFFFF 32 false)) (word 0x042 0x0F 0x06 0 0 0x60002 0x60001 0xA0001 0)
    x.map (fun x => ((cget {} x.rf.scal 2).v, x.frontier)) = some (0, [{ pc := 1, prio := 0x800, mask := ~~~0 }]) := by decide +kernel
/-- IADD.sat clamps and sets ST (R48). -/
theorem test_iadd_sat :
    (after (machineWith (fun x => x.setScal 1 0x7FFFFFFF 32 false)) (word 0x042 0x0F 0x06 0 1 0x60002 0x60001 0xA0001 0)).map
      (fun x => ((cget {} x.rf.scal 2).v, x.sr.fstat != 0)) = some (0x7FFFFFFF, true) := by decide +kernel
/-- IDIV by 0 gives all ones (R111). -/
theorem test_idiv_zero :
    (after (machineWith (fun x => x.setScal 1 7 32 false)) (word 0x04A 0x0F 0x06 0 0 0x60002 0x60001 0xA0000 0)).map
      (fun x => (cget {} x.rf.scal 2).v) = some 0xFFFFFFFF := by decide +kernel
/-- SAR by the width or more fills with the sign (R115). -/
theorem test_sar_full :
    (after (machineWith (fun x => x.setScal 1 0x80000000 32 false)) (word 0x058 0x0F 0x02 0 0 0x60002 0x60001 0xA0020 0)).map
      (fun x => (cget {} x.rf.scal 2).v) = some 0xFFFFFFFF := by decide +kernel
/-- FADD.f32: 1 + (−3) is −2 (R121; the immediate is converted, R82). -/
theorem test_fadd :
    (after (machineWith (fun x => x.setScal 1 0x3F800000 32 false)) (word 0x0C0 0x0F 0x10 0 0 0x60002 0x60001 0xAFFFD 0)).map
      (fun x => (cget {} x.rf.scal 2).v) = some 0xC0000000 := by decide +kernel
/-- FMIN takes the number beside a NaN (R123). -/
theorem test_fmin_nan :
    (after (machineWith (fun x => x.setScal 1 0x7FC00000 32 false)) (word 0x0C4 0x0F 0x10 0 0 0x60002 0x60001 0xA0001 0)).map
      (fun x => (cget {} x.rf.scal 2).v) = some 0x3F800000 := by decide +kernel
/-- ICMP.lt.i32 p1, −1, 0 is signed (R113); only the lanes of `act` are written. -/
theorem test_icmp_signed :
    (after (machineWith (fun x => (x.setScal 1 0xFFFFFFFF 32 false).setPred 2 (~~~0) 5)) (word 0x050 0x02 0x06 0 2 0x70001 0x60001 0xA0000 0)).map
      (fun x => cget 0 x.rf.preds 1) = some 5 := by decide +kernel
/-- BRA under a predicate: the lanes taken go to the target with the taken priority, the others to the next instruction (R156). -/
theorem test_bra_splits :
    (after (machineWith (fun x => x.setPred 1 (~~~0) 3)) (word 0x001 0x01 0 0 0 0x00003 0x00700 0x00800 0)).map (fun x => x.frontier.length)
      = some 2 := by decide +kernel
/-- TRAP 5: the handler's entry, the cause, `%tinfo` (R164, R165). -/
theorem test_trap :
    (after State.reset.probe (word 0x009 0x0F 0 0 0 0 0xA0005 0 0)).map (fun x => (x.handler, x.sr.trap.info, x.hfrontier.map (fun e => e.mask)))
      = some (true, 5, [~~~0]) := by decide +kernel
/-- RFT outside handler mode raises PRIV (R93). -/
theorem test_rft_priv :
    (after State.reset.probe (word 0x00A 0x0F 0 0 0 0 0 0 0)).map (fun x => decide (x.sr.trap.cause = cPRIV)) = some true := by decide +kernel
/-- A word of an unassigned opcode raises ILLEGAL_OPCODE (R92). -/
theorem test_illegal_opcode :
    (after State.reset.probe (word 0x3FE 0x0F 0 0 0 0 0 0 0)).map (fun x => decide (x.sr.trap.cause = cILLEGAL_OPCODE)) = some true := by
  decide +kernel
/-- A view index at COUNT raises VIEW_RANGE (R63): v has no element 4,095. -/
theorem test_view_range :
    (after State.reset.probe (word 0x042 0x0F 0x06 0 0 0x00FFF 0x60001 0xA0001 0)).map (fun x => decide (x.sr.trap.cause = cVIEW_RANGE))
      = some true := by decide +kernel
/-- ST.b32 s1, s2, 0 and LD.b32 s3, s2, 0: a scalar goes to memory and comes back (R184, R182). -/
theorem test_store_then_load :
    (match step ((machineWith (fun x => (x.setScal 1 0x1234 32 false).setScal 2 0x20000 64 false)).withFetchWord 96
        (word 0x1C1 0x0F 0x02 0 0 0x60001 0x60002 0xA0000 0x5).toNat) with
      | .next t => t.grantAll.memBytes (probeMem + 0x20000) 4
      | _ => []) = [0x34, 0x12, 0, 0] := by decide +kernel
/-- MOV of a lane's number: `%lane` into v1 (R69, R107). -/
theorem test_mov_lane :
    wordAt (after State.reset.probe (word 0x040 0x0F 0x02 0 0 0x00001 0x90000 0 0)) 1 7 = some 7 := by decide +kernel

end Sys2Proof.Tests
end

