-- ==== Sys2Proof/Tests/WitnessCompute.lean ====
section
/-! SUPPORT. Witnesses for the statements about instructions that compute, about branches, traps and system registers: for each, a state
and operands that meet its hypotheses together. -/

namespace Sys2Proof.Tests

set_option Elab.async false

open Sys2Proof Sys2Proof.Machine Sys2Proof.Claims

/-! ### Integer and logic, predicates -/

/-- v1 ← v0, 1 in type i32. -/
def eInt : Enc := enc .i32 0 (.view 0 1) (.view 0 0) (.imm 1) 0
/-- p1 ← v0, 1 in type i32, condition `.lt`. -/
def eCmp : Enc := enc .i32 2 (.pred 1) (.view 0 0) (.imm 1) 0
/-- v1 ← v0, 1 in type f32. -/
def eFlt : Enc := enc .f32 0 (.view 0 1) (.view 0 0) (.imm 1) 0

theorem lanes_int : ∀ p ∈ laneForms eInt,
    (decide (portsOf p.2 = []) && notPort eInt.d && meets small false (opUses p.2 eInt.d 4) eInt (fun s _ => decide (s.phys.pipe = [])))
      = true := by decide +kernel

theorem witness_IntegerArithmetic : ∀ p ∈ laneForms eInt, Ready (opUses p.2 eInt.d 4) eInt p.2 := fun p h => ready (lanes_int p h)

theorem witness_BitwiseLogic : Ready (opUses (ab eInt) eInt.d 4) eInt (ab eInt) := witness_IntegerArithmetic (.iadd eInt, ab eInt) (by simp [laneForms])

theorem witness_Shifts : Ready (opUses (ab eInt) eInt.d 4) eInt (ab eInt) := witness_BitwiseLogic

theorem witness_BitCounts : Ready (opUses [{ o := eInt.a, ty := eInt.ty }] eInt.d 4) eInt [{ o := eInt.a, ty := eInt.ty }] :=
  witness_IntegerArithmetic (.popc eInt, [{ o := eInt.a, ty := eInt.ty }]) (by simp [laneForms])

/-- BFE's operands, and MOV's of an accumulator element. -/
theorem witness_FieldsAndMoves :
    Ready (opUses [{ o := eInt.a, ty := eInt.ty }, asWord eInt] eInt.d 4) eInt [{ o := eInt.a, ty := eInt.ty }, asWord eInt] ∧
    (let e := enc .a80i 0 (.rs 0x100) (.rs 0x200) .nil 0
     e.ty = .a80i ∧ Ready (opUses [{ o := e.a, ty := e.ty }] e.d 12) e [{ o := e.a, ty := e.ty }]) :=
  ⟨witness_IntegerArithmetic (.bfe eInt, [{ o := eInt.a, ty := eInt.ty }, asWord eInt]) (by simp [laneForms]),
   rfl, ready (s := small) (by decide +kernel)⟩

/-- A lane at the end of its range; ICMP and FCMP; PLOP; PMOV's forms. -/
theorem witness_Predicates :
    (31 < 32) ∧ (Instr.icmp eCmp).wf = true ∧ Ready (opUses (ab eCmp) eCmp.d 0) eCmp (ab eCmp) ∧
    Met false (fun _ _ => []) (enc .b8 1 (.pred 1) (.pred 2) (.pred 3) 0) (fun _ _ => True) ∧
    (let e := enc .b32 0 (.pred 1) (.view 0 0) .nil 0
     (∃ k, e.d = .pred k) ∧ e.mod.getLsbD 0 = false ∧ Ready (opUses [{ o := e.a, ty := e.ty }] e.d 0) e [{ o := e.a, ty := e.ty }]) ∧
    (let e := enc .b32 1 (.pred 1) (.scal 0) .nil 0
     (∃ k, e.d = .pred k) ∧ e.mod.getLsbD 0 = true ∧ Met false (opUses [{ o := e.a, ty := e.ty }] e.d 0) e (fun _ _ => True)) ∧
    (let e := enc .b32 0 (.view 0 1) (.pred 2) .nil 0
     (∀ k, e.d ≠ .pred k) ∧ Ready (opUses [] e.d 4) e []) :=
  ⟨by decide, by decide +kernel, ready (s := small) (by decide +kernel), met (s := small) (by decide +kernel),
   ⟨⟨1, rfl⟩, rfl, ready (s := small) (by decide +kernel)⟩, ⟨⟨1, rfl⟩, rfl, met (s := small) (by decide +kernel)⟩,
   ⟨(by intro k h; cases h), ready (s := small) (by decide +kernel)⟩⟩

/-! ### Floating point, conversion, across lanes -/

theorem lanes_flt : ∀ p ∈ laneForms eFlt,
    (decide (portsOf p.2 = []) && notPort eFlt.d && meets small false (opUses p.2 eFlt.d 4) eFlt (fun s _ => decide (s.phys.pipe = [])))
      = true := by decide +kernel

/-- The forms of the type; FDOT2 of pairs; AADD of elements in register space; a type and a number that the special cases are about. -/
theorem witness_FloatArithmetic :
    (∀ p ∈ laneForms eFlt, Ready (opUses p.2 eFlt.d 4) eFlt p.2) ∧
    (let e := enc .f16 0 (.view 0 1) (.view 0 0) (.view 0 2) 0
     let q : List Src := [pairSrc e.ty e.a, pairSrc e.ty e.b, { o := cOpnd e, ty := .f32 }]
     Ready (opUses q e.d 4) e q) ∧
    (let e := enc .a80f 0 (.rs 0x100) (.rs 0x200) (.rs 0x300) 0
     Ready (opUses (ab e) e.d 12) e (ab e)) ∧
    ((∃ f, Ty.fmt .f32 = some f) ∧ Ty.f32 ≠ .e4m3 ∧ (1 : Nat) ≠ 0 ∧ (0 : Int) ≤ 0) :=
  ⟨fun p h => ready (lanes_flt p h), ready (s := small) (by decide +kernel), ready (s := small) (by decide +kernel), ⟨_, rfl⟩, by decide⟩

/-- Finite values, opposite infinities, a tie that rne takes to the even side, a division of a number by zero. -/
theorem witness_RoundingAndExactness :
    [Val.fin false 1 0, .fin true 3 (-2)].all isFin = true ∧ [Val.inf false, .inf true].any Val.isNaN = false ∧
    (Val.inf false ∈ [Val.inf false, .inf true] ∧ Val.inf true ∈ [Val.inf false, .inf true]) ∧
    2 * (((roundUnits .rne false 1 6 2 false).1 * 2 ^ 2 : Nat) - (6 : Int)).natAbs = 2 ^ 2 ∧
    (∃ f, Ty.fmt .f32 = some f) ∧ Ty.f32 ≠ .e4m3 ∧ (1 : Nat) ≠ 0 :=
  ⟨by decide, by decide, by decide, by decide +kernel, ⟨_, rfl⟩, by decide, by decide⟩

theorem witness_FloatOrder :
    isFin (.fin true 0 5) = true ∧ isFin (.fin false 3 (-7)) = true ∧
    Ready (opUses (ab eFlt) eFlt.d 4) eFlt (ab eFlt) ∧
    Ready (opUses [{ o := eFlt.a, ty := eFlt.ty }] eFlt.d 4) eFlt [{ o := eFlt.a, ty := eFlt.ty }] :=
  ⟨rfl, rfl, witness_FloatArithmetic.1 (.fadd eFlt, ab eFlt) (by simp [laneForms]),
   witness_FloatArithmetic.1 (.frnd eFlt, [{ o := eFlt.a, ty := eFlt.ty }]) (by simp [laneForms])⟩

/-- CVT.f16.f32, DQBLK of i8, RESID of a80i, PACK and UNPK in both forms, QBLK.i8-like blocks of sm8; a block's largest magnitude. -/
theorem witness_Conversions :
    (let e := enc .f16 8 (.view 0 1) (.view 0 0) .nil 0
     Ready (opUses [{ o := e.a, ty := tyAt (styCode e.mod e.x) }] e.d 2) e [{ o := e.a, ty := tyAt (styCode e.mod e.x) }]) ∧
    (let e := enc .f32 0 (.view 0 1) (.view 0 0) (.imm 127) 12
     Ready (opUses [{ o := e.a, ty := tyAt e.x.toNat }, { o := e.b, ty := .sx8 }] e.d 4) e
       [{ o := e.a, ty := tyAt e.x.toNat }, { o := e.b, ty := .sx8 }]) ∧
    (let e := enc .a80i 0 (.view 0 1) (.rs 0x100) .nil 0
     Ready (opUses [{ o := e.a, ty := e.ty }] e.d 4) e [{ o := e.a, ty := e.ty }]) ∧
    (let e := enc .sm4 0 (.view 0 1) (.view 0 0) (.view 0 2) 8
     (e.ty = .sm4 ∨ e.ty = .sm6) ∧ Ready (opUses (both e .b32) e.d 4) e (both e .b32)) ∧
    (let e := enc .f16 8 (.view 0 1) (.view 0 0) (.view 0 2) 0
     ¬(e.ty = .sm4 ∨ e.ty = .sm6) ∧ Ready (opUses (both e .f32) e.d 4) e (both e .f32)) ∧
    (let e := enc .sm4 0 (.opf 1) (.view 0 0) .nil 0
     (e.ty = .sm4 ∨ e.ty = .sm6) ∧ Ready (opUses [{ o := e.a, ty := .b32 }] e.d 8) e [{ o := e.a, ty := .b32 }]) ∧
    (let e := enc .sm8 0 (.view 0 1) (.view 0 0) (.view 0 2) 0
     Ready (qblkUses e) e [{ o := e.a, ty := .f32 }] ∧
       ∀ (t : State) (c : Iss) (bits : Nat) (rs : List (LaneRes × LaneRes)), ∃ w, t.putPairs c e.d e.b bits rs = .ok w) ∧
    ([Val.nan false, .inf true].any Val.isNaN = true ∧
      ([Val.fin false 1 0, .inf false].any Val.isNaN = false ∧ [Val.fin false 1 0, .inf false].any Val.isInf = true) ∧
      ([Val.fin true 0 0].all isFin = true ∧ [Val.fin true 0 0].any (fun v => rat v != 0) = false) ∧
      [Val.fin false 5 0].all isFin = true ∧ [Val.fin false 5 0].any (fun v => rat v != 0) = true) :=
  ⟨ready (s := small) (by decide +kernel), ready (s := small) (by decide +kernel), ready (s := small) (by decide +kernel),
   ⟨by decide, ready (s := small) (by decide +kernel)⟩, ⟨by decide, ready (s := small) (by decide +kernel)⟩,
   ⟨by decide, ready (s := small) (by decide +kernel)⟩, ⟨ready (s := small) (by decide +kernel), fun _ _ _ _ => ⟨_, rfl⟩⟩,
   by decide, by decide, by simp [isFin, rat], by decide, by simp [rat]⟩

/-- A shuffle by an immediate; a reduction; VOTE to a predicate and `.ballot`; MATCH and CMPK. -/
theorem witness_CrossLane :
    (let e := enc .f32 0 (.view 0 1) (.view 0 0) (.imm 1) 0
     Ready (fun s c => { o := e.d, n := 4, lanes := c.act, dest := true } ::
         { o := e.a, n := 4, lanes := shuffled s c e (fun _ i => inGroup i) } ::
         [indexSrc e].map (fun q => { o := q.o, n := 4, lanes := c.act })) e [{ o := e.a, ty := e.ty }, indexSrc e] ∧
       ∀ s c, indexInWindow s c e (fun _ i => inGroup i)) ∧
    Ready (opUses [{ o := eInt.a, ty := eInt.ty }] eInt.d 4) eInt [{ o := eInt.a, ty := eInt.ty }] ∧
    (let e := enc .b8 0 (.pred 1) (.pred 2) .nil 0
     e.mod.toNat % 4 ≠ 3 ∧ Met false (fun _ _ => []) e (fun _ _ => True)) ∧
    (let e := enc .b32 3 (.view 0 1) (.pred 2) .nil 0
     e.mod.toNat % 4 = 3 ∧ Ready (opUses [] e.d 4) e []) :=
  ⟨⟨ready (s := small) (by decide +kernel), fun _ _ _ _ _ h => by cases h⟩, witness_BitCounts, ⟨by decide, met (s := small) (by decide +kernel)⟩,
   ⟨by decide, ready (s := small) (by decide +kernel)⟩⟩

theorem witness_IntegerReductions : Ty.isFloat .i32 = false ∧ (∀ v ∈ [0xFFFFFFFF, 1], v < 2 ^ Ty.bits .i32) ∧ [0xFFFFFFFF, 1] ≠ ([] : List Nat) := by
  decide

/-! ### Control flow -/

/-- A branch three instructions on, priorities 0x700 and 0x800. -/
def eBra : Enc := ⟨false, 15, .b8, 0, true, false, 0, .raw 3, .raw 0x700, .raw 0x800, 8⟩

/-- A group whose return stacks hold n entries. -/
def stacked (n : Nat) (x : Group) : Group :=
  (List.range 32).foldl (fun x l => x.setStack l (List.replicate n { pc := 9, prio := 0x800 })) x

theorem witness_Branches :
    Met false (fun _ _ => []) eBra (fun _ c => isUniform eBra c (fun _ => target eBra c) ∧ onCode c.act (fun _ => target eBra c)) ∧
    Met false (perLane (.opf 0)) eBra (fun s c =>
      unpoisoned s c (briSrc eBra) ∧ isUniform eBra c (briTarget eBra s c) ∧ onCode c.act (briTarget eBra s c)) ∧
    Met false (fun _ _ => []) eBra (fun _ c =>
      isUniform eBra c (fun l => if (c.act &&& c.x.sr.eos).getLsbD l then target eBra c else c.ent.pc.toNat + 1) ∧
        onCode (c.act &&& c.x.sr.eos) (fun _ => target eBra c)) ∧
    Met false (fun _ _ => []) eBra (fun _ c =>
      roomToCall c ∧ isUniform eBra c (fun _ => target eBra c) ∧ onCode c.act (fun _ => target eBra c)) ∧
    (let e := enc .b8 0 .nil (.scal 1) (.imm 0x800) 0
     Met false (perLane e.a) e (fun s c =>
       unpoisoned s c (calliSrc e) ∧ roomToCall c ∧ isUniform e c (fun l => ((s.readSrc c.x [] (calliSrc e) l).1 : Int)))) ∧
    Met false (fun _ _ => []) eBra (fun _ c =>
      (∀ l ∈ lanesOf c.act, c.x.stack l ≠ []) ∧ isUniform eBra c (fun l => (top c l).pc.toNat * 4096 + (top c l).prio.toNat)) :=
  ⟨met (s := small) (by decide +kernel), met (s := small) (by decide +kernel), met (s := small) (by decide +kernel),
   met (s := smallWith (stacked 15)) (by decide +kernel), met (s := small) (by decide +kernel), met (s := smallWith (stacked 1)) (by decide +kernel)⟩

theorem witness_LanesMove : (5 : Mask) ≠ 0 ∧ (4 : Mask) &&& 5 ≠ 0 := by decide

/-- A branch back from PC 0; lanes that disagree; a full stack, an empty one; a poisoned index. -/
theorem witness_BranchStops :
    Met false (fun _ _ => []) eBra (fun _ c => ¬isUniform eBra c (fun l => (l : Int))) ∧
    (let e : Enc := { eBra with uni := false, d := .raw 0xFFFFF }
     Met false (fun _ _ => []) e (fun _ c =>
       isUniform e c (fun _ => target e c) ∧ c.act ≠ 0 ∧ (target e c < 0 ∨ 2 ^ 24 ≤ target e c))) ∧
    (let e : Enc := { eBra with uni := false, d := .raw 0xFFFFF }
     Met false (perLane (.opf 0)) e (fun s c =>
       unpoisoned s c (briSrc e) ∧ isUniform e c (briTarget e s c) ∧ ¬onCode c.act (briTarget e s c))) ∧
    Met false (perLane (.opf 0)) eBra (fun s c => ¬unpoisoned s c (briSrc eBra)) ∧
    Met false (fun _ _ => []) eBra (fun _ c => ¬roomToCall c) ∧
    Met false (fun _ _ => []) eBra (fun _ c => ∃ l ∈ lanesOf c.act, c.x.stack l = []) :=
  ⟨met (s := small) (by decide +kernel), met (s := small) (by decide +kernel), met (s := small) (by decide +kernel),
   met (s := smallWith (fun x => { x with rf := { x.rf with ofile := [(3, { v := 0, p := 1 })] } })) (by decide +kernel),
   met (s := smallWith (stacked 16)) (by decide +kernel), met (s := small) (by decide +kernel)⟩

/-- NOP and YIELD; SLEEP; a marked and a sleeping group; EXIT with and without a lane whose batches are all outstanding, and in the
handler. -/
theorem witness_ExitYieldSleep :
    Met false (fun _ _ => []) (enc .b8 0 .nil .nil .nil 0) (fun _ _ => True) ∧
    (let e := enc .b8 0 .nil (.imm 100) .nil 0
     Met false (uniChecks [e.a]) e (fun s c => c.act = 0 ∨ (uni s c e.a .b32).2 = false)) ∧
    ((smallWith (fun x => { x with yieldEnd := some 0, sleepEnd := some 0 })).group? 1).map (fun x => (x.yieldEnd, x.sleepEnd, decide (x.st = .saved)))
      = some (some 0, some 0, false) ∧ small.cycle = 0 ∧
    Met false (fun _ _ => []) (enc .b8 0 .nil .nil .nil 0) (fun s c =>
      c.x.handler = false ∧ s.portLocked c.g c.x.core = false ∧ (∀ l ∈ sealing c, (c.x.lane l).outstanding < 8) ∧ Unlogged s) ∧
    Met false (fun _ _ => []) (enc .b8 0 .nil .nil .nil 0) (fun s c =>
      c.x.handler = false ∧ (s.portLocked c.g c.x.core = true ∨ ∃ l ∈ sealing c, 8 ≤ (c.x.lane l).outstanding)) ∧
    Met false (fun _ _ => []) (enc .b8 0 .nil .nil .nil 0) (fun _ c => c.x.handler = true) ∧ (31 < 32) :=
  ⟨met (s := small) (by decide +kernel), met (s := small) (by decide +kernel), by decide +kernel, rfl,
   met (s := small) (by decide +kernel),
   met (s := smallWith (fun x => x.modLane 3 (fun q => { q with openN := 1, bout := 0xFF }))) (by decide +kernel),
   met (s := handling) (by decide +kernel), by decide⟩

end Sys2Proof.Tests
end

