-- ==== Sys2Proof/Tests/WitnessMemory.lean ====
section
/-! SUPPORT. Witnesses for the statements about traps, system registers, and accesses to memory. -/

namespace Sys2Proof.Tests

set_option Elab.async false

open Sys2Proof Sys2Proof.Machine Sys2Proof.Claims

/-! ### Traps and system registers -/

/-- No operand. -/
def eNone : Enc := enc .b8 0 .nil .nil .nil 0

/-- The group of a state. -/
def grp (s : State) : Group := (s.group? 1).getD probeGroup

/-- A cause for lanes 0 to 3 outside the handler; one in the handler, of a context that is ACTIVE; a matrix cause and the watchdog's. -/
theorem witness_TrapEntry :
    (trappable small 1 (grp small) { pc := 0, prio := 0x800, mask := ~~~0 } 15 ∧ raisable 0x081 = true ∧ (grp small).handler = false) ∧
    (trappable handling 1 (grp handling) { pc := 0x480, prio := 0xFFF, mask := ~~~0 } 15 ∧ (grp handling).handler = true ∧
      (handling.ctx 0).st = .active) ∧
    (let s := smallWith (fun x => { x with asyncMat := some { cause := 0x102, info := 1 }, asyncWd := some { cause := 0x103, info := 0 } })
     s.group? 1 = some (grp s) ∧ (grp s).chosen = some { pc := 0, prio := 0x800, mask := ~~~0 } ∧ (grp s).takesAsync = true ∧
       s.mayRun (grp s) = true ∧ (grp s).asyncMat = some { cause := 0x102, info := 1 }) ∧
    (let s := smallWith (fun x => { x with asyncWd := some { cause := 0x103, info := 0 } })
     (grp s).takesAsync = true ∧ (grp s).asyncMat = none ∧ (grp s).asyncWd = some { cause := 0x103, info := 0 }) := by
  decide +kernel

/-- TRAP and BRK over lanes and over none, with the context's debug enable 0 and 1; RFT and ENDG in the handler; a team that ENDG ends. -/
theorem witness_TrapsAndReturns :
    Met false (fun _ _ => []) eNone (fun _ c => c.act ≠ 0) ∧
    Met false (fun _ _ => []) { eNone with grd := 2 } (fun _ c => c.act = 0) ∧
    Met false (fun _ _ => []) eNone (fun s c => c.act ≠ 0 ∧ (s.ctx c.x.ctx).desc.dbg = false) ∧
    Met false (fun _ _ => []) eNone (fun s c => c.act ≠ 0 ∧ (s.ctx c.x.ctx).desc.dbg = true) ∧
    Met true (fun _ _ => []) eNone (fun _ c => c.act ≠ 0) ∧
    Met true (fun _ _ => []) { eNone with grd := 2 } (fun _ c => c.act = 0) ∧
    (small.group? 1 = some (grp small) ∧ (small.team? (grp small).team).isSome = true) :=
  ⟨met (s := small) (by decide +kernel), met (s := small) (by decide +kernel), met (s := small) (by decide +kernel),
   met (s := small.modCtx 0 (fun c => { c with desc := { c.desc with dbg := true } })) (by decide +kernel),
   met (s := handling) (by decide +kernel), met (s := handling) (by decide +kernel), by decide +kernel⟩

/-- SRD of `%lane` and of a write pointer; SWR of a view outside the handler and of `%tvec` inside, and of a poisoned scalar. -/
theorem witness_SystemRegisters :
    (let e := enc .b64 0 (.scal 3) (.sys (.wp 7)) .nil 0
     e.a = .sys (.wp 7) ∧ Met false (opUses [] e.d 8) e (fun s _ => Unlogged s)) ∧
    (let e := enc .b64 0 (.sys (.vw 3)) (.scal 1) .nil 0
     e.d = .sys (.vw 3) ∧ privileged (.swr e) = false ∧ Met false (uniChecks [e.a]) e (fun s c => c.act = 0 ∨ (uni s c e.a e.ty).2 = false)) ∧
    (let e := enc .b64 0 (.sys .tvec) (.scal 1) .nil 0
     e.d = .sys .tvec ∧ privileged (.swr e) = true ∧ Met true (uniChecks [e.a]) e (fun s c => c.act = 0 ∨ (uni s c e.a e.ty).2 = false)) ∧
    (let e := enc .b64 0 (.sys .seed) (.scal 1) .nil 0
     Met false (uniChecks [e.a]) e (fun s c => c.act ≠ 0 ∧ (uni s c e.a e.ty).2 = true)) ∧ (31 < 32 ∧ 63 < 64) ∧
    (let x : Group := { probeGroup with hwSet := some { cycle := 7, fstat := 1 } }
     x.hwSet = some { cycle := 7, fstat := 1 } ∧ (∀ h, x.hwSet = some h → h.cycle ≠ 8) ∧ SysReg.seed ≠ .eos ∧ SysReg.seed ≠ .fstat) :=
  ⟨⟨rfl, met (s := small) (by decide +kernel)⟩, ⟨rfl, rfl, met (s := small) (by decide +kernel)⟩,
   ⟨rfl, rfl, met (s := handling) (by decide +kernel)⟩,
   met (s := smallWith (fun x => x.setScal 1 0 64 true)) (by decide +kernel), by decide,
   rfl, by intro h e; cases e; decide, by decide, by decide⟩

/-- A wait of a kind. -/
def waiting (k : WaitKind) (x : Group) : Group := { x with wait := some { kind := k, m := ~~~0, pc := 0, prio := 0x800 } }

theorem witness_PrivilegedOperations :
    (let e := enc .b8 2 .nil (.scal 1) (.scal 2) 5
     Met true (uniChecks [e.a, e.b]) e (fun s c => c.act ≠ 0 ∧ (uni s c e.a .b64).2 = false ∧ (uni s c e.b .b64).2 = false)) ∧
    (let e := enc .b8 1 (.scal 1) (.scal 2) .nil 0
     Met true (fun s c => { o := e.d, n := 8, lanes := c.act, dest := true } :: uniChecks [e.a, e.b] s c) e (fun _ _ => True)) ∧
    (let e := enc .b8 1 (.rs 0x40) .nil .nil 0
     e.d = .rs 0x40 ∧ Met true (fun _ c => [{ o := e.d, n := 64, lanes := c.act, dest := true }]) e (fun _ _ => True)) ∧
    (let e := enc .b8 0 .nil (.imm 5) .nil 0
     Met true (uniChecks [e.a]) e (fun s c => c.act = 0 ∨ (uni s c e.a .b64).2 = false)) ∧
    ((grp (smallWith (waiting .tlbi))).wait.map (fun w => w.kind) = some .tlbi) ∧
    (let e := enc .b64 0 (.scal 1) (.imm 9) .nil 0
     Met false (fun _ c => [{ o := e.d, n := 8, lanes := c.act, dest := true }]) e (fun s _ => Unlogged s) ∧
     Met false (fun s c => { o := e.d, n := 8, lanes := c.act, dest := true } :: uniChecks [e.a] s c) e
       (fun s c => Unlogged s ∧ (c.act = 0 ∨ (uni s c e.a .b64).2 = false))) :=
  ⟨met (s := handling) (by decide +kernel), met (s := handling) (by decide +kernel), ⟨rfl, met (s := handling) (by decide +kernel)⟩,
   met (s := handling) (by decide +kernel), by decide +kernel, met (s := small) (by decide +kernel), met (s := small) (by decide +kernel)⟩

/-- A word that decode rejects and a PC at CODELEN; a privileged instruction outside the handler; the guard `!p15`; the checks of issue. -/
theorem witness_IssueChecks :
    ((grp small).chosen = some { pc := 0, prio := 0x800, mask := ~~~0 } ∧ (grp small).issuable = true ∧ small.mayRun (grp small) = true) ∧
    (let s := smallWith (fun x => { x with frontier := [{ pc := 4096, prio := 0x800, mask := ~~~0 }] })
     (s.launchOf (grp s)).hdr.codeLen ≤ ((grp s).chosen.map (fun e => e.pc.toNat)).getD 0) ∧
    ((Instr.rft eNone).parts = some (0x00A, eNone) ∧ privileged (.rft eNone) = true ∧ (small.iss? eNone).isSome = true ∧
      (grp small).handler = false ∧ (grp small).engineWait = false) ∧
    (small.iss? { eNone with neg := true }).isSome = true ∧
    -- VIEW_RANGE, VIEW_WIDTH, RS_BOUNDS, STREAM_UNBOUND
    (let bad := fun (d a : Opnd) (n : Nat) => (small.iss? eNone).map (fun c =>
        (checkViews c.x (opUses [{ o := a, ty := .b32 }] d n small c), checkPorts c.x (opUses [{ o := a, ty := .b32 }] d n small c)))
     bad (.view 0 4095) (.imm 0) 4 = some (some cVIEW_RANGE, none) ∧ bad (.scal 1) (.imm 0) 12 = some (some cVIEW_WIDTH, none) ∧
     bad (.rs 8192) (.imm 0) 4 = some (some cRS_BOUNDS, none) ∧ bad (.view 0 0) (.port 3) 4 = some (none, some cSTREAM_UNBOUND)) ∧
    -- LA_HAZARD
    (let s := smallWith (fun x => { x with pend := [{ window := 3, writes := [.scal 1 {}], lvals := [], lpos := none, missL1 := false, missL2 := false }] })
     (s.iss? eNone).map (fun c => (dependsOn c.x (opUses [{ o := .scal 1, ty := .b32 }] (.view 0 0) 4 s c)).any (fun q => q.window != 0)) = some true) := by
  decide +kernel

/-! ### Accesses to memory -/

/-- The machine whose s1 is a mapped address and s2 a value. -/
def pointing : State := smallWith (fun x => (x.setScal 1 0x20000 64 false).setScal 2 7 64 false)

/-- An access of n bytes at s1 passes its checks. -/
def placed (k : AccKind) (e : Enc) (offset : Bool) (n : Nat) (s : State) (c : Iss) : Bool :=
  (s.checkLanes c.x k (poisAddrs (eas e offset s c)) n (accsOf (eas e offset s c) n)).isOk

/-- A group's scratchpad window at its last byte, the cluster's, the private one, the aperture and an address beyond all; lanes that meet
each check. -/
theorem witness_AddressesAndMemory :
    (let d := (small.ctx 0).desc
     (d.scrb ≤ 0x40000003FFC ∧ 0x40000003FFC < d.scrb + 2 ^ 32 ∧ 0x40000003FFC - d.scrb + 4 ≤ 16 * 1024) ∧
     (d.club ≤ 0x40100000000 ∧ 0x40100000000 < d.club + 2 ^ 32 ∧ ¬(d.scrb ≤ 0x40100000000 ∧ 0x40100000000 < d.scrb + 2 ^ 32)) ∧
     (d.prvb ≤ 0x402FFFFFFFF ∧ 0x402FFFFFFFF < d.prvb + 2 ^ 32) ∧ (d.capb ≤ 0x5000000FFFF ∧ 0x5000000FFFF < d.capb + 2 ^ 16)) ∧
    (scalarForm (enc .b32 0 (.scal 3) (.scal 1) (.imm 0) 5) = true ∧ scalarForm (enc .b32 0 (.view 0 1) (.view 0 0) (.imm 0) 5) = false) ∧
    (let err := fun (pois : Mask) (align : Nat) (ea : Nat) =>
       match small.checkLanes (grp small) .read pois align [{ lane := 31, ea := ea, n := 4 }] with
       | .error (.trap cause m _ _) => some (cause, m)
       | _ => none
     err 5 4 0x20000 = some (cPOISON_CONSUMED, 5) ∧ err 0 4 (2 ^ 55) = some (cADDR_RANGE, 0x80000000) ∧
     err 0 4 0x20002 = some (cMISALIGNED, 0x80000000) ∧ err 0 4 0x40000004000 = some (cSCR_BOUNDS, 0x80000000) ∧
     err 0 4 0x50000000000 = some (cCOPY_APERTURE, 0x80000000)) ∧ (0 < 1) := by
  decide +kernel

/-- A store of n bytes at s1 passes its checks, and what comes before it is performed, or is not. -/
def ordered (ok : Bool) (e : Enc) (n : Nat) (s : State) (c : Iss) : Bool :=
  match s.checkLanes c.x .write (poisAddrs (eas e true s c)) n (accsOf (eas e true s c) n) with
  | .ok pls => (storeOrdered e s c pls).isOk == ok
  | .error _ => false

/-- The machine whose pages are software coherent, COH 01. -/
def softCoherent : State := { pointing with mem := cputs 0 pointing.mem probeT2 (leBytes 8 (probeMem + 0x3F)) }

/-- The same with a write of the group that a fence of its own came after, to be sent again much later. -/
def behindFence : State :=
  { softCoherent with
    mergeQ := [{ who := 3, agent := probeGroup.agent, pa := 2 ^ 42, bytes := [1], pois := false, due := 1000000, fenced := true }] }

theorem witness_LoadsAndStores :
    (let e := enc .b32 0 (.scal 3) (.scal 1) (.imm 0) 5
     Met false (loadUses e 4) e (fun s c => placed .read e true 4 s c = true) ∧
     Met false (storeUses e 4) e (fun s c => c.act &&& ~~~c.x.helpers ≠ 0 ∧ offAperture e s c ∧ ordered true e 4 s c = true) ∧
     Met false (storeUses e 4) e (fun s c => c.act &&& ~~~c.x.helpers ≠ 0 ∧ offAperture e s c ∧ ordered false e 4 s c = true)) ∧
    (let e := enc .b8 8 (.view 0 0) (.scal 1) (.imm 3) 5
     Met false (packUses e true) e (fun s c =>
       (let ea := s.effAddrs c e true (lanesOf (c.act &&& ~~~c.x.helpers))
        (s.checkLanes c.x .read (poisAddrs ea) 1 (accsOf ea 32)).isOk) = true) ∧
     Met false (packUses e false) e (fun s c =>
       (let ea := s.effAddrs c e true (lanesOf (c.act &&& ~~~c.x.helpers))
        (match s.checkLanes c.x .write (poisAddrs ea) 1 (accsOf ea 32) with
          | .ok pls => (s.orderWrites c.x (pls.map (fun p => p.2))).isOk
          | .error _ => false)) = true)) ∧
    (let e := enc .b8 0 .nil (.scal 1) (.imm 3) 0
     Met false (fun _ c => [{ o := e.a, n := 8, lanes := c.act, exact := true }, { o := e.b, n := 4, lanes := c.act }]) e (fun s c =>
       poisAddrs (eas e true s c) = 0 ∧ ∀ q ∈ eas e true s c, q.2.1 < 2 ^ 55)) :=
  ⟨⟨met (s := pointing) (by decide +kernel), met (s := pointing) (by decide +kernel), met (s := behindFence) (by decide +kernel)⟩,
   ⟨met (s := pointing) (by decide +kernel), met (s := pointing) (by decide +kernel)⟩, met (s := pointing) (by decide +kernel)⟩

/-- A store of s3 at s1: what it meets, and it has a next state. -/
theorem witness_StoreFrame :
    (let e := enc .b32 0 (.scal 3) (.scal 1) (.imm 0) 5
     Met false (storeUses e 4) e (fun s c => Unlogged s ∧ c.act &&& ~~~c.x.helpers ≠ 0 ∧ offAperture e s c ∧ placed .write e true 4 s c = true) ∧
     (match exec (.st e) pointing with | .next _ => true | _ => false) = true) :=
  ⟨met (s := pointing) (by decide +kernel), by decide +kernel⟩

/-- An atomic at s1 passes its checks, no write of its agent is left unperformed once its lines are made ready, and no byte it reads is
poisoned. -/
def atomFree (e : Enc) (s : State) (c : Iss) : Bool :=
  match s.checkLanes c.x .atomic (poisAddrs (eas e false s c)) 4 (accsOf (eas e false s c) 4) with
  | .error _ => false
  | .ok pls =>
    let t := s.atomReady c.x (s.scopeOver (scopeOf e) (pls.map (fun p => p.2))) (releases e) pls
    !t.unperformed c.x.agent && !s.atomLate c.x.core 4 (pls.map (fun p => p.2)) && pls.all (fun p => !t.placePoison c.x.agent c.x.core p.2 4)

/-- An atomic at s1 with s2: to a result, without one, with a comparison. -/
theorem witness_Atomics :
    (let e := enc .b32 0 (.scal 3) (.scal 1) (.scal 2) 5
     Met false (atomUses e true false) e (fun s c => c.act &&& ~~~c.x.helpers ≠ 0 ∧ atomFree e s c = true) ∧
     Met false (atomUses e false false) e (fun s c => c.act &&& ~~~c.x.helpers ≠ 0 ∧ atomFree e s c = true) ∧
     Met false (atomUses e true true) e (fun s c => c.act &&& ~~~c.x.helpers ≠ 0 ∧ atomFree e s c = true)) ∧ Ty.isFloat .i64 = false :=
  ⟨⟨met (s := pointing) (by decide +kernel), met (s := pointing) (by decide +kernel), met (s := pointing) (by decide +kernel)⟩, rfl⟩

/-- MWAIT by helpers alone; at a value that differs from B and at one that equals it; a wait woken and one that is due. -/
theorem witness_MemoryWait :
    (let e := enc .b32 0 (.scal 3) (.scal 1) (.imm 0) 5
     let us := fun (s : State) (c : Iss) => { o := e.d, n := 4, lanes := c.act, dest := true } :: uniChecks [e.a, e.b] s c
     let low := fun (c : Iss) => lowLane (c.act &&& ~~~c.x.helpers)
     Met false us { e with grd := 2 } (fun _ c => c.act &&& ~~~c.x.helpers = 0) ∧
     Met false us e (fun s c => c.act &&& ~~~c.x.helpers ≠ 0 ∧ (srcOf s c e.a .b64 (low c)).2.1 = false ∧
       (match s.mwaitRead c (srcOf s c e.a .b64 (low c)).1 4 (polOf e) with
         | .ok r => decide (r.2.1 = (srcOf s c e.b e.ty (low c)).1) && decide (r.2.1 ≠ 1)
         | .error _ => false) = true)) ∧
    (let s := smallWith (waiting (.mwait 3 0x20000 4 1 0 1 0 none 0 none true))
     (grp s).canResume = true ∧ 0 ≤ s.cycle) :=
  ⟨⟨met (s := pointing) (by decide +kernel), met (s := pointing) (by decide +kernel)⟩, by decide +kernel⟩

/-- The same with the page of the private window's format bytes mapped. -/
def spilling : State := { pointing with mem := cputs 0 pointing.mem (probeT2 + 32) (leBytes 8 (0x40000000 + 0x1F)) }

/-- VSPILL of v1 to the slot that an immediate names, and VFILL from it; 32 words of every width. -/
theorem witness_SpillAndFill :
    (let e := enc .b32 0 (.view 0 1) (.imm 0) .nil 0
     Met false (fun s c => { o := e.d, n := 4, lanes := if c.act &&& ~~~c.x.helpers = 0 then 0 else ~~~0 } :: uniChecks [e.a] s c) e (fun s c =>
       c.act &&& ~~~c.x.helpers ≠ 0 ∧ (match s.spillSlot c e with
         | .ok q => [[(q.2, 1)], [(q.1, 128), (q.2, 1)]].all (fun ps => match s.checkOnce c .write ps with
           | .ok pls => (s.orderWrites c.x pls).isOk
           | .error _ => false)
         | .error _ => false) = true) ∧
     Met false (fun s c => { o := e.d, n := 4, lanes := c.act, dest := true } :: uniChecks [e.a] s c) e (fun s c =>
       c.act &&& ~~~c.x.helpers ≠ 0 ∧ (match s.spillSlot c e with
         | .ok q => (match s.checkOnce c .read [(q.2, 1)] with
           | .ok fp => let rf := s.readPlace c.x c.x.agent .read (polOf e) ((fp.head?).getD (.mem [])) 1
             !rf.2.2 && (spillLen rf.2.1).isSome
           | .error _ => false)
         | .error _ => false) = true)) ∧
    ((List.range 32).map (fun i => 2 ^ i)).length = 32 ∧ (∀ x ∈ (List.range 32).map (fun i => 2 ^ i), x < 2 ^ 32) ∧ (31 : Nat) < 32 :=
  ⟨⟨met (s := spilling) (by decide +kernel), met (s := spilling) (by decide +kernel)⟩, by decide, by decide, by decide⟩

end Sys2Proof.Tests
end

