-- ==== Sys2Proof/Tests/WitnessModule.lean ====
section
/-! SUPPORT. Witnesses for the statements about pages and tokens, media, links, step boundaries, recovery, bring-up, the host's accesses,
encodings, and the step. -/

namespace Sys2Proof.Tests

set_option Elab.async false
set_option maxRecDepth 100000

open Sys2Proof Sys2Proof.Machine Sys2Proof.Claims

/-! ### Pages, tokens, media -/

/-- A fault record of the page at 2^29. -/
def faultRec : FaultRec :=
  { token := 1, key := .page 1 0x2000, isOpen := true, queued := true, slot := some 0, die := 0, bytes := [], va := 0x20000000, level := 1,
    ctx := 0, asid := 1, dieMask := 1, waiters := 1, hw := true }

/-- The machine whose page at 2^29 is demand-zero, with the record queued. -/
def demanding (r : FaultRec) (free : List Nat) : State :=
  { small.modCtx 0 (fun c => { c with freePages := free }) with
    faults := [r], mem := cputs 0 (cputs 0 small.mem (probeT2 + 8) (leBytes 8 0x1020001)) 0x1020000 (leBytes 8 0x1000) }

/-- The machine with a token request. -/
def asking (p : Bool) : State := { small with tokReqs := [{ line := 4, die := 2, fails := 1, persistent := p }] }

/-- The same with a write of a core of die 2 to that line pending, in a cycle. -/
def gathering (p : Bool) (due cycle : Nat) (more : List TokReq) : State :=
  { asking p with
    mergeQ := [{ who := 3 + 128, agent := 2, pa := 512, bytes := [1], pois := false, due := due }], cycle := cycle,
    tokReqs := (asking p).tokReqs ++ more }

/-- Thirty-two persistent requests of die 2 at the same home agent. -/
def thirtyTwo : List TokReq := (List.range 32).map (fun i => { line := 16 + 12 * i, die := 2, fails := 2, persistent := true })

theorem witness_PagesAndTokens :
    (let s := demanding faultRec [0x9000000]
     (s.faults.find? (fun r => r.queued && r.slot.isSome)).any (fun r => decide (r = faultRec)) = true ∧
       (s.takeFault 1).demandZero faultRec = some 0x1020000 ∧ ((s.takeFault 1).ctx 0).freePages = [0x9000000]) ∧
    (let s := demanding { faultRec with hw := false } []
     s.faults.find? (fun r => r.queued && r.slot.isSome) = some { faultRec with hw := false } ∧
       (s.takeFault 1).demandZero { faultRec with hw := false } = none ∧ ((s.takeFault 1).ctx 0).freePages = []) ∧
    small.tokReqs.find? (fun r => r.line == 4 && r.die == 2) = none ∧
    small.mergeQ.any (fun q => q.needs 4 2) = false ∧
    (let s : State := { gathering false 0 0 [] with tokReqs := [] }
     s.mergeQ.any (fun q => q.needs 4 2) = true ∧ s.promised 2 4 = false) ∧
    (∀ q ∈ [(511, ([] : List TokReq)), (512, []), (512, thirtyTwo)],
      let s := gathering false 0 q.1 q.2
      s.mergeQ.any (fun m => m.needs 4 2) = true ∧ s.promised 2 4 = false ∧
        (s.tokReqs.find? (fun r => r.line == 4 && r.die == 2)).any (fun r => !r.persistent && r.since == 0) = true ∧
        (decide (s.cycle < 0 + 512) = (q.1 == 511)) ∧
        (decide (((s.tokReqs.filter (fun r => r.persistent && r.line % 12 == 4 && r.die == 2))).length < 32) = q.2.isEmpty)) ∧
    (gathering false 0 0 [{ line := 4, die := 5, fails := 2, persistent := true }]).promised 2 4 = true ∧
    (let s := gathering true 1000000 0 []
     (s.activeReq 4).any (fun r => (s.grantWhere (fun q => dieOfWho q.who == some r.die)).mergeQ.any (fun q => q.needs 4 r.die)) = true) ∧
    (let s := gathering true 0 0 []
     (s.activeReq 4).any (fun r => !(s.grantWhere (fun q => dieOfWho q.who == some r.die)).mergeQ.any (fun q => q.needs 4 r.die)) = true) ∧
    (let s : State := { asking true with tokReqs := [{ line := 4, die := 2, fails := 1, persistent := true, readers := [probeGroup.agent] }] }
     (s.activeReq 4).any (fun r => s.groups.any (fun p => r.readers.contains p.2.agent && p.2.slot.isSome)) = true) ∧
    ((asking true).activeReq 4).isSome = true ∧ (asking false).activeReq 4 = none := by
  decide +kernel

/-- Pseudo-channel 767 in a state. -/
def resting (x : Sref) : State := { small with srefs := cput {} [] 767 x, cycle := 40000 }

theorem witness_Media :
    small.host.msplit.getLsbD 4 = false ∧ ({ small with host := { small.host with msplit := 0x10 } } : State).host.msplit.getLsbD 4 = true ∧
    (let p := scrubPlace small.scrubPos
     let pa := small.sectorPa p.1 p.2.1 p.2.2 6
     pa / 32 ∉ small.finishScrub.grantDue.sectorPoison ∧ small.chanLost.contains (slotChan p.1 p.2.1 p.2.2 6) = false ∧
       small.stripeShort p.1 p.2.1 p.2.2 6 = false ∧
       (let s : State := { small with chanLost := [slotChan p.1 p.2.1 p.2.2 7] }
        s.chanLost.contains (slotChan p.1 p.2.1 p.2.2 6) = false ∧ s.stripeShort p.1 p.2.1 p.2.2 6 = true) ∧
       ({ small with chanLost := [slotChan p.1 p.2.1 p.2.2 6] } : State).chanLost.contains (slotChan p.1 p.2.1 p.2.2 6) = true) ∧
    (11 < 12 ∧ cget none small.retries 11 = none) ∧ cget none ({ small with retries := [(11, some 0)] } : State).retries 11 = some small.cycle ∧
    (let x : Sref := cget {} (resting {}).srefs 767
     x.st = .active ∧ x.last + 32768 ≤ (resting {}).cycle) ∧
    (let x : Sref := cget {} (resting { last := 39999 }).srefs 767
     x.st = .active ∧ (resting {}).cycle < x.last + 32768) ∧
    (∀ want ∈ [false, true], let x : Sref := cget {} (resting { st := .entering, want := want }).srefs 767
     x.st = .entering ∧ x.want = want) ∧
    (let x : Sref := cget {} (resting { st := .exiting, due := 40000 }).srefs 767
     x.st = .exiting ∧ x.due ≤ (resting {}).cycle) := by
  decide +kernel

/-! ### Links -/

/-- Link k as given. -/
def linked (k : Nat) (x : Link) : State := small.modLink k (fun _ => x)

/-- A turn of bundle 3 toward the spoke. -/
def turnOf (dead : Bool) : Turn := { bundle := 3, toSpoke := true, dead := dead, due := 0 }

/-- A lane of each half of a port, so that too few are left. -/
def manyLanes : List (Nat × Nat) := [(0, 0), (0, 4)]

theorem witness_LinkTurns :
    (let x := (linked 23 { st := .train, attempt := 1 }).link 23
     x.st = .train ∧ x.reported = none ∧ x.attempt < 3) ∧
    (let x := (linked 0 { st := .train, attempt := 3 }).link 0
     x.st = .train ∧ x.reported = none ∧ 3 ≤ x.attempt) ∧
    (manyLanes.filter (fun q => laneOk 12 q.1 q.2) ≠ [] ∧ tooFew 12 (manyLanes.filter (fun q => laneOk 12 q.1 q.2)) = true) ∧
    (let f := [(0, 0)].filter (fun q : Nat × Nat => laneOk 12 q.1 q.2)
     f ≠ [] ∧ tooFew 12 f = false ∧ small.host.msplit.getLsbD 2 = false) ∧
    (small.link 5).st ≠ .train ∧
    (let x := (linked 11 { st := .full, spoke := 20 }).link 11
     laneOk 11 39 63 = true ∧ x.carries = true ∧ x.st = .full ∧ x.turn = none ∧ (39, 63) ∉ x.bad ∧ 39 ∉ x.out) ∧
    (let x := (linked 0 { st := .turning, spoke := 10, turn := some (turnOf false) }).link 0
     laneOk 0 0 0 = true ∧ x.carries = true ∧ x.turn.isSome = true ∧ x.st = .turning ∧ (0, 0) ∉ x.bad ∧ 0 ∉ x.out) ∧
    ((linked 0 { st := .turning, turn := some (turnOf false) }).link 0).turn = some (turnOf false) := by
  decide +kernel

theorem witness_LinkTurns_turns :
    (let s := linked 0 { st := .turning, turn := some (turnOf true), failing := true }
     (s.link 0).turn = some (turnOf true) ∧ (turnOf true).due ≤ s.now ∧ (s.link 0).failing = true) ∧
    (let s := linked 0 { st := .turning, turn := some { turnOf true with due := 1 } }
     (s.link 0).turn = some { turnOf true with due := 1 } ∧ s.now < 1 ∧ (s.link 0).failing = false) ∧
    ((List.range 8).all (fun j => !(small.link j).carries) = true) ∧ small.now < ({ small with splitDue := 1 } : State).splitDue ∧
    (let s := (linked 7 { st := .full, spoke := 10 }).modLink 11 (fun _ => { st := .full, spoke := 20 })
     0 < (((List.range 8).filter (fun j => (s.link j).carries)).map (fun j => ((s.link j).inService j).length)).sum ∧ s.splitDue ≤ s.now ∧ (s.link 11).carries = true) := by
  decide +kernel

theorem witness_LinkTurns_withdrawal :
    (let s : State := { small with fwd := some { since := 0 } }
     s.fwd = some { since := 0 } ∧ s.host.fabmode = false ∧ (∀ m ∈ s.notified, m ∈ ([] : List Nat))) ∧
    (let s : State := { linked 23 { st := .fwdonly } with fwd := some { since := 0 } }
     ¬(∀ m ∈ s.notified, m ∈ ([] : List Nat)) ∧ s.now < 2 * Config.milli * Config.parts) ∧
    (let s : State := { linked 23 { st := .fwdonly } with fwd := some { since := 0 }, timebase := 2 * Config.milli }
     ¬(∀ m ∈ s.notified, m ∈ ([] : List Nat)) ∧ 0 + 2 * Config.milli * Config.parts ≤ s.now) ∧
    (small.fwd = none ∧ (431 : Nat) ∉ small.withdrawn ∧ small.fabric.any (fun r => r.seq == 3 && !small.withdrawn.contains (small.physMod r.dst) && small.hasRoute (small.physMod r.dst)) = false) ∧
    (let s : State := { small with fabric := [{ seq := 3, dst := 0, who := 1 }] }
     s.fwd = none ∧ s.fabric.any (fun r => r.seq == 3 && !s.withdrawn.contains (s.physMod r.dst) && s.hasRoute (s.physMod r.dst)) = true) := by
  decide +kernel

/-! ### Step boundaries and recovery -/

/-- Context 0 in step group 7 with modules 1 and 2, the etcher as given. -/
def stepping (e : Etch) : State :=
  { small.modCtx 0 (fun c => { c with stepGroup := some 7, step := 5 }) with
    stepGroups := [(7, { members := [(0, 0), (1, 0), (2, 0)], base := 5, commits := [(0, some 4)] })], etches := cput {} [] 0 e }

theorem witness_Etcher :
    (let s := stepping { wanted := true }
     let e := s.etch 0
     (s.ctx 0).stepGroup = some 7 ∧ e.wanted = true ∧ e.busy = false ∧ e.accepted = none ∧ (s.stepGroup 7).ready 5 = true ∧
       (∀ q ∈ (s.hbmLeaves 0).filter (fun q => q.2.testBit 9), q.2.testBit 11 = false) ∧ s.grantDue.etchOn = false ∧ s.mergeQ = [] ∧
       s.grantDue.setPending [] = false) ∧
    (let s : State := { stepping { wanted := true } with
       host := { small.host with etcfg := 0x8000000000000001 },
       mem := cputs 0 (cputs 0 small.mem (probeT2 + 8) (leBytes 8 0x1020001)) 0x1020000 (leBytes 8 0x103020F),
       mergeQ := [{ who := 3, agent := 2, pa := 0x1030000, bytes := [1], pois := false, due := 1000000 }] }
     let t := s.grantDue
     t.etchOn = true ∧ t.setPending (((t.hbmLeaves 0).filter (fun q => q.2.testBit 9)).flatMap (fun m => m.1.pages)) = true) ∧
    (small.ctx 0).stepGroup = none ∧
    (let s := stepping { busy := true, boundary := 4, pages := [9, 3] }
     s.nextPage 0 = some 9 ∧ s.roomForPage = true ∧ s.manOpen = true ∧
       (∀ b, b < 2 → s.deltasWait (s.slotPa 9 b) = false ∧ s.unbuilt (s.slotPa 9 b) = false)) ∧
    (let s : State := { stepping { busy := true, boundary := 4, pages := [9, 3] } with
       recov := { stage := 7, lost := [0] },
       host := { small.host with
         egrp0 := BitVec.ofNat 64 (packFields [(1, 9), (2, 18), (3, 27), (4, 36), (1, 63)]),
         egrp1 := BitVec.ofNat 64 (packFields [(5, 0), (6, 9), (7, 18), (8, 27), (9, 36)]) } }
     s.nextPage 0 = some 9 ∧ s.unbuilt (s.slotPa 9 1) = true) ∧
    (let s : State := { stepping { busy := true, boundary := 4, pages := [9, 3] } with
       host := { small.host with
         egrp0 := BitVec.ofNat 64 (packFields [(1, 9), (2, 18), (3, 27), (4, 36), (1, 63)]),
         egrp1 := BitVec.ofNat 64 (packFields [(5, 0), (6, 9), (7, 18), (8, 27), (9, 36)]) } }
     s.nextPage 0 = some 9 ∧ s.manOpen = false) ∧
    (let s : State := { stepping { busy := true, boundary := 4, pages := [9, 3] } with power := { full := false }, wbqs := [(3, [{ pa := 2 ^ 42, bytes := [1], pois := false }])] }
     s.nextPage 0 = some 9 ∧ s.roomForPage = false) ∧
    (let s := stepping { busy := true, boundary := 4, recTaken := true }
     (s.etch 0).busy = true ∧ (s.etch 0).boundary < (s.ctx 0).step.toNat ∧ (s.etch 0).pages = [] ∧ (s.etch 0).recTaken = true ∧
       s.manOpen = true) ∧
    (let s := stepping {}
     (s.etch 0).busy = false ∧ cget none (s.stepGroup 7).commits (s.memberIdx 7 0) = some 4) ∧
    (let e := 3 + 5 * 2 ^ 2 + 6 * 2 ^ 66
     e.testBit 0 = true ∧ e.testBit 1 = true ∧ e / 2 ^ 2 % 2 ^ 62 < 7 ∧ e / 2 ^ 66 % 2 ^ 62 < 7 ∧ e / 2 ^ 2 % 2 ^ 62 ≠ e / 2 ^ 66 % 2 ^ 62 ∧
       6 ≤ e / 2 ^ 66 % 2 ^ 62 ∧ e / 2 ^ 2 % 2 ^ 62 < 6 ∧
       (let f := 3 + 6 * 2 ^ 2 + 5 * 2 ^ 66; 6 ≤ f / 2 ^ 2 % 2 ^ 62 ∧ f / 2 ^ 66 % 2 ^ 62 < 6)) := by
  decide +kernel

/-- The module in an erasure group of modules 0 to 9, its recovery as given. -/
def recovering (r : Recov) : State :=
  { small with
    recov := r, timebase := 10000000,
    host := { small.host with
      egrp0 := BitVec.ofNat 64 (packFields [(1, 9), (2, 18), (3, 27), (4, 36), (1, 63)]),
      egrp1 := BitVec.ofNat 64 (packFields [(5, 0), (6, 9), (7, 18), (8, 27), (9, 36)]) } }

theorem witness_Recovery :
    (let s := recovering {}
     9 ∈ s.fellows ∧ 9 ∉ s.recov.suspect ∧ cget 0 s.recov.beacons 9 + 10 * Config.milli ≤ s.timebase.toNat ∧ 9 ∉ s.recov.lost ∧ (9 : BitVec 9) ≠ s.modnum ∧
       (∀ n, n < 8 → n ≠ 0 → s.mayBegin n = false) ∧ s.recov.stage ≠ 3) ∧
    (let s := recovering { beacons := [(9, 1)] }
     s.timebase.toNat < cget 0 s.recov.beacons 9 + 10 * Config.milli) ∧
    (∀ n, n < 8 → 0 < n → (recovering { stage := n, done := true, lost := [1] }).mayBegin n = true) ∧
    (let s := recovering { stage := 3, lost := [1] }
     s.recov.stage = 3 ∧ s.recov.done = false ∧ (∀ k ∈ s.hitCtxs, (s.ctx k).st.quiet = true)) ∧
    (let s := recovering { stage := 3, done := true, lost := [1] }
     s.recov.domain = false ∧ s.recov.lost.filter (fun m => !s.recov.spares.any (fun q => q.1 == m)) = [1] ∧ (431 : BitVec 9).toNat < 432 ∧
       432 ≤ (432 : BitVec 9).toNat) ∧
    (let s := recovering { stage := 7, done := true, lost := [1], spares := [(1, 40)] }
     s.recov.domain = false ∧ s.egroup ≠ [] ∧ 0 < groupStripes ∧ (∃ m ∈ s.recov.lost, (m, 0) ∉ s.recov.rebuilt)) ∧
    (let s : State := { small with host := { small.host with egrp0 := 1 <<< 62 } }
     s.isSpare = true ∧ (0 : BitVec 9).toNat = s.ownPhys ∧ (1 : BitVec 9).toNat ≠ s.ownPhys) ∧
    ([1, 9].Nodup ∧ (∀ p ∈ [1, 9], p < 10) ∧ [1, 9].length ≤ 2 ∧ 9 < 10) := by
  decide +kernel

/-! ### Bring-up, power, the host -/

/-- The machine after reset in a bring-up state. -/
def bringing (n : Nat) : State := State.reset.setMstate n

/-- Every link as given. -/
def allLinks (x : Link) (s : State) : State := { s with links := (List.range 24).map (fun k => (k, x)) }

/-- A firmware image of eight bytes and its CRC. -/
def image : List Byte := let b := leBytes 8 0x0102030405060708; b ++ leBytes 4 (crc32 b).toNat

theorem witness_BringUpAndPower :
    (let s : State := { bringing 1 with hostMem := cputs 0 [] 0x8000 image, host := { (bringing 1).host with fwaddr := 0x8000, fwlen := 12 } }
     let img := cgets 0 s.hostMem (s.host.fwaddr.toNat / 4096 * 4096) (s.host.fwlen.toNat % 2 ^ 32)
     s.mstate = 1 ∧ 4 ≤ img.length ∧ leNat (img.drop (img.length - 4)) = (crc32 (img.take (img.length - 4))).toNat) ∧
    ((bringing 1).host.fwlen.toNat % 2 ^ 32 < 4) ∧
    (let s := allLinks { st := .full } (bringing 2)
     s.mstate = 2 ∧ (∀ k, k < 24 → (s.link k).st ≠ .train) ∧ (∀ k, k < 12 → (s.link k).carries = true)) ∧
    (let s := allLinks { st := .down } (bringing 2)
     s.mstate = 2 ∧ (∀ k, k < 24 → (s.link k).st ≠ .train) ∧ (∃ k, k < 12 ∧ (s.link k).carries = false)) ∧
    ((bringing 3).mstate = 3 ∧ masksOk (bringing 3).host = true ∧ (bringing 3).groupOk false = true) ∧
    (masksOk { (bringing 3).host with hashm1 := 0 } = false) ∧
    ((bringing 4).mstate = 4 ∧ (∀ d, d < 8 → 48 ≤ ((bringing 4).enabledOn d).length) ∧ (bringing 4).host.egrp0.getLsbD 63 = false) ∧
    (∃ d, d < 8 ∧ (({ bringing 4 with cores := (List.range 17).map (fun k => (k, { enabled := false })) } : State).enabledOn d).length < 48) ∧
    (let s : State := { (recovering {}).setMstate 4 with manifest := cputs 0 [] 0 (manHeader 7 4 4) }
     s.host.egrp0.getLsbD 63 = true ∧ s.manComplete 0 0 = some 4) ∧
    (let s : State := { bringing 5 with recov := { stage := 7, done := true } }
     s.mstate = 5 ∧ s.recov.stage = 7 ∧ s.recov.done = true) ∧
    (small.power.failed = false ∧ ({ small with power := { failed := true } } : State).power.failed = true) ∧
    (small.stepDue ≤ small.now ∧ small.now < ({ small with stepDue := 1 } : State).stepDue ∧ small.host.pwrlim.toNat < 2801 ∧ 40 < (41 : BitVec 8).toNat ∧ 55 < (56 : BitVec 8).toNat ∧ 125 < (126 : BitVec 8).toNat ∧
      (55 : BitVec 8).toNat ≤ 55 ∧ (125 : BitVec 8).toNat ≤ 125) := by
  decide +kernel

/-- The machine whose queue 9 is as given. -/
def queueIs (x : Queue) : State := { small with queues := [(9, x)] }

theorem witness_HostAccesses :
    small.power.failed = false ∧ small.unperformed hostAgent = false ∧ (small.mwPa 0xFFFFFFF00 256).isSome = true ∧ (small.mwPa 0xFFFFFFF01 256).isNone = true ∧ small.evbuf = [] ∧
    (small.mwPa 0x1000 1 = some 0x1000 ∧ small.unperformed hostAgent = false ∧ small.served = [] ∧ small.mergeQ = [] ∧
      (stuck hostAgent small).unperformed hostAgent = true ∧
      (∃ z ∈ ({ small with served := [(pointOf none 0xFFE, 3, 1)] } : State).served, rangesMeet z.1 z.2.1 0x1000 1 = true ∧ 0 < z.2.2)) ∧
    (((queueIs { st := .enabled }).queue 9).logn = 4 ∧ ((16 : BitVec 16) - ((queueIs { st := .enabled }).queue 9).head).toNat ≤ 2 ^ 4 ∧
      2 ^ 4 < ((17 : BitVec 16) - ((queueIs { st := .enabled }).queue 9).head).toNat) ∧
    ((queueIs { st := .enabled }).queue 9).st = .enabled ∧ ((queueIs { st := .enabled }).queue 9).dev = false ∧
    ((queueIs { st := .enabled }).queue 9).st ≠ .disabled ∧ ((queueIs { st := .enabled, dev := true }).queue 9).dev = true ∧
    (((64 : Word64).setWidth 16 - small.host.ichead).toNat ≤ small.ringSize ∧ small.ringSize < ((65 : Word64).setWidth 16 - small.host.ichead).toNat) ∧
    (431 : BitVec 9).toNat < 432 ∧ small.host.tripAt ≠ some small.cycle := by
  decide +kernel

/-- The events, each where its own effect comes. What the witnesses of the statements on one unit show is not shown again: the ports and
copies of `witness_StreamPorts` and `witness_CopyChannels`, the hub of `witness_LaunchStart` and `witness_PlacementAndSaving`, and the
theorems above. -/
theorem witness_EventsTakeEffect :
    ((asking true).mergeQ = [] ∧ (asking true).activeReq 4 = some { line := 4, die := 2, fails := 1, persistent := true, readers := [] }) ∧
    (let s : State := { gathering false 0 0 [] with tokReqs := [] }
     s.tokReqs = [] ∧ s.mergeQ.any (fun q => q.needs 4 2) = true) ∧
    (let x := (linked 11 { st := .full, spoke := 20 }).link 11
     x.st = .full ∧ x.crc = [] ∧ laneOk 11 39 63 = true) ∧
    (let s := linked 0 { st := .turning, turn := some (turnOf true) }
     (s.link 0).turn = some (turnOf true) ∧ (turnOf true).due ≤ s.now ∧ (s.link 0).failing = false) ∧
    (let s := stepping { wanted := true }
     s.etchOn = false ∧ s.mergeQ = [] ∧ (s.etch 0).wanted = true ∧ (s.stepGroup 7).ready 5 = true) ∧
    (let s := allLinks { st := .full } (bringing 2)
     s.mstate = 2 ∧ ∀ k, k < 24 → (s.link k).st = .full) ∧
    (small.power.failed = false ∧ small.stepDue ≤ small.now ∧
      ({ small with host := { small.host with pwrlim := 1000 } } : State).host.pwrlim.toNat < (1001 : BitVec 16).toNat) := by
  decide +kernel

/-! ### Encodings and the step -/

/-- The word of the FADD that the specification writes out. -/
def faddWord : BitVec 96 := 0x302700420000740002AFFFD0

/-- Its instruction. -/
def fadd0 : Instr := .fadd ⟨true, 3, .f32, 0, false, true, 2, .view 0 7, .opf 2, .imm 0xFFFD, 0⟩

theorem witness_EncodingRoundTrip : fadd0.wf = true ∧ encode fadd0 = some faddWord ∧ decodeWord faddWord = .ok fadd0 := by decide +kernel

theorem witness_DecodeOfWords :
    (BitVec.extractLsb' 86 10 (~~~0 : BitVec 96) = 0x3FF) ∧
    (let w : BitVec 96 := 0x3FE <<< 86
     opRow (w.extractLsb' 86 10).toNat = none ∧ w.extractLsb' 86 10 ≠ 0x3FF) ∧
    (let w := faddWord ||| ((1 : BitVec 96) <<< 69)
     (opRow (w.extractLsb' 86 10).toNat).isSome = true ∧ w.extractLsb' 68 2 ≠ 0 ∧ w.extractLsb' 86 10 ≠ 0x3FF) := by
  decide +kernel

/-- The machine whose group will fetch a word. -/
def fetching (w : BitVec 96) : State := small.withWord (bytesOfWord w)

/-- The fetch of the group that the agenda lets issue: whether the PC is within the code, and what its bytes decode to. -/
def fetchOf (s : State) : Option (Bool × DecodeResult) :=
  let s0 : State := { s with agenda := s.agenda.tail }
  let s1 : State := { s0 with cur := 1 }
  match s.agenda, s0.group? 1 with
  | .issue 1 :: _, some x =>
    match x.chosen with
    | some e =>
      if x.asyncNow.isNone && x.issuable && s0.mayRun x && s0.cycleTakes 1 x then
        match s1.fetchPlace x e with
        | .ok segs => some (decide (e.pc.toNat < s1.codeEnd x), decodeBytes (s1.fetchBytes x e.pc.toNat segs))
        | .error _ => none
      else none
    | none => none
  | _, _ => none

theorem witness_StepRunsDecoded :
    (fetchOf (fetching faddWord)).any (fun q => q.1 && (match q.2 with | .ok i _ => decide (i = fadd0) | _ => false)) = true ∧
    (fetchOf (fetching (~~~0))).any (fun q => q.1 && (match q.2 with | .rejected why => decide (why = .fillOpcode) | _ => false)) = true ∧
    (fetchOf (smallWith (fun x => { x with frontier := [{ pc := 4096, prio := 0x800, mask := ~~~0 }] }))).any (fun q => !q.1) = true := by
  decide +kernel

/-- An outcome is a next state. -/
def isNext : Host.Outcome State Fault Refusal → Bool
  | .next _ => true
  | _ => false

theorem next_of {o : Host.Outcome State Fault Refusal} (h : isNext o = true) : ∃ t, o = .next t := by
  cases o with
  | next t => exact ⟨t, rfl⟩
  | _ => cases h

/-- The window's word 5 is struck; two failures within a second; a resident group; a cached translation; the first block of the tier. -/
theorem witness_StorageErrors :
    (∃ x, ({ small with agenda := [.upset (.window 1 5) false] } : State).group? 1 = some x ∧ x.inFile = true ∧ 5 < x.rf.wbytes / 4) ∧
    (let s := small.modCore 3 (fun c => { c with sramFails := [0, 5] })
     s.host.msplit.getLsbD 6 = false ∧ (s.core 3).sramFails = [0, 5] ∧ s.timebase.toNat < 0 + Config.second ∧
       s.timebase.toNat < 5 + Config.second) ∧
    (∃ x, small.group? 1 = some x ∧ x.slot.isSome = true ∧ x.st ≠ .frozen ∧ x.st ≠ .ended ∧ small.host.protcfg.getLsbD 9 = true) ∧
    ({ small with agenda := [.upset (.tlb 0) true] } : State).agenda = .upset (.tlb 0) true :: [] ∧
    ((512 * 2 ^ 33) >>> 43 = small.modnum.toNat ∧ 2 ^ 42 ≤ 512 * 2 ^ 33 % 2 ^ 43 ∧ populated (512 * 2 ^ 33) 512 = true ∧
       small.host.eqbase.toNat + 2 ^ 18 ≤ 512 * 2 ^ 33 ∧ small.mergeQ = []) :=
  ⟨⟨probeGroup, by decide +kernel, by decide, by decide⟩, by decide +kernel, ⟨probeGroup, by decide +kernel, by decide, by decide, by decide, by decide +kernel⟩,
   rfl, by decide +kernel⟩

theorem witness_MemoryKeepsForm : ∃ t, Memory.wf small.mem ∧ Memory.wf small.hostMem ∧ StepsTo small t := by
  obtain ⟨t, h⟩ := next_of (o := step small) (by decide +kernel)
  exact ⟨t, by decide +kernel, by decide +kernel, h⟩

theorem witness_ComputeFrame :
    ∃ (e : Enc) (p : Instr × List Src) (s t : State) (c : Iss), p ∈ laneForms e ∧ CanIssue s e c ∧
      NoStop s e c (opUses p.2 e.d (Ty.bytes e.ty) s c) ∧ noPorts p.2 ∧ (∀ k, e.d ≠ .port k) ∧ s.phys.pipe = [] ∧ exec p.1 s = .next t := by
  let e := enc .f32 0 (.view 0 7) (.opf 2) (.imm 3) 0
  obtain ⟨t, h⟩ := next_of (o := exec (.fadd e) small) (by decide +kernel)
  obtain ⟨c, h1, -, h3, -, -⟩ := meets_spec (s := small) (priv := false) (us := opUses (ab e) e.d 4) (e := e)
    (ok := fun _ _ => true) (by decide +kernel)
  exact ⟨e, (.fadd e, ab e), small, t, c, by simp [laneForms], h1, h3, by decide, (fun k hk => by cases hk), rfl, h⟩

end Sys2Proof.Tests
end

