-- ==== Sys2Proof/Tests/WitnessSystem.lean ====
section
/-! SUPPORT. Witnesses for the statements about the scheduler, launches, placement and saving, and the host's commands. -/

namespace Sys2Proof.Tests

set_option Elab.async false
set_option maxRecDepth 100000

open Sys2Proof Sys2Proof.Machine Sys2Proof.Claims

/-- A group of a state has a property. -/
def groupIs (s : State) (g : Nat) (p : Group → Bool) : Bool := (s.group? g).any p

/-! ### The scheduler -/

/-- A load into the operand file that has missed the L2. -/
def missing : Pend := { window := 0, writes := [.opf 2 0 { v := 7 }], lvals := [], lpos := none, missL1 := true, missL2 := true }

/-- Seven more active groups, each in a wait, and a pending one that is ready. -/
def crowded : State :=
  { small with groups := small.groups ++ (List.range 8).map (fun k => (k + 2, { probeGroup with
      num := k + 1, slot := some (k + 1), seniority := k + 1, st := if k = 7 then .pending else .active,
      wait := if k = 7 then none else some { kind := .tlbi, m := 1, pc := 0, prio := 0x800 } })) }

/-- The same with the first group gone. -/
def roomy : State := { crowded with groups := crowded.groups.tail }

/-- A machine whose code page is absent. -/
def pageless : State := small.modLaunch 1 (fun l => { l with hdr := { l.hdr with codeBase := 0x40000000 } })

theorem witness_Scheduler :
    groupIs (smallWith (fun x => { x with pend := [missing, missing] })) 1 (fun x => decide (x.pend = [missing, missing])) = true ∧
    (roomy.nextReady 0).any (fun p => decide (p.1 = 9)) = true ∧ (roomy.activeOn 0).length < Config.activePlaces ∧
    (small.nextReady 0 = none ∧ (small.activeOn 0).length < Config.activePlaces) ∧
    (Config.activePlaces ≤ (crowded.activeOn 0).length ∧ (crowded.youngestWait 0).map (fun p => p.1) = some 8 ∧
      groupIs crowded 8 (fun x => x.core == 0) = true ∧ (crowded.nextReady 0).map (fun p => p.1) = some 9) ∧
    groupIs (smallWith (fun x => { x with st := .frozen })) 1 (fun x => x.st == .frozen) = true ∧
    groupIs pageless 1 (fun x => x.issuable && pageless.mayRun x && !pageless.unitBusy 1 x && !pageless.pushesPend x && x.chosen.any (fun e => decide (e.pc.toNat < pageless.codeEnd x)
      && (match pageless.fetchPlace x e with | .error (.park _) => true | _ => false))) = true ∧
    (let s : State := { smallWith (fun x => { x with st := .pending }) with cycle := 256 }
     groupIs s 1 (fun x => x.hasGranule 1 && x.st == .pending && decide (x.restFrom + 256 ≤ s.cycle ∧ cget 0 x.rf.touch 1 + 256 ≤ s.cycle)
      && cget GranSt.awake x.rf.gran 1 == .awake) = true) ∧
    (let s : State := { small with mergeQ := [{ who := 3, agent := 2, pa := 2 ^ 42, bytes := [1], pois := false, due := 64 }] }
     s.tokReqs = [] ∧ s.etches = [] ∧ ∀ r ∈ s.mergeQ, r.due ≤ (s.cycle / 64 + 1) * 64) ∧
    groupIs (smallWith (fun x => { x with rf := { x.rf with gran := [(1, .drowsy)] } })) 1 (fun x =>
      cget GranSt.awake x.rf.gran 1 == .drowsy) = true := by
  decide +kernel

/-- A group held on the load, whose kernel has a sketch entry and a live-in scalar. -/
def sketchable : State :=
  { (smallWith (fun x => { x with pend := [missing] })).modLaunch 1 (fun l => { l with hdr := { l.hdr with skp := true, skEntry := 8, sks := [3] } }) with
    mem := cputs 0 small.mem (probeMem + 0x10000) (bytesOfWord 0x302700420000740002AFFFD0) }

/-- A group with a sketch. -/
def sketching (n : Nat) : State := smallWith (fun x => { x with sketch := some { count := n } })

/-- A group with a watchdog, in a wait. -/
def guarded (w : Watch) : State :=
  smallWith (fun x => { x with wd := w, wait := some { kind := .barrier 3 1 1 none, m := 1, pc := 0, prio := 0x800 } })

theorem witness_SketchesAndWatchdogs :
    groupIs sketchable 1 (fun x => x.chosen.isSome && sketchable.maySketch x
      && sketchable.groups.all (fun p => p.2.core != x.core || decide (x.seniority ≤ p.2.seniority))) = true ∧
    groupIs (sketching 256) 1 (fun x => x.sketch.any (fun k => decide (256 ≤ k.count))) = true ∧
    groupIs (sketching 0) 1 (fun x => x.sketch.any (fun k => ((sketching 0).holders x).all (fun p => !p.missL2)
      && ((sketching 0).sketchNext 1 x k).isNone)) = true ∧
    groupIs ((sketching 1).modGroup 1 (fun x => { x with handler := true })) 1 (fun x => x.sketch.isSome && x.handler) = true ∧
    groupIs (guarded { armed := true, w := 9, interval := 9 }) 1 (fun x =>
      x.wd.armed && !x.wd.expired && decide (x.wd.interval ≤ x.wd.w) && x.asyncWd.isNone) = true ∧
    groupIs (guarded { armed := true, w := 8, interval := 9 }) 1 (fun x => decide (x.wd.w < x.wd.interval)) = true ∧
    groupIs (guarded { dead := 65536 }) 1 (fun x => decide (x.awaits = some 3) && (guarded {}).deadWait x && decide (65536 ≤ x.wd.dead)) = true ∧
    groupIs (guarded { second := some 0 }) 1 (fun x => decide (x.wd.second = some 0) && x.st != .saved) = true := by
  decide +kernel

/-! ### Launches -/

/-- 256 bytes that end in their CRC. -/
def sealed (v : Nat) : List Byte := let b := leBytes 252 v; b ++ leBytes 4 (crc32 b).toNat

/-- A launch record: the header at 0x20000, one item, one virtual die; with more fields. -/
def record (more : List (Nat × Nat)) : List Byte := sealed (packFields ([(1, 0), (0x20000, 64), (1, 160), (1, 232)] ++ more))

/-- A kernel header of 16 instructions at 0x10000. -/
def header : List Byte := let b := leBytes 124 (packFields [(1, 0), (0x10000, 64), (16, 128)]); b ++ leBytes 4 (crc32 b).toNat

/-- The machine with one mapped virtual die, the header in memory, counter 5 at 1, and queue 9 with a record in its ring. -/
def queued (bs : List Byte) : State :=
  { small.modCtx 0 (fun c => { c with desc := { c.desc with vdtlen := 1 } }) with
    mem := cputs 0 (cputs 0 (cputs 0 small.mem 0x2000000 (leBytes 4 (2 ^ 31))) (probeMem + 0x20000) header) 0x6000000 bs,
    ctrs := [(5, { owner := some 0, value := 1 })], queues := [(9, { st := .enabled, ring := 0x6000000, tail := 1, prio := 3 })] }

/-- The same with the record at the queue's head. -/
def startable (bs : List Byte) : State :=
  { queued bs with queues := [(9, { st := .enabled, ring := 0x6000000, tail := 1, prio := 3, headRec := some bs })] }

/-- A task of the queue has fired. -/
def fired : State :=
  { queued (record []) with queues := [(9, { st := .enabled, prio := 3, fired := [{ queue := 9, ctr := some 5, lrec := record [] }] })] }

theorem witness_LaunchStart :
    (let s := queued (leBytes 256 1)
     let x := s.queue 9
     (x.st = .enabled ∧ x.head ≠ x.tail ∧ x.headRec = none) ∧ (s.headCause (s.memBytes x.ring 256) x.ctx).isSome = true) ∧
    (let r := record [(1, 27), (5, 32)]
     let s := queued r
     s.memBytes (s.queue 9).ring 256 = r ∧ s.headCause r 0 = none ∧ (leNat r).testBit 27 = true ∧
       leNat r / 2 ^ 32 % 2 ^ 13 = 5 ∧ (s.ctr 5).value ≠ 0) ∧
    (let r := record []
     (queued r).headCause r 0 = none ∧ (leNat r).testBit 27 = false) ∧
    (small.queue 9).st ≠ .enabled ∧ small.nextQueue = none ∧
    (let s := startable (record [])
     s.nextQueue = some 9 ∧ (s.queue 9).nextLaunch = some (record [], none) ∧ s.hubWaits (s.ctx 0).desc .read 0x20000 = false ∧
       (match (s.hubUse (s.ctx 0).desc 0x20000 128).startCause 0 (leNat (record [])) with | .ok _ => true | .error _ => false) = true) ∧
    (let s := startable (record [(2, 232)])
     s.nextQueue = some 9 ∧ s.hubWaits (s.ctx 0).desc .read 0x20000 = false ∧ (match (s.hubUse (s.ctx 0).desc 0x20000 128).startCause 0 (leNat (record [(2, 232)])) with | .ok _ => false | .error _ => true) = true) ∧
    (let s := (startable (record [(0x20000000, 64)]))
     let s : State := { s with mem := cputs 0 (cputs 0 s.mem (probeT2 + 8) (leBytes 8 0x1020001)) 0x1020010 (leBytes 8 0x103080F) }
     s.nextQueue = some 9 ∧ s.hubWaits (s.ctx 0).desc .read (leNat (s.queue 9).headRec.get! / 2 ^ 64 % 2 ^ 64) = true) ∧
    (fired.nextQueue = some 9 ∧ (fired.queue 9).nextLaunch = some (record [], some 5) ∧ (fired.queue 9).fired ≠ [] ∧
      ((startable (record [])).queue 9).fired = []) ∧
    (let v := packFields [(7, 128), (10, 160), (2, 192), (1, 240), (2, 256), (2, 272)]
     1 < v / 2 ^ 192 % 2 ^ 16 + 1 ∧ v / 2 ^ 240 % 4 ≤ 1 ∧ teamItems v 1 = (11, 3) ∧ walkTeams v = [0, 1, 2]) := by
  decide +kernel

/-! ### Placement and saving -/

/-- A second launch, of PRIO 5, whose one cluster waits for virtual die 0. -/
def waitingLaunch (h : Hdr) : Launch := { ctx := 0, queue := some 9, hdr := h, lrec := record [], prio := 5, toPlace := [(0, 0)] }

/-- The machine with the launch. -/
def toPlace (h : Hdr) : State := { queued (record []) with launches := tput small.launches 2 (waitingLaunch h) }

/-- The same with one enabled core, so that a header that wants more scratchpad than is left does not fit. -/
def tight : State :=
  { toPlace { probeHdr with scratch := 512 } with
    cores := (List.range 512).map (fun k => (k, { enabled := k == 0 })) }

/-- The machine whose one cluster is saved. -/
def savedCluster : State :=
  ((queued (record [])).modCluster 1 (fun c => { c with st := .saved, saveAt := some 0x5000000 })).modGroup 1 (fun x =>
    { x with st := .saved, slot := none })

/-- The context in a state. -/
def ctxIs (st : CtxSt) (s : State) : State := s.modCtx 0 (fun c => { c with st := st })

theorem witness_PlacementAndSaving :
    (let s := toPlace probeHdr
     let u := s.placing.foldl (fun s p => s.dropForeign p.1 p.2) s
     let t := u.placing.foldl (fun s p => s.noteAbsent p.1 p.2) u
     (t.placeFirst [] t.placing).isSome = true) ∧
    (small.placeFirst [] small.placing = none) ∧
    (let s := smallWith (fun x => { x with lanes := [] })
     groupIs s 1 (fun x => x.empties == ~~~0 && x.st == .active && (s.copiesOf 1).isEmpty && (s.opsOf 1 x.core).isEmpty && x.mats.isEmpty && !s.unperformed x.agent) = true
       ∧ s.replays = []) ∧
    groupIs small 1 (fun x => x.empties != ~~~0) = true ∧
    (stuck probeGroup.agent small).unperformed probeGroup.agent = true ∧
    (let s := ctxIs .saving small
     let t := stuck probeGroup.agent s
     (s.cluster? 1).any (fun x => (s.launch? x.launch).any (fun l => x.st == .resident && s.mustSave x l && !(s.publishCluster x).clusterPending x
       && ((s.publishCluster x).saveCluster 1 x l).isSome)) = true ∧
     (t.cluster? 1).any (fun x => (t.launch? x.launch).any (fun l => x.st == .resident && t.mustSave x l && (t.publishCluster x).clusterPending x)) = true) ∧
    ((tight.cluster? 1).any (fun x => (tight.launch? x.launch).any (fun l =>
      x.st == .resident && !tight.mustSave x l && tight.wantedRoom x l && !(tight.publishCluster x).clusterPending x
        && ((tight.publishCluster x).saveCluster 1 x l).isSome)) = true) ∧
    (let t := savedCluster
     (t.cluster? 1).any (fun x => (t.launch? x.launch).any (fun l => x.st == .saved && t.ctxRuns l.ctx
       && (t.vdie (t.ctx l.ctx).desc x.vdie).isSome && (t.ownDie (t.ctx l.ctx).desc x.vdie == some 0)
       && (t.coresFor 0 (x.teams.map (fun k => ((t.team? k).map (t.teamRoom k)).getD {})) []).isSome && t.mayRestore l 0)) = true) ∧
    (let s := ctxIs .saving savedCluster
     (s.ctx 0).st = .saving ∧ s.stillResident 0 = false ∧ (s.ctx 0).faultAfterSave = false) ∧
    (let s := (ctxIs .saving savedCluster).modCtx 0 (fun c => { c with faultAfterSave := true })
     (s.ctx 0).st = .saving ∧ s.stillResident 0 = false ∧ (s.ctx 0).faultAfterSave = true) ∧
    (((ctxIs .draining small).ctx 0).st = .draining) ∧
    (let s := small.modCore 3 (fun c => { c with checkFails := [0, 0, 0] })
     (s.core 3).enabled = true ∧ (s.core 3).retired = false ∧ s.triaged 3 = true) := by
  decide +kernel

/-! ### Commands -/

/-- A command with its parameters. -/
def cmd (flg : Byte) (ps : List Word64) : Cmd := { flg := flg, tag := 0x77, p := ps }

/-- Some READY machine with room in its completion ring meets the conditions of a command. -/
def Runs (ok : Cmd → State → Prop) : Prop := ∃ (c : Cmd) (s : State), s.ringUsed < s.ringSize ∧ s.mstate = 6 ∧ ok c s

theorem runs (c : Cmd) (s : State) {ok : Cmd → State → Prop} [∀ c s, Decidable (ok c s)]
    (h : (decide (s.ringUsed < s.ringSize ∧ s.mstate = 6) && decide (ok c s)) = true) : Runs ok := by
  simp only [Bool.and_eq_true, decide_eq_true_eq] at h
  exact ⟨c, s, h.1.1, h.1.2, h.2⟩

/-- A descriptor of context k with ASID a that the checks accept. -/
def descriptor (k a : Nat) : List Byte :=
  sealed (packFields [(1, 0), (a, 16), (k, 32), (0x1000000, 64), (0x2000000, 128), (1, 192), (0x40000000000, 256), (0x40100000000, 320),
    (0x40200000000, 384), (0x50000000000, 448), (0x800000, 512), (0x3000000, 640), (0x4000000, 704), (64, 768), (0x5000000, 832), (1, 896)])

/-- The machine with a descriptor at 0x7000000. -/
def describing (k a : Nat) : State := { small with mem := cputs 0 small.mem 0x7000000 (descriptor k a) }

/-- The machine whose queue 9 is as given, its table entry in memory a ring of 16 records for context 0. -/
def withQueue (x : Queue) : State :=
  { small with queues := cput {} [] 9 x, mem := cputs 0 small.mem 576 (leBytes 64 (packFields [(0x6000000, 0), (4, 64)])) }

theorem witness_ContextAndQueueCommands :
    (let c := cmd 0 [0x7000000]
     let desc := fun (c : Cmd) (s : State) => s.readDesc (arg c 0)
     let is := fun (c : Cmd) (s : State) (p : Nat → CtxDesc → Bool) => (desc c s).any (fun d => p d.1 d.2)
     Runs (fun c s => desc c s = none) ∧
     Runs (fun c s => is c s (fun k _ => (s.ctx k).st != .free) = true) ∧
     Runs (fun c s => is c s (fun k d => (s.ctx k).st == .free && s.asidUsed k d.asid) = true) ∧
     Runs (fun c s => is c s (fun k d => (s.ctx k).st == .free && !s.asidUsed k d.asid) = true) ∧
     Runs (fun c s => is c s (fun k d => s.syncCtx (arg c 0) k == k && (s.ctx k).st == .saved && !s.asidUsed k d.asid
       && d.asid == (s.ctx k).desc.asid) = true) ∧
     Runs (fun c s => is c s (fun k d => s.syncCtx (arg c 0) k == k && (s.ctx k).st == .active && (s.ctx k).desc.synced d != d) = true) ∧
     commandOf (.ctxnew c) = some (c, none) ∧ small.ringUsed < small.ringSize ∧ State.reset.mstate ≠ 6 ∧
     ({ small with host := { small.host with cctail := 64 } } : State).ringSize ≤ ({ small with host := { small.host with cctail := 64 } } : State).ringUsed) ∧
    (small.evbuf = [] ∧ (0x77 : BitVec 16) ≠ 0xFFFF) ∧
    (∀ st ∈ [CtxSt.saved, .faulted, .idle, .active, .saving, .draining, .free], Runs (fun c s => arg c 0 < 128 ∧ ctxSt c s = st ∧
      s.frozenLeft (arg c 0) = false)) ∧
    Runs (fun c s => liveCtx s (arg c 0)) ∧
    Runs (fun c s => arg c 0 < 4096 ∧ (s.queue (arg c 0)).st = .disabled ∧ (s.readQueue (arg c 0)).any (fun x => (s.ctx x.ctx).st == .active) = true) ∧
    (∀ st ∈ [QState.enabled, .error], Runs (fun c s => arg c 0 < 4096 ∧ (s.queue (arg c 0)).st = st)) ∧
    (Runs (fun c _ => 4096 ≤ arg c 0) ∧ Runs (fun c _ => 8192 ≤ arg c 0)) ∧
    Runs (fun c _ => arg c 0 < 8192 ∧ arg c 1 < 128) ∧
    Runs (fun c s => arg c 0 < 8192 ∧ (s.ctr (arg c 0)).owner = some 0) ∧
    Runs (fun c s => c.flg.getLsbD 0 = false ∧ liveCtx s (arg c 0)) ∧ Runs (fun c _ => c.flg.getLsbD 0 = true) ∧
    Runs (fun c s => arg c 0 < 512 ∧ (s.core (arg c 0)).enabled = true) := by
  refine ⟨⟨runs (cmd 0 [0x100]) small (by decide +kernel), runs (cmd 0 [0x7000000]) (describing 0 1) (by decide +kernel),
    runs (cmd 0 [0x7000000]) (describing 3 1) (by decide +kernel), runs (cmd 0 [0x7000000]) (describing 3 2) (by decide +kernel),
    runs (cmd 0 [0x7000000]) (ctxIs .saved (describing 0 1)) (by decide +kernel),
    runs (cmd 0 [0x7000000]) (describing 0 2) (by decide +kernel), rfl, by decide +kernel⟩, by decide +kernel, fun st _ => ?_,
    runs (cmd 0 [0]) small (by decide +kernel), runs (cmd 0 [9]) (withQueue {}) (by decide +kernel), fun st h => ?_,
    ⟨runs (cmd 0 [0x1000]) small (by decide +kernel), runs (cmd 0 [0x2000]) small (by decide +kernel)⟩,
    runs (cmd 0 [8191, 127]) small (by decide +kernel), runs (cmd 0 [5]) (queued []) (by decide +kernel), runs (cmd 0 [0]) small (by decide +kernel),
    runs (cmd 1 []) small (by decide +kernel), runs (cmd 0 [63]) (small.modCore 63 (fun c => { c with enabled := true })) (by decide +kernel)⟩
  · exact ⟨cmd 0 [0], ctxIs st small, by cases st <;> decide +kernel⟩
  · exact ⟨cmd 0 [9], withQueue { st := st }, by cases st <;> decide +kernel⟩

/-- The machine with a 64 KiB page at 2^29. -/
def paged : State :=
  { small with mem := cputs 0 (cputs 0 small.mem (probeT2 + 8) (leBytes 8 0x1020001)) 0x1020000 (leBytes 8 0x103000F) }

/-- The same with a write to the page pending, which is not sent again before a cycle. -/
def writing (due : Nat) : State :=
  { paged with mergeQ := [{ who := 3, agent := 2, pa := 0x1030000, bytes := [1], pois := false, due := due }] }

theorem witness_PageCommands :
    Runs (fun c s => liveCtx s (arg c 0) ∧ arg c 1 % 65536 = 0 ∧ arg c 1 / 2 ^ 43 = s.modnum.toNat ∧
      arg c 1 % 2 ^ 43 + 65536 * arg c 2 ≤ hbmBytes) ∧
    Runs (fun c _ => c.flg.toNat % 4 ≠ 3 ∧ arg c 0 % 256 = 255) ∧ Runs (fun c _ => c.flg.toNat % 4 = 3) ∧
    Runs (fun c s => (s.ctxOfAsid (BitVec.ofNat 16 (arg c 0))).any (fun k =>
      (match s.grantDue.walk 15 (s.ctx k).desc (arg c 1 % 2 ^ 55) with
        | .leaf pte 1 _ => decide (arg c 2 % 65536 = 0) && populated (arg c 2) 65536 && !(s.ctx k).split.getLsbD 0 && !pte.testBit 11 && !pte.testBit 10
            && !s.grantDue.pagePending (bitsOf pte 51 16 * 65536) && !s.grantDue.tierWaits (arg c 2)
        | _ => false)) = true) ∧
    Runs (fun c s => (s.ctxOfAsid (BitVec.ofNat 16 (arg c 0))).any (fun k =>
      (match s.grantDue.walk 15 (s.ctx k).desc (arg c 1 % 2 ^ 55) with
        | .leaf pte 1 _ => !(s.ctx k).split.getLsbD 0 && !pte.testBit 11 && (arg c 2).testBit 42 && s.grantDue.tierWaits (arg c 2)
        | _ => false)) = true) ∧
    Runs (fun c s => (s.ctxOfAsid (BitVec.ofNat 16 (arg c 0))).any (fun k =>
      (match s.grantDue.walk 15 (s.ctx k).desc (arg c 1 % 2 ^ 55) with
        | .leaf pte 1 _ => !(s.ctx k).split.getLsbD 0 && !pte.testBit 11 && s.grantDue.pagePending (bitsOf pte 51 16 * 65536)
        | _ => false)) = true) ∧
    Runs (fun c s => s.ctxOfAsid (BitVec.ofNat 16 (arg c 0)) = none) ∧
    Runs (fun c s => (arg c 1 % 65536 = 0 ∧ arg c 2 % 65536 = 0 ∧ arg c 3 < 3 ∧ arg c 1 + arg c 2 ≤ 2 ^ 55) ∧
      (s.ctxOfAsid (BitVec.ofNat 16 (arg c 0))).any (fun k => (s.rangeLeaves (s.ctx k).desc (arg c 1) (arg c 2 / 65536)).any (fun ps =>
        !s.grantDue.rangePending ps && !s.rangePending ps)) = true) ∧
    Runs (fun c s => (s.ctxOfAsid (BitVec.ofNat 16 (arg c 0))).any (fun k => (s.rangeLeaves (s.ctx k).desc (arg c 1) (arg c 2 / 65536)).any (fun ps =>
        !s.grantDue.rangePending ps && s.rangePending ps)) = true) ∧
    Runs (fun c s => (s.ctxOfAsid (BitVec.ofNat 16 (arg c 0))).any (fun k => (s.rangeLeaves (s.ctx k).desc (arg c 1) (arg c 2 / 65536)).any (fun ps =>
        s.grantDue.rangePending ps)) = true) ∧
    Runs (fun c _ => 3 ≤ arg c 3) ∧
    Runs (fun c s => arg c 0 / 2 ^ 43 = s.modnum.toNat ∧ arg c 0 % 2 ^ 43 + arg c 1 ≤ hbmBytes) ∧
    (Runs (fun c _ => arg c 0 % 4096 = 0) ∧ Runs (fun c _ => arg c 0 % 4096 ≠ 0)) :=
  ⟨runs (cmd 0 [0, 0x9000000, 2]) small (by decide +kernel), runs (cmd 2 [255]) small (by decide +kernel), runs (cmd 3 [255]) small (by decide +kernel),
   runs (cmd 0 [1, 0x20000000, 0x40009000000]) paged (by decide +kernel),
   runs (cmd 0 [1, 0x20000000, 0x40009000000]) { paged with power := { paged.power with failed := true } } (by decide +kernel),
   runs (cmd 0 [1, 0x20000000, 0x9000000]) (writing 1000000) (by decide +kernel), runs (cmd 0 [77]) small (by decide +kernel),
   runs (cmd 0 [1, 0x20000000, 65536, 2]) paged (by decide +kernel), runs (cmd 0 [1, 0x20000000, 65536, 2]) (writing 0) (by decide +kernel),
   runs (cmd 0 [1, 0x20000000, 65536, 2]) (writing 1000000) (by decide +kernel), runs (cmd 0 [0, 0, 0, 3]) small (by decide +kernel),
   runs (cmd 0 [0x9000000, 64]) small (by decide +kernel), runs (cmd 0 [0x2000]) small (by decide +kernel), runs (cmd 0 [0x2001]) small (by decide +kernel)⟩

/-- A log at 0x7000000: the record of team 0, group 0. -/
def logged : State :=
  { queued (record []) with
    mem := cputs 0 (queued (record [])).mem 0x7000000 (leBytes 16 (17 * 2 ^ 60) ++ List.replicate 16 0 ++ record []) }

theorem witness_LinkStepAndDebugCommands :
    Runs (fun c s => arg c 0 < 24 ∧ (s.link (arg c 0)).st = .down) ∧
    Runs (fun c s => arg c 0 < 24 ∧ (s.link (arg c 0)).st = .train ∧ (s.link (arg c 0)).reported = some true ∧ c.flg.getLsbD 0 = true) ∧
    Runs (fun _ s => s.recov.stage ≠ 0 ∧ s.recov.done = true ∧ s.recov.released = false ∧ s.host.msplit.getLsbD 3 = true) ∧
    Runs (fun _ s => s.recov.stage = 0) ∧
    Runs (fun c s => (arg c 0 < 2 ^ 16 ∧ arg c 1 ≤ 432 ∧ populated (arg c 2) (4 * arg c 1) = true) ∧ (liveCtx s 0 ∧
      (s.ctx 0).stepGroup = none) ∧ ((s.sgMembers (arg c 2) (arg c 1)).map (fun m => m.1)).Nodup ∧
      (s.modnum.toNat, 0) ∈ s.sgMembers (arg c 2) (arg c 1)) ∧
    Runs (fun c s => (liveCtx s (arg c 0) ∧ 1 ≤ arg c 4 ∧ arg c 4 ≤ 16 ∧ s.ownHbm (arg c 5) (arg c 6) = true) ∧ c.flg.getLsbD 0 = true ∧
      arg c 1 < 8192 ∧ (s.ctr (arg c 1)).owner = some (arg c 0)) ∧
    Runs (fun c s => (liveCtx s (arg c 0) ∧ 1 ≤ arg c 4 ∧ arg c 4 ≤ 16 ∧ s.ownHbm (arg c 5) (arg c 6) = true) ∧ c.flg.getLsbD 0 = false ∧
      arg c 1 < 4096 ∧ (s.queue (arg c 1)).ctx = arg c 0 ∧ (s.queue (arg c 1)).st ≠ .disabled) ∧
    Runs (fun c s => (arg c 0 < 128 ∧ arg c 1 < 512 ∧ (s.core (arg c 1)).enabled = true ∧ (s.core (arg c 1)).retired = false ∧
      s.ownHbm (arg c 3) (arg c 4) = true ∧ s.ctxRuns (arg c 0) = true) ∧ (s.loggedRecord (arg c 3) (arg c 4) (arg c 2)).any (fun bs =>
        (s.readHdr (s.ctx (arg c 0)).desc (leNat bs)).any (fun h => decide (arg c 2 < leNat bs / 2 ^ 192 % 2 ^ 16 + 1)
          && ((s.roomUsed (arg c 1)).add (newTeamRoom h (lrGroups (leNat bs)))).fits && (s.barBase (arg c 1) h.bars).isSome)) = true) ∧
    Runs (fun c s => (s.debugGroup c (fun _ => true)).any (fun p => p.2.halted && decide (arg c 3 % 4 = 0)
      && decide (arg c 3 / 4 + 8 ≤ (s.frameOf p.1 p.2).length)) = true) ∧
    Runs (fun c s => (s.debugGroup c (fun x => x.st == .stopped)).any (fun p => p.2.chosen.isSome) = true) ∧
    Runs (fun c s => (s.debugGroup c Group.isFrozen).any (fun p => p.2.st == .frozen) = true) :=
  ⟨runs (cmd 0 [0]) (small.modLink 0 (fun x => { x with st := .down })) (by decide +kernel),
   runs (cmd 1 [0]) (small.modLink 0 (fun x => { x with st := .train, reported := some true })) (by decide +kernel),
   runs (cmd 0 []) { small with recov := { stage := 2, done := true }, host := { small.host with msplit := 8 } } (by decide +kernel),
   runs (cmd 0 []) small (by decide +kernel), runs (cmd 0 [7, 1, 0x6000000]) small (by decide +kernel),
   runs (cmd 1 [0, 5, 0, 0, 1, 0x7000000, 4096]) (queued []) (by decide +kernel), runs (cmd 0 [0, 9, 0, 0, 16, 0x7000000, 4096]) (queued []) (by decide +kernel),
   runs (cmd 0 [0, 1, 0, 0x7000000, 4096]) logged (by decide +kernel),
   runs (cmd 0 [0, 0, 0, 32]) (smallWith (fun x => { x with st := .parked })) (by decide +kernel),
   runs (cmd 0 [0, 0, 0]) (smallWith (fun x => { x with st := .stopped })) (by decide +kernel),
   runs (cmd 0 [0, 0, 0]) (smallWith (fun x => { x with st := .frozen })) (by decide +kernel)⟩

end Sys2Proof.Tests
end

