-- ==== Sys2Proof/Tests/WitnessUnits.lean ====
section
/-! SUPPORT. Witnesses for the statements about copies, stream ports, the matrix unit, barriers, persistence, tasks and the hinge. -/

namespace Sys2Proof.Tests

set_option Elab.async false

open Sys2Proof Sys2Proof.Machine Sys2Proof.Claims

/-! ### Copies -/

/-- A template of eight 4-byte elements from 0x30000 to 0x31000. -/
def tpl : Nat := packFields [(0x30000, 0), (0x31000, 64), (2, 256), (4, 384), (4, 448), (8, 512), (8, 544), (8, 576)]

/-- The same as a gather of one row, with barrier 0: its mask at 0x32000. -/
def tplGather : Nat :=
  packFields [(0x30000, 0), (0x31000, 64), (0x32000, 192), (2, 256), (1, 258), (1, 262), (1, 263), (4, 384), (4, 448), (8, 512), (8, 544),
    (8, 576), (32, 704), (32, 768), (1, 832), (1, 864), (1, 896)]

/-- A copy of lane 0 of the group. -/
def copyOf (v : Nat) : Copy :=
  { id := 9, g := 1, lane := 0, ctx := 0, team := 1, num := 0, tplIdx := 7, tpl := leBytes 256 v, sshift := 0, dshift := 0, started := true }

/-- The machine whose channel 7 of core 0 has a copy in service. -/
def copying (y : Copy) : State := small.modCore 0 (fun k => { k with chans := cput {} k.chans 7 { q := [y] } })

/-- The machine whose context has written template 7, s5 naming it. -/
def templated : State :=
  { (smallWith (fun x => x.setScal 5 7 64 false)).modCtx 0 (fun c => { c with tplWritten := [7] }) with
    mem := cputs 0 small.mem (0x3000000 + 256 * 7) (leBytes 256 tpl) }

/-- ST.b64 s5 to %capbase, 0x100. -/
def eCopy : Enc := enc .b64 0 (.scal 5) (.sys .capbase) (.imm 0x100) 5

/-- A copy to be issued; a template that is refused, one that is written, an index that is too high; batches that are complete and
outstanding, in lanes 0 and 31. -/
theorem witness_CopyIssue :
    Met false (storeUses eCopy 8) eCopy (fun s c => issuesCopies eCopy s c ∧ (s.publish c.x.agent c.x.core 1).unperformed c.x.agent = false) ∧
    (templated.template 0 7).isSome = true ∧
    (let e := enc .b8 0 .nil (.scal 1) (.rs 0x100) 0
     let uses := fun (s : State) (c : Iss) => { o := e.b, n := 256, lanes := c.act } :: uniChecks [e.a] s c
     let bad := fun (s : State) (c : Iss) => 4096 ≤ (uni s c e.a .b64).1 ∨ tpRefused (readWords c.x.rf.win 0x100 256).1 = true
     Met false uses { e with grd := 2 } (fun _ c => liveLanes c = []) ∧ Met false uses e (fun s c => liveLanes c ≠ [] ∧ bad s c) ∧
     Met false uses e (fun s c => liveLanes c ≠ [] ∧ ¬bad s c)) ∧
    ((((smallWith (fun x => { x with wait := some { kind := .template, m := 1, pc := 0, prio := 0x800 } })).group? 1).getD probeGroup).canResume = true) ∧
    (let e := enc .b8 0 (.scal 3) .nil .nil 0
     Met false (opUses [] e.d 4) e (fun _ c => ∀ l ∈ liveLanes c, (c.x.lane l).outstanding < 8) ∧
     Met false (opUses [] e.d 4) e (fun _ c => ∃ l ∈ liveLanes c, 8 ≤ (c.x.lane l).outstanding)) ∧
    (let e := enc .b8 0 .nil (.imm 3) .nil 0
     let uses := fun (_ : State) (c : Iss) => [{ o := e.a, n := 4, lanes := c.act : Use }]
     Met false uses e (fun s c => ∀ l ∈ liveLanes c, batchOut e s c l = false) ∧
     Met false uses e (fun s c => ∃ l ∈ liveLanes c, batchOut e s c l = true) ∧
     Met false uses e (fun s _ => Unlogged s)) ∧ (31 < 32) :=
  ⟨met (s := templated) (by decide +kernel), by decide +kernel,
   ⟨met (s := small) (by decide +kernel), met (s := smallWith (fun x => x.setScal 1 4096 64 false)) (by decide +kernel),
    met (s := smallWith (fun x => x.rswrite 0x100 256 tpl false)) (by decide +kernel)⟩,
   by decide +kernel,
   ⟨met (s := small) (by decide +kernel),
    met (s := smallWith (fun x => x.modLane 31 (fun q => { q with bout := 0xFF }))) (by decide +kernel)⟩,
   ⟨met (s := small) (by decide +kernel),
    met (s := smallWith (fun x => x.modLane 0 (fun q => { q with bout := 8 }))) (by decide +kernel), met (s := small) (by decide +kernel)⟩,
   by decide⟩

/-- A started copy before its last element, one that has not started, a gather at a row whose bit is 0; one that is done, one that failed;
an element that waits to be accepted; an entry of a write-back queue. -/
theorem witness_CopyChannels :
    (let y := { copyOf tpl with pos := 7 }
     ((copying y).inService 0 7).map (fun q => decide (q.1 = y)) = some true ∧ y.waiting = false ∧ y.fail = none ∧ y.pending = [] ∧
       y.started = true ∧ y.pos < tpPositions tpl ∧ tpGather (leNat y.tpl) = false ∧
       (match small.copyPlace probeGroup 7 (.copyRead false) (y.src.addr (posCoords y.src.dims y.pos)).toNat 4 with | .at _ => true | _ => false) = true ∧
       y.src.inBox (posCoords y.src.dims y.pos) = true ∧ y.dst.inBox (posCoords y.dst.dims y.pos) = true) ∧
    (({ copyOf tpl with started := false }).pos < tpPositions tpl) ∧
    (let y := copyOf tplGather
     ((copying y).inService 0 7).isSome = true ∧ tpGather (leNat y.tpl) = true ∧ y.pos < tpPositions (leNat y.tpl) ∧ y.cur ≠ some 0 ∧
       (match small.copyPlace probeGroup 7 (.copyRead false) 0x32000 1 with | .at _ => true | _ => false) = true ∧
       tpPositions (leNat y.tpl) ≤ 1 * tpCount (leNat y.tpl) 0) ∧
    (let y := { copyOf tpl with pos := 8 }
     ((copying y).inService 0 7).isSome = true ∧ y.started = true ∧ (y.pending = [] ∧ tpPositions (leNat y.tpl) ≤ y.pos)) ∧
    (({ copyOf tpl with fail := some (cADDR_RANGE, 0) }).fail.isSome = true) ∧
    (let y := { copyOf tpl with pending := [(2 ^ 42, [1], false)] }
     ((copying y).inService 0 7).isSome = true ∧ y.pending ≠ [] ∧
       (copying y).power.failed = false ∧ (copying y).roomFor (y.pending.map (fun q => q.1)) = true ∧
       (∀ q ∈ y.pending, (copying y).pbarHolds y q.1 = false ∧ (copying y).unbuilt q.1 = false ∧ (copying y).deltasWait q.1 = false)) ∧
    (let y := { copyOf (tpl + 2 ^ 272) with pos := 8 }
     let s := copying y
     ((s.inService 0 7).isSome = true ∧ (leNat y.tpl).testBit 272 = true ∧ y.fail = none) ∧
       ((s.publish (chanAgent 0 7) 0 5).unperformed (chanAgent 0 7) = false ∧ (s.publish (chanAgent 0 7) 0 5).backPending 0 = false) ∧
       (let t : State := { s with mergeQ := [{ who := whoBack 0, agent := evictAgent, pa := 2 ^ 42, bytes := [1], pois := false, tokens := false, due := 1000000 }] }
        (t.publish (chanAgent 0 7) 0 5).backPending 0 = true)) ∧
    (let y := { copyOf tpl with pos := 8, batch := some 3 }
     let s := (copying y).modGroup 1 (fun x => x.modLane 0 (fun q => { q with bout := 0x8000, bser := [(15, 3)] }))
     ((s.publish (chanAgent 0 7) 0 1).unperformed (chanAgent 0 7) = false) ∧
       (((stuck (chanAgent 0 7) s).publish (chanAgent 0 7) 0 1).unperformed (chanAgent 0 7) = true) ∧
       ((s.group? 1).map (fun z => ((z.lane 0).bout.getLsbD 15, cget 0 (z.lane 0).bser 15, (List.range 15).all (fun m => !(z.lane 0).bout.getLsbD m))) =
         some (true, 3, true)) ∧
       ((s.modChan 0 7 (fun q => { q with q := [] })).copies.any (fun w => w.g == 1 && w.lane == 0 && w.batch == some 3) = false)) ∧
    (let y := { copyOf tpl with pending := [(2 ^ 42, [1], false)] }
     ({ copying y with power := { full := false }, wbqs := [(0, [{ pa := 2 ^ 42, bytes := [1], pois := false }])] } : State).roomFor
         (y.pending.map (fun q => q.1)) = false) ∧
    (∀ par ∈ [false, true],
      let e : WbEnt := { pa := 2 ^ 42, bytes := [1], pois := false, par := par }
      cget [] ({ small with wbqs := [(3, [e])] } : State).wbqs (3 : BitVec 2).toNat = [e]) := by
  decide +kernel

/-! ### Stream ports -/

/-- A reading descriptor of f32 elements: 8 of them, 4 bytes apart, from 0x30000. -/
def sdesc : Nat := packFields [(0x30000, 0), (8, 128), (4, 160), (0x10, 448)]

/-- The machine whose scratchpad holds the descriptor at 64, s1 naming it. -/
def described : State := (smallWith (fun x => x.setScal 1 64 64 false)).modTeam 1 (fun t => { t with scr := (writeWords t.scr 64 64 sdesc false).1 })

/-- A group with port 15 bound. -/
def bound (x : Group) : Group :=
  { x with ports := cput none x.ports 15 (some { desc := leBytes 64 sdesc, dpois := false, steps := [], ahead := [] }) }

/-- A group with port 15 bound for writing. -/
def writingPort (x : Group) : Group :=
  { x with ports := cput none x.ports 15 (some { desc := leBytes 64 (sdesc + 2 ^ 453), dpois := false, steps := [], ahead := [] }) }

/-- The machine with the descriptor whose core has no engine left: four other groups of it have sixteen ports each. -/
def crowdedPorts : State :=
  { described with groups := described.groups ++ (List.range 4).map (fun k => (k + 2, { probeGroup with
      num := k + 1, slot := some (k + 1),
      ports := (List.range 16).foldl (fun t i => cput none t i (some { desc := leBytes 64 sdesc, dpois := false, steps := [], ahead := [] })) [] })) }

theorem witness_StreamPorts :
    (let e := enc .b8 0 (.port 15) (.scal 1) .nil 0
     let desc := fun (s : State) (c : Iss) => (s.ownView c.x.agent).scrRead c.x.team (uni s c e.a .b64).1 64
     let fit := fun (s : State) (c : Iss) => (uni s c e.a .b64).2 = false ∧ (uni s c e.a .b64).1 < s.scratchOf c.x ∧ (uni s c e.a .b64).1 % 64 = 0 ∧
       (desc s c).2 = false ∧ sdRefused (desc s c).1 = false
     let bnd := fun (c : Iss) => (c.x.port? 15).isSome = true
     let pushed := fun (s : State) (c : Iss) => s.grantUpTo (whoCore c.x.core)
     let late := fun (s : State) (c : Iss) => (pushed s c).unperformed c.x.agent = true
     Met false (uniChecks [e.a]) e (fun s c => c.act ≠ 0 ∧ fit s c ∧ c.x.port? 15 = none ∧ s.enginesUsed c.x.core < 64) ∧
     Met false (uniChecks [e.a]) e (fun s c => c.act ≠ 0 ∧ fit s c ∧ bnd c ∧ ¬late s c ∧ ((pushed s c).releasePort c.g 15).enginesUsed c.x.core < 64) ∧
     Met false (uniChecks [e.a]) e (fun s c => c.act ≠ 0 ∧ fit s c ∧ c.x.port? 15 = none ∧ 64 ≤ s.enginesUsed c.x.core) ∧
     Met false (uniChecks [e.a]) e (fun s c => c.act ≠ 0 ∧ fit s c ∧ bnd c ∧ late s c) ∧
     Met false (fun _ _ => []) e (fun s c => c.act ≠ 0 ∧ bnd c ∧ ¬late s c) ∧ Met false (fun _ _ => []) e (fun s c => c.act ≠ 0 ∧ bnd c ∧ late s c) ∧
     (∀ s ∈ [smallWith writingPort, stuck probeGroup.agent (smallWith writingPort)], ∃ p, (s.iss? e).bind (fun c => c.x.port? 15) = some p ∧
       (leNat p.desc).testBit 453 = true) ∧
     Met false (fun _ c => [{ o := e.a, n := 4, lanes := c.act }]) e (fun _ c => c.act ≠ 0 ∧ (c.x.port? 15).isSome = true) ∧
     Met false (fun _ _ => []) e (fun _ c => c.act ≠ 0 ∧ c.x.port? 15 = none) ∧
     Met false (uniChecks [e.a]) { e with grd := 2 } (fun _ c => c.act = 0)) ∧
    (let s := smallWith bound
     let x := (s.group? 1).getD probeGroup
     (x.port? 15).map (fun p => (leNat p.desc, p.nextAhead 31)) = some (sdesc, 0) ∧ x.slot.isSome = true ∧ x.engineWait = false ∧
       (x.lane 31).st = .live ∧ sdesc.testBit 453 = false ∧ 0 < sdLength sdesc ∧
       (s.checkLanes x .pop 0 1 [{ lane := 31, ea := 0x30000, n := sdSize sdesc }]).isOk = true) ∧
    (sdDims sdesc = 1 ∧ 7 < sdLength sdesc) :=
  ⟨⟨met (s := described) (by decide +kernel), met (s := described.modGroup 1 bound) (by decide +kernel),
    met (s := crowdedPorts) (by decide +kernel),
    met (s := stuck probeGroup.agent (described.modGroup 1 bound)) (by decide +kernel), met (s := smallWith bound) (by decide +kernel),
    met (s := stuck probeGroup.agent (smallWith bound)) (by decide +kernel),
    fun s h => ⟨{ desc := leBytes 64 (sdesc + 2 ^ 453), dpois := false, steps := [], ahead := [] }, by
      simp only [List.mem_cons, List.not_mem_nil, or_false] at h
      rcases h with rfl | rfl <;> decide +kernel⟩,
    met (s := smallWith bound) (by decide +kernel), met (s := small) (by decide +kernel),
    met (s := small) (by decide +kernel)⟩, by decide +kernel, by decide +kernel⟩

/-! ### The matrix unit -/

/-- MSTEP and MLOOP with a reservation of f32 on both sides; the team holds reservation 0. -/
def reserving : State :=
  (smallWith (fun x => { x with rf := { x.rf with wbytes := 65536 } })).modTeam 1 (fun t => { t with obres := [(0, BitVec.ofNat 64 (packFields [(0x10, 0), (0x10, 5), (1, 25)]))] })

/-- An operation of the group in the queue of its core. -/
def withOp (o : MatOp) (s : State) : State := s.modCore 0 (fun k => { k with mq := k.mq ++ [o] })

/-- MZERO's. -/
def opZero : MatOp := { id := 5, g := 1, kind := 3, adrD := [0x1000] }

theorem witness_MatrixIssue :
    (let e := enc .b8 0 (.rs 0x1000) .nil .nil 0
     Met false (zeroUses e) e (fun s c => anyLive c ∧ (tileRuns c.x e.d).any (fun r => r.leaves c.x.rf.wbytes) = false ∧ matrixRoom s c) ∧
     Met false (zeroUses e) e (fun s c => anyLive c ∧ (tileRuns c.x e.d).any (fun r => r.leaves c.x.rf.wbytes) = false ∧ ¬matrixRoom s c) ∧
     Met false (zeroUses e) { e with grd := 2 } (fun _ c => ¬anyLive c)) ∧
    (let e := enc .a80i 0 (.rs 0x1000) (.rs 0x5000) (.rs 0x9000) 0
     Met false (maccUses e) e (fun s c => anyLive c ∧ matrixRoom s c)) ∧
    (let e := enc .f32 0 (.rs 0x5000) (.rs 0x1000) .nil 0
     Met false (mcvtUses e) e (fun s c => c.act ≠ 0 ∧ matrixRoom s c) ∧ Met false (mcvtUses e) e (fun s c => c.act ≠ 0 ∧ ¬matrixRoom s c)) ∧
    (let e := enc .a80f 0 (.rs 0x1000) (.rs 0x5000) (.rs 0x6000) 0
     Met false (sequenceUses e false) e (fun s c => anyLive c ∧ sequenceOk e false s c ∧ matrixRoom s c)) :=
  ⟨⟨met (s := reserving) (by decide +kernel),
    met (s := (List.range 4).foldl (fun s i => withOp { opZero with id := 10 + i, adrD := [0xC000] } s) reserving) (by decide +kernel),
    met (s := reserving) (by decide +kernel)⟩, met (s := reserving) (by decide +kernel),
   ⟨met (s := reserving) (by decide +kernel),
    met (s := (List.range 4).foldl (fun s i => withOp { opZero with id := 10 + i, adrD := [0xC000] } s) reserving) (by decide +kernel)⟩,
   met (s := reserving) (by decide +kernel)⟩

/-- An operation that may start; a step of a sequence from register space; a sequence without steps; a zeroed tile; an element whose
residue agrees. -/
theorem witness_MatrixUnit :
    (let s := withOp opZero reserving
     (∀ p ∈ (s.core 0).mq, p.running = false) ∧ (s.core 0).mq.find? (s.startable (s.core 0).mq) = some opZero) ∧
    (let o : MatOp := { id := 5, g := 1, kind := 1, running := true, steps := 2, ty := .a80f, adrD := [0x1000], adrA := [0x5000], adrB := [0x6000] }
     let s := withOp o reserving
     (s.core 0).mq.find? (fun p => p.running) = some o ∧ ((s.group? 1).map (fun x => x.unitRuns && (s.popStep 0 x o).isOk)) = some true ∧
       o.kind ≤ 2 ∧ 0 < o.steps) ∧
    (let r : MatOp := { id := 6, g := 1, kind := 1, running := true, steps := 2, ty := .a80f, adrD := [0x1000], portA := some 15, adrB := [0x6000] }
     let t := { probeGroup with rf := { probeGroup.rf with wbytes := 65536 } }
     let s := withOp { opZero with g := 2 } (withOp r ((reserving.modGroup 1 bound).setGroup 2 t))
     (s.core 0).mq.find? (fun p => p.running) = some r ∧ s.starvedOp r = true ∧
       (s.core 0).mq.find? (fun p => s.startable (s.core 0).mq p && !s.starvedOp p) = some { opZero with g := 2 }) ∧
    (let o : MatOp := { opZero with running := true }
     2 < o.kind ∧ ((withOp o reserving).core 0).mq.find? (fun p => p.running) = some o) ∧
    ((((0 : Nat) / 2 ^ 80 % 256 : Nat) : Int) = (BitVec.ofNat 80 0).toInt % 255) := by
  decide +kernel

/-- A reservation word: f32 on both sides, one unit at 0. -/
def resWord : Nat := packFields [(0x10, 0), (0x10, 5), (1, 25)]

/-- The same with its unit at 8. -/
def resWord2 : Nat := resWord + 8 * 2 ^ 16

/-- A sequence that uses reservation 0. -/
def opLoop : MatOp := { id := 5, g := 1, kind := 1, steps := 2, ty := .a80f, adrD := [0x1000], adrA := [0x5000], adrB := [0x6000] }

/-- The range of a reservation lies in the team's share and meets no other reservation of the team. -/
abbrev obRange (s : State) (c : Iss) (w : Nat) : Prop :=
  w / 2 ^ 16 % 512 + (w / 2 ^ 25 % 512 + 1) ≤ (s.launchOf c.x).hdr.obuf * 8

theorem witness_OperandBuffer :
    (let e := enc .b8 0 .nil (.scal 1) .nil 1
     Met false (uniChecks [e.a]) e (fun s c => c.act ≠ 0 ∧ (uni s c e.a .b64).2 = false ∧ obMalformed (uni s c e.a .b64).1 = false ∧
       obRange s c (uni s c e.a .b64).1 ∧ s.obWord c.x.team 1 = 0) ∧
     Met false (uniChecks [e.a]) { e with x := 0 } (fun s c => c.act ≠ 0 ∧ (uni s c e.a .b64).2 = false ∧ obMalformed (uni s c e.a .b64).1 = false ∧
       obRange s c (uni s c e.a .b64).1 ∧ s.obWord c.x.team 0 ≠ 0 ∧ s.obInUse c.x.team 0 = true) ∧
     Met false (fun _ _ => []) { e with x := 0, a := .nil } (fun s c => c.act ≠ 0 ∧ s.obWord c.x.team 0 ≠ 0 ∧ s.obInUse c.x.team 0 = true) ∧
     Met false (fun _ _ => []) { e with x := 0, a := .nil } (fun s c => c.act ≠ 0 ∧ s.obWord c.x.team 0 ≠ 0 ∧ s.obInUse c.x.team 0 = false) ∧
     Met false (fun _ _ => []) { e with a := .nil } (fun s c => c.act ≠ 0 ∧ s.obWord c.x.team 1 = 0)) ∧
    (let e := enc .b8 0 .nil (.imm 0) (.rs 0x100) 0
     Met false (fun s c => { o := e.b, n := 64, lanes := c.act } :: uniChecks [e.a] s c) e (fun s c =>
       anyLive c ∧ s.obWord c.x.team 0 ≠ 0 ∧ s.obInUse c.x.team 0 = false ∧ (uni s c e.a .b64).1 % 64 = 0 ∧
         (uni s c e.a .b64).1 + 64 ≤ (s.obWord c.x.team 0 / 2 ^ 25 % 512 + 1) * 128) ∧
     Met false (fun s c => { o := e.b, n := 64, lanes := c.act } :: uniChecks [e.a] s c) e (fun s c =>
       anyLive c ∧ s.obWord c.x.team 0 ≠ 0 ∧ s.obInUse c.x.team 0 = true ∧ (uni s c e.a .b64).1 % 64 = 0 ∧
         (uni s c e.a .b64).1 + 64 ≤ (s.obWord c.x.team 0 / 2 ^ 25 % 512 + 1) * 128)) ∧
    (let e := enc .b8 0 .nil .nil .nil 0
     Met false (fun _ _ => []) e (fun s c => c.act ≠ 0 ∧ ∀ o ∈ s.opsOf c.g c.x.core, o.suspended = true) ∧
     Met false (fun _ _ => []) e (fun s c => c.act ≠ 0 ∧ ∃ o ∈ s.opsOf c.g c.x.core, o.suspended = false) ∧
     Met true (fun _ _ => []) { e with mod := 1 } (fun s c => c.act ≠ 0 ∧ ∀ o ∈ s.opsOf c.g c.x.core, o.running = true → o.kind < 3) ∧
     (let s := (withOp { opZero with running := true } reserving).modGroup 1 toHandler
      (s.iss? { e with mod := 1 }).map (fun c => c.x.issuable && s.mayRun c.x && !c.x.engineWait && c.x.handler && c.act != 0
        && (s.opsOf c.g c.x.core).any (fun o => o.running && decide (3 ≤ o.kind))) = some true)) :=
  ⟨⟨met (s := reserving.modGroup 1 (fun x => x.setScal 1 resWord2 64 false)) (by decide +kernel),
    met (s := withOp opLoop (reserving.modGroup 1 (fun x => x.setScal 1 resWord 64 false))) (by decide +kernel),
    met (s := withOp opLoop reserving) (by decide +kernel), met (s := reserving) (by decide +kernel),
    met (s := reserving) (by decide +kernel)⟩,
   ⟨met (s := reserving) (by decide +kernel), met (s := withOp opLoop reserving) (by decide +kernel)⟩,
   ⟨met (s := reserving) (by decide +kernel), met (s := withOp opZero reserving) (by decide +kernel),
    met (s := (withOp { opLoop with running := true } reserving).modGroup 1 toHandler) (by decide +kernel),
    by decide +kernel⟩⟩

/-! ### Barriers, persistence, tasks, the hinge -/

/-- Barrier 3 of the team with a count, of 4. -/
def barred (n : Nat) : State := small.modTeam 1 (fun t => { t with bars := cput {} t.bars 3 { ph := false, exp := 4, cnt := n, aux := 0 } })

theorem witness_Barriers :
    (let e := enc .b8 0 (.pred 1) (.imm 3) (.imm 0) 0
     (∀ n ∈ [(1 : BitVec 16), 32767], Met false (uniChecks [e.a, (.imm n)]) { e with d := .nil, b := .imm n } (fun s c =>
       barOk e (uPois s c (.imm n)) s c ∧ 1 ≤ u32 s c (.imm n) ∧ u32 s c (.imm n) ≤ 32767 ∧
         (s.teamGroups c.x.team).any (fun p => p.2.waitsOn (u32 s c e.a) || p.2.heldOn (u32 s c e.a)) = false)) ∧
     Met false (uniChecks [e.a, e.b]) e (fun s c => barOk e (uPois s c e.b) s c ∧ (u32 s c e.b = 0 ∨ 32767 < u32 s c e.b)) ∧
     Met false (dabUses e) e (fun s c => barOk e false s c ∧ (theBar e s c).exp ≠ 0 ∧ countOf e c ≤ (theBar e s c).cnt ∧ Unlogged s ∧
       countOf e c = 1 ∧ published 1 s c) ∧
     Met false (dabUses e) e (fun s c => barOk e false s c ∧ (theBar e s c).exp ≠ 0 ∧ countOf e c ≤ (theBar e s c).cnt ∧
       ¬(countOf e c = 0 ∨ published 1 s c)) ∧
     Met false (uniChecks [e.a]) e (fun s c => barOk e false s c ∧ (theBar e s c).exp ≠ 0 ∧ countOf e c ≤ (theBar e s c).cnt ∧
       ¬(countOf e c = 0 ∨ published 1 s c)) ∧
     Met false (dabUses { e with mod := 1 }) { e with mod := 1 } (fun s c =>
       barOk e false s c ∧ (theBar e s c).exp ≠ 0 ∧ ¬countOf { e with mod := 1 } c ≤ (theBar e s c).cnt) ∧
     Met false (uniChecks [e.a, e.b]) e (fun s c => (barOk e (uPois s c e.b) s c ∧ (theBar e s c).exp ≠ 0 ∧ Unlogged s) ∧
       (s.teamOf c.x).broken = false ∧ ¬(theBar e s c).ph ≠ (u32 s c e.b).testBit 0) ∧
     Met false (uniChecks [e.a]) e (fun s c => (barOk e false s c ∧ (theBar e s c).exp ≠ 0 ∧ Unlogged s ∧ countOf e c ≤ (theBar e s c).cnt) ∧
       liveLanes c ≠ [] ∧ (s.teamOf c.x).broken = false) ∧
     Met false (dabUses { e with a := .imm 4 }) { e with a := .imm 4 } (fun s c => c.act ≠ 0 ∧ uPois s c (.imm 4) = false ∧
       uPois s c e.b = false ∧ (s.launchOf c.x).hdr.bars ≤ u32 s c (.imm 4))) ∧
    (((barred 1).team? 1).map (fun t => (t.bar 3).cnt) = some 1 ∧ (1 : Nat) ≠ 0 ∧ (barred 1).caps = [] ∧ (barred 1).replays = []) ∧
    (let s := smallWith (fun x => { x with wait := some { kind := .barrier 3 2 7 none, m := 7, pc := 0, prio := 0x800 } })
     (s.group? 1).map (fun y => (y.team, decide (y.st = .active), y.wait.map (fun w => w.kind))) = some (1, true, some (.barrier 3 2 7 none))) :=
  ⟨⟨fun n h => by
      simp only [List.mem_cons, List.not_mem_nil, or_false] at h
      rcases h with rfl | rfl <;> exact met (s := small) (by decide +kernel),
    met (s := small) (by decide +kernel), met (s := barred 1) (by decide +kernel),
    met (s := stuck probeGroup.agent (barred 1)) (by decide +kernel), met (s := stuck probeGroup.agent (barred 1)) (by decide +kernel), met (s := barred 4) (by decide +kernel),
    met (s := barred 4) (by decide +kernel), met (s := barred 4) (by decide +kernel), met (s := small) (by decide +kernel)⟩,
   by decide +kernel, by decide +kernel⟩

theorem witness_FencesAndPersistence :
    Met false (fun _ _ => []) (enc .b8 0 .nil .nil .nil 5) (fun s c => c.act ≠ 0 ∧ published 5 s c) ∧
    Met false (fun _ _ => []) (enc .b8 0 .nil .nil .nil 5) (fun s c => c.act ≠ 0 ∧ ¬published 5 s c) ∧
    Met false (fun _ _ => []) (enc .b8 0 .nil .nil .nil 5) (fun _ _ => True) ∧
    Met false (fun _ _ => []) (enc .b8 0 (.pred 1) .nil .nil 0) (fun s c => c.act = 0 ∨ (Unlogged s ∧ ∀ l ∈ liveLanes c, s.persisting c.g l = false)) ∧
    Met false (fun _ _ => []) (enc .b8 0 (.pred 1) .nil .nil 0) (fun s c => c.act ≠ 0 ∧ ∃ l ∈ liveLanes c, s.persisting c.g l = true) :=
  ⟨met (s := small) (by decide +kernel), met (s := stuck probeGroup.agent small) (by decide +kernel), met (s := small) (by decide +kernel),
   met (s := small) (by decide +kernel), met (s := copying (copyOf (tpl + 2 ^ 261))) (by decide +kernel)⟩

/-- STEPADV with and without the step flag; DEPDEC of an own counter and of none; QPUSH to a device queue; a counter whose task fires; a
queue that is full and one that is not. -/
theorem witness_StepsAndTasks :
    (let e := enc .b8 0 (.scal 3) .nil .nil 0
     Met false (fun _ c => [({ o := e.d, n := 8, lanes := c.act, dest := true } : Use)]) e (fun s c =>
       (leNat (s.launchOf c.x).lrec).testBit 25 = true ∧ liveLanes c ≠ [] ∧ published 5 s c ∧ (s.ctx c.x.ctx).stepGroup = none) ∧
     Met false (fun _ c => [({ o := e.d, n := 8, lanes := c.act, dest := true } : Use)]) e (fun s c =>
       (leNat (s.launchOf c.x).lrec).testBit 25 = true ∧ liveLanes c ≠ [] ∧ published 5 s c ∧ (s.ctx c.x.ctx).stepGroup ≠ none ∧
         (cget ({} : Etch) s.etches c.x.ctx).accepted = some (s.ctx c.x.ctx).step.toNat) ∧
     Met false (fun _ c => [({ o := e.d, n := 8, lanes := c.act, dest := true } : Use)]) e (fun s c =>
       (leNat (s.launchOf c.x).lrec).testBit 25 = true ∧ liveLanes c ≠ [] ∧ published 5 s c ∧ (s.ctx c.x.ctx).stepGroup ≠ none ∧
         (cget ({} : Etch) s.etches c.x.ctx).accepted ≠ some (s.ctx c.x.ctx).step.toNat) ∧
     Met false (fun _ c => [({ o := e.d, n := 8, lanes := c.act, dest := true } : Use)]) e (fun s c =>
       (leNat (s.launchOf c.x).lrec).testBit 25 = true ∧ liveLanes c ≠ [] ∧ ¬published 5 s c) ∧
     Met false (fun _ c => [({ o := e.d, n := 8, lanes := c.act, dest := true } : Use)]) e (fun s c =>
       c.act ≠ 0 ∧ (leNat (s.launchOf c.x).lrec).testBit 25 = false)) ∧
    (let e := enc .b8 0 .nil (.imm 5) (.imm 1) 0
     let own := fun (s : State) (c : Iss) => u32 s c e.a < 8192 ∧ (s.ctr (u32 s c e.a)).owner = some c.x.ctx
     Met false (uniChecks [e.a, e.b]) e (fun s c => c.act ≠ 0 ∧ uPois s c e.a = false ∧ uPois s c e.b = false ∧ own s c ∧
       u32 s c e.b % 2 ^ 16 ≠ 0 ∧ liveLanes c ≠ [] ∧ published 5 s c) ∧
     Met false (uniChecks [e.a, e.b]) e (fun s c => c.act ≠ 0 ∧ uPois s c e.a = false ∧ uPois s c e.b = false ∧ own s c ∧
       u32 s c e.b % 2 ^ 16 ≠ 0 ∧ liveLanes c ≠ [] ∧ ¬published 5 s c) ∧
     Met false (uniChecks [e.a, e.b]) e (fun s c => c.act ≠ 0 ∧ uPois s c e.a = false ∧ uPois s c e.b = false ∧ ¬own s c)) ∧
    (let e := enc .b8 0 (.scal 3) (.imm 9) (.rs 0x100) 0
     Met false (fun s c => { o := e.d, n := 8, lanes := c.act, dest := true } :: { o := e.b, n := 256, lanes := c.act } :: uniChecks [e.a] s c) e
       (fun s c => uPois s c e.a = false ∧ (uni s c e.a .b64).1 < 4096 ∧ (s.queue 9).ctx = c.x.ctx ∧ (s.queue 9).dev = true ∧
         (s.queue 9).st ≠ .disabled ∧ (readWords c.x.rf.win 0x100 256).2.1 = false ∧ Unlogged s ∧
           liveLanes c ≠ [] ∧ published 5 s c) ∧
     Met false (fun s c => { o := e.d, n := 8, lanes := c.act, dest := true } :: { o := e.b, n := 256, lanes := c.act } :: uniChecks [e.a] s c) e
       (fun s c => c.act ≠ 0 ∧ uPois s c e.a = false ∧ (uni s c e.a .b64).1 < 4096 ∧ (s.queue 9).ctx = c.x.ctx ∧ (s.queue 9).dev = true ∧
         (s.queue 9).st ≠ .disabled ∧ (readWords c.x.rf.win 0x100 256).2.1 = false ∧ liveLanes c ≠ [] ∧ ¬published 5 s c)) ∧
    (({ small with ctrs := cput {} small.ctrs 5 { owner := some 0, value := 1 } } : State).ctr 5).value = 1 ∧
    (({ st := .enabled, tail := 16 } : Queue).full = true ∧ ({ st := .enabled, tail := 15 } : Queue).full = false) :=
  ⟨⟨met (s := small) (by decide +kernel),
    met (s := { small.modCtx 0 (fun c => { c with stepGroup := some 7, step := 5 }) with etches := cput {} [] 0 { accepted := some 5 } }) (by decide +kernel),
    met (s := small.modCtx 0 (fun c => { c with stepGroup := some 7, step := 5 })) (by decide +kernel),
    met (s := stuck probeGroup.agent small) (by decide +kernel), met (s := small.modLaunch 1 (fun l => { l with lrec := [] })) (by decide +kernel)⟩,
   ⟨met (s := { small with ctrs := cput {} small.ctrs 5 { owner := some 0, value := 1 } }) (by decide +kernel),
    met (s := stuck probeGroup.agent { small with ctrs := cput {} small.ctrs 5 { owner := some 0, value := 1 } }) (by decide +kernel), met (s := small) (by decide +kernel)⟩,
   ⟨met (s := { small with queues := cput {} small.queues 9 { st := .enabled, dev := true } }) (by decide +kernel),
    met (s := stuck probeGroup.agent { small with queues := cput {} small.queues 9 { st := .enabled, dev := true } }) (by decide +kernel)⟩,
   by decide +kernel, by decide +kernel⟩

/-- A virtual-die table of one entry: die 0 of module 0. -/
def mapped : State :=
  { small.modCtx 0 (fun c => { c with desc := { c.desc with vdtlen := 1 } }) with mem := cputs 0 small.mem 0x2000000 (leBytes 4 (2 ^ 31)) }

theorem witness_HingeAndDistances :
    (let e := enc .b8 0 (.scal 3) (.scal 1) .nil 0
     Met false (dabUses e) e (fun s c => uPois s c e.a = false ∧ Unlogged s) ∧
     Met false (dabUses e) e (fun s c => c.act ≠ 0 ∧ uPois s c e.a = true)) ∧
    (let e := enc .b32 0 (.scal 3) (.imm 0) (.imm 0) 0
     Met false (opUses [{ o := e.a, ty := .b32 }, { o := e.b, ty := .b32 }] e.d 4) e (fun s c => Unlogged s ∧
       ∀ l ∈ computeLanes e.d c.act, (srcOf s c e.a .b32 l).2.1 = false ∧ (srcOf s c e.b .b32 l).2.1 = false ∧
         (s.vdie (s.ctx c.x.ctx).desc ((srcOf s c e.a .b32 l).1 % 2 ^ 16)).isSome = true)) ∧ 431 < 432 :=
  ⟨⟨met (s := small) (by decide +kernel), met (s := smallWith (fun x => x.setScal 1 0 64 true)) (by decide +kernel)⟩,
   met (s := mapped) (by decide +kernel), by decide⟩

end Sys2Proof.Tests
end

section
/-! What the hub's own work leaves of groups and cores: the end of a group (R300) goes on to its team, cluster and launch, and the records that
go to the host are written to memory; none of this starts, stops or moves a group, and none of it touches a core. -/

namespace Sys2Proof.Proofs.Placement

open Sys2Proof Sys2Proof.Machine Sys2Proof.Laws

/-! ### The relation -/

/-- Two records of a group agree in state, slot, frontier and outstanding instructions. -/
def SameRun (x y : Group) : Prop := y.st = x.st ∧ y.slot = x.slot ∧ y.frontier = x.frontier ∧ y.pend = x.pend

/-- From `s` to `t` the cores stay as they are, and every group of `t` was there in `s`, as far along as it is in `t`. -/
structure HubFrame (s t : State) : Prop where
  cores : t.cores = s.cores
  groups : ∀ p ∈ t.groups, ∃ q ∈ s.groups, q.1 = p.1 ∧ SameRun q.2 p.2

namespace HubFrame

theorem of_eq {s t : State} (hc : t.cores = s.cores) (hg : t.groups = s.groups) : HubFrame s t :=
  ⟨hc, fun p hp => ⟨p, hg ▸ hp, rfl, rfl, rfl, rfl, rfl⟩⟩

/-- Groups may go. -/
theorem of_filter {s t : State} {f : Nat × Group → Bool} (hc : t.cores = s.cores) (hg : t.groups = s.groups.filter f) : HubFrame s t :=
  ⟨hc, fun p hp => ⟨p, List.mem_of_mem_filter (hg ▸ hp), rfl, rfl, rfl, rfl, rfl⟩⟩

/-- Groups may change in what `SameRun` does not look at. -/
theorem of_map {s t : State} {f : Nat × Group → Nat × Group} (hc : t.cores = s.cores) (hg : t.groups = s.groups.map f)
    (hf : ∀ p, p.1 = (f p).1 ∧ SameRun p.2 (f p).2) : HubFrame s t := by
  refine ⟨hc, fun p hp => ?_⟩
  rw [hg] at hp
  obtain ⟨q, hq, rfl⟩ := List.mem_map.mp hp
  exact ⟨q, hq, hf q⟩

theorem refl (s : State) : HubFrame s s := of_eq rfl rfl

theorem trans {s t u : State} (h : HubFrame s t) (k : HubFrame t u) : HubFrame s u := by
  refine ⟨k.cores.trans h.cores, fun p hp => ?_⟩
  obtain ⟨q, hq, hk, st, sl, fr, pe⟩ := k.groups p hp
  obtain ⟨r, hr, hk', st', sl', fr', pe'⟩ := h.groups q hq
  exact ⟨r, hr, hk'.trans hk, st.trans st', sl.trans sl', fr.trans fr', pe.trans pe'⟩

/-- First a change of what the relation does not look at. -/
theorem before {s t u : State} (k : HubFrame t u) (hc : t.cores = s.cores) (hg : t.groups = s.groups) : HubFrame s u :=
  (of_eq hc hg).trans k

/-- Last a change of what the relation does not look at. -/
theorem after {s t u : State} (h : HubFrame s t) (hc : u.cores = t.cores) (hg : u.groups = t.groups) : HubFrame s u :=
  h.trans (of_eq hc hg)

theorem foldl {α : Type} {f : State → α → State} (hf : ∀ s a, HubFrame s (f s a)) (l : List α) (s : State) : HubFrame s (l.foldl f s) :=
  foldl_keeps (P := HubFrame s) (fun _ a h => h.trans (hf _ a)) l s (refl s)

/-- A core reads as before. -/
theorem core {s t : State} (h : HubFrame s t) (c : Nat) : t.core c = s.core c := by
  simp only [State.core, h.cores]

end HubFrame

/-! ### Memory -/

theorem hbmTouch_frame (s : State) (pa n : Nat) (w : Bool) : HubFrame s (s.hbmTouch pa n w) := by
  unfold State.hbmTouch; split <;> exact .of_eq rfl rfl

theorem memPut_frame (s : State) (pa : Nat) (bs : List Byte) (p : Bool) : HubFrame s (s.memPut pa bs p) := .of_eq rfl rfl

theorem memWrite_frame (s : State) (pa : Nat) (bs : List Byte) (p : Bool) : HubFrame s (s.memWrite pa bs p) :=
  (hbmTouch_frame s pa bs.length true).trans (memPut_frame _ pa bs p)

/-- A write wakes the lanes that wait for it and changes nothing else of a group. -/
theorem noteWrite_frame (s : State) (c : Option Nat) (a n : Nat) (d : Option Nat) : HubFrame s (s.noteWrite c a n d) :=
  .of_map rfl rfl fun _ => ⟨rfl, rfl, rfl, rfl, rfl⟩

theorem modLine_frame (s : State) (ln : Nat) (f : LineSt → LineSt) : HubFrame s (s.modLine ln f) := .of_eq rfl rfl

theorem dirtyOut_frame (s : State) (ln : Nat) : HubFrame s (s.dirtyOut ln) := by
  unfold State.dirtyOut
  split
  · exact hbmTouch_frame _ _ _ _
  · exact .refl s

theorem recallLine_frame (s : State) (ln : Nat) : HubFrame s (s.recallLine ln) :=
  (dirtyOut_frame s ln).trans (modLine_frame _ _ _)

theorem homeWrite_frame (s : State) (pa : Nat) (bs : List Byte) (p : Bool) : HubFrame s (s.homeWrite pa bs p) :=
  ((noteWrite_frame s none pa bs.length none).trans (.foldl recallLine_frame (linesOf pa bs.length) _)).trans
    (.before (memWrite_frame _ pa bs p) rfl rfl)

theorem modTeam_frame (s : State) (k : Nat) (f : Team → Team) : HubFrame s (s.modTeam k f) := .of_eq (by simp) (by simp)

theorem modCluster_frame (s : State) (k : Nat) (f : Cluster → Cluster) : HubFrame s (s.modCluster k f) := by
  unfold State.modCluster; split <;> exact .of_eq rfl rfl

/-! ### Requests that arrive and are granted (R334, R335) -/

theorem fabSend_frame (s : State) (m : Nat) : HubFrame s (s.fabSend m) := by
  unfold State.fabSend; split <;> exact .of_eq rfl rfl

theorem postReq_frame (s : State) (r : MergeReq) : HubFrame s (s.postReq r) := by
  unfold State.postReq
  dsimp only
  split
  · exact (fabSend_frame s _).trans (.of_eq rfl rfl)
  · exact .of_eq rfl rfl

theorem writeOut_frame (s : State) (agent die ln : Nat) : HubFrame s (s.writeOut agent die ln) := by
  unfold State.writeOut
  split
  · exact .refl s
  · exact (HubFrame.foldl (fun _ _ => postReq_frame _ _) _ s).trans (modLine_frame _ _ _)

theorem evictL2_frame (s : State) (die ln : Nat) : HubFrame s (s.evictL2 die ln) := by
  unfold State.evictL2
  dsimp only
  refine (writeOut_frame s evictAgent die ln).trans ?_
  split
  · exact (dirtyOut_frame _ ln).trans (modLine_frame _ _ _)
  · exact modLine_frame _ _ _

theorem victim_frame (s : State) (ls : List (Nat × LineSt)) (die : Nat) : HubFrame s (s.victim ls die).2 := by
  unfold State.victim; split <;> exact .of_eq rfl rfl

/-- An L2 over its size gives up a line. -/
theorem trimL2_frame (s : State) (core ln : Nat) :
    HubFrame s (if (s.l2Lines (dieOf core)).length ≤ 524288 then s else
      (s.victim ((s.l2Lines (dieOf core)).filter (fun p => p.1 != ln)) (dieOf core)).2.evictL2 (dieOf core)
        (s.victim ((s.l2Lines (dieOf core)).filter (fun p => p.1 != ln)) (dieOf core)).1) := by
  split
  · exact .refl s
  · exact (victim_frame _ _ _).trans (evictL2_frame _ _ _)

theorem makeRoom_frame (s : State) (core ln : Nat) : HubFrame s (s.makeRoom core ln) := by
  unfold State.makeRoom
  dsimp only
  refine HubFrame.trans ?_ (trimL2_frame _ core ln)
  split
  · exact .refl s
  · exact (victim_frame _ _ _).trans (modLine_frame _ _ _)

theorem gatherLine_frame (s : State) (r : MergeReq) (ln : Nat) : HubFrame s (s.gatherLine r ln) := by
  unfold State.gatherLine
  split
  · exact (modLine_frame s ln _).trans (makeRoom_frame _ _ _)
  · exact recallLine_frame s ln

theorem applyReq_frame (s : State) (r : MergeReq) : HubFrame s (s.applyReq r) := by
  unfold State.applyReq
  split
  · exact modTeam_frame s _ _
  · split
    · exact memPut_frame s _ _ _
    · exact memWrite_frame s _ _ _

theorem grantReq_frame (s : State) (r : MergeReq) : HubFrame s (s.grantReq r) := by
  have note : HubFrame s (if r.scr.isSome || r.tokens then s.noteWrite r.scr r.pa r.bytes.length (dieOfWho r.who) else s) := by
    split
    · exact noteWrite_frame s _ _ _ _
    · exact .refl s
  have gather (u : State) : HubFrame u (if r.scr.isSome || !r.tokens then u
      else (linesOf r.pa r.bytes.length).foldl (fun (s : State) ln => s.gatherLine r ln) u) := by
    split
    · exact .refl u
    · exact .foldl (fun s ln => gatherLine_frame s r ln) _ u
  exact (note.trans (gather _)).trans (applyReq_frame _ r)

theorem grantIn_frame (s : State) (p : MergeReq → Bool) (q : List MergeReq) : HubFrame s (s.grantIn p q).1 := by
  refine foldl_keeps (P := fun acc : State × List MergeReq => HubFrame s acc.1) ?_ q (s, []) (.refl s)
  intro acc r h
  dsimp only
  split
  · exact h.trans (.before (grantReq_frame _ r) rfl rfl)
  · exact h

theorem grantUpTo_frame (s : State) (who : Nat) : HubFrame s (s.grantUpTo who) := by
  unfold State.grantUpTo State.grantWhere
  split
  · exact .refl s
  · exact .after (.before (grantIn_frame { s with mergeQ := [] } _ _) rfl rfl) rfl rfl

theorem writeBack_frame (s : State) (agent core scope : Nat) : HubFrame s (s.writeBack agent core scope) := by
  unfold State.writeBack
  split
  · exact .refl s
  · exact .foldl (fun s ln => writeOut_frame s _ _ ln) _ s

theorem publish_frame (s : State) (agent core scope : Nat) : HubFrame s (s.publish agent core scope) :=
  (writeBack_frame s agent core scope).trans (grantUpTo_frame _ _)

/-! ### Records and events for the host (R420 to R425, R441) -/

theorem putEvent_frame (s : State) (st : BitVec 16) (r : Word64) : HubFrame s (s.putEvent st r) := by
  unfold State.putEvent
  dsimp only
  split
  · exact .of_eq rfl rfl
  · split <;> exact .of_eq rfl rfl

theorem notify_frame (s : State) : HubFrame s s.notify :=
  .before (putEvent_frame ((s.fresh 16).2.fresh 64).2 _ _) rfl rfl

theorem signalErr_frame (s : State) (sev : Nat) : HubFrame s (s.signalErr sev) := by
  have stamped : HubFrame s { s.notify with advTime := some s.timebase.toNat } := (notify_frame s).after rfl rfl
  unfold State.signalErr
  split
  · exact .refl s
  · split
    · split
      · split
        · exact .refl s
        · exact stamped
      · exact stamped
    · exact notify_frame s

theorem appendErr_frame (s : State) (q : ErrQ) (cap base : Nat) (r : ErrRec) (step : Word64) :
    HubFrame s (s.appendErr q cap base r step).1 := by
  unfold State.appendErr
  split
  · exact .refl s
  · exact homeWrite_frame s _ _ _

/-- An error queue takes a record, and the host is told. -/
theorem writeErr_frame (s : State) (r : ErrRec) : HubFrame s (s.writeErr r) := by
  unfold State.writeErr
  dsimp only
  split
  · exact .of_eq rfl rfl
  · refine HubFrame.trans ?_ (signalErr_frame _ _)
    split
    · exact .before (.after (appendErr_frame _ _ _ _ _ _) rfl rfl) (by split <;> rfl) (by split <;> rfl)
    · exact .before (.after (appendErr_frame _ _ _ _ _ _) rfl rfl) (by split <;> rfl) (by split <;> rfl)

/-! ### The end of a launch (R287) -/

theorem modQueue_frame (s : State) (k : Nat) (f : Queue → Queue) : HubFrame s (s.modQueue k f) :=
  .before ((homeWrite_frame { s with queues := cput {} s.queues k (f (s.queue k)) } _ _ _).trans (homeWrite_frame _ _ _ _)) rfl rfl

theorem decCtr_frame (s : State) (k n : Nat) (r : ErrRec) : HubFrame s (s.decCtr k n r) := by
  have put (x : Ctr) : HubFrame s (s.setCtr k x) := .of_eq rfl rfl
  unfold State.decCtr
  dsimp only
  split
  · exact .refl s
  split
  · exact (put _).trans (writeErr_frame _ _)
  split
  · split
    · exact (put _).trans (modQueue_frame _ _ _)
    · exact put _
  · exact put _

theorem decCompletion_frame (s : State) (c k : Nat) (r : ErrRec) : HubFrame s (s.decCompletion c k r) := by
  unfold State.decCompletion
  split
  · exact decCtr_frame s k 1 r
  · exact writeErr_frame s _

theorem endReplay_frame (s : State) (lid : Nat) : HubFrame s (s.endReplay lid) := by
  unfold State.endReplay
  dsimp only
  split
  · exact .before (notify_frame _) rfl rfl
  · exact .refl s

theorem hubWrite_frame {s t : State} {d : CtxDesc} {va : Nat} {bs : List Byte} (h : s.hubWrite d va bs = some t) : HubFrame s t := by
  unfold State.hubWrite at h
  split at h
  · cases h
  split at h
  · cases h
    refine HubFrame.trans ?_ (homeWrite_frame _ _ _ _)
    split
    · exact fabSend_frame s _
    · exact (fabSend_frame s _).trans (homeWrite_frame _ _ _ _)
  · cases h

theorem critOver_frame (s : State) (c : Cause) : HubFrame s (s.critOver c) := by
  unfold State.critOver; split <;> exact .of_eq rfl rfl

/-- A counter of the launch record counts down, where the record names one. -/
theorem completionCtr_frame (s : State) (b : Bool) (c k : Nat) (e : ErrRec) :
    HubFrame s (if b then s.decCompletion c k e else s) := by
  split
  · exact decCompletion_frame s c k e
  · exact .refl s

/-- A completed launch is held no more, and its clusters, teams and groups go with it. -/
theorem dropLaunch_frame (s : State) (lid : Nat) :
    HubFrame s { s with launches := cdel s.launches lid, clusters := s.clusters.filter (fun p => p.2.launch != lid),
                        teams := s.teams.filter (fun p => p.2.launch != lid), groups := s.groups.filter (fun p => p.2.launch != lid) } :=
  .of_filter rfl rfl

/-- The effects of a completion in their order: the word, the two counters, and then the launch goes with its groups. -/
theorem completeLaunch_frame (s : State) (lid : Nat) (l : Launch) : HubFrame s (s.completeLaunch lid l) := by
  unfold State.completeLaunch
  dsimp only
  refine HubFrame.trans ?_ (dropLaunch_frame _ lid)
  split
  · exact endReplay_frame s lid
  refine HubFrame.trans (HubFrame.trans ?_ (completionCtr_frame _ _ _ _ _)) (completionCtr_frame _ _ _ _ _)
  split
  · exact .refl s
  split
  · next h => exact hubWrite_frame h
  · exact (critOver_frame s _).trans (writeErr_frame _ _)

theorem takeRecord_frame (s : State) (c b : Nat) : HubFrame s (s.takeRecord c b) := .of_eq rfl rfl

theorem holdPath_frame (s : State) (who m : Nat) (r : ErrRec) : HubFrame s (s.holdPath who m r) := by
  unfold State.holdPath
  dsimp only
  split
  · exact .refl s
  · exact .before (writeErr_frame _ _) rfl rfl

theorem hubHold_frame (s : State) (d : CtxDesc) (k : AccKind) (va : Nat) : HubFrame s (s.hubHold d k va) := by
  unfold State.hubHold
  split
  · split
    · exact holdPath_frame s _ _ _
    · exact .refl s
  · exact .refl s

theorem releaseLaunch_frame (s : State) (lid : Nat) : HubFrame s (s.releaseLaunch lid).1 :=
  .foldl (fun s c => publish_frame s evictAgent c scDom) _ s

/-- A launch whose clusters have ended waits for its completion word's page or for its writes, or it completes. -/
theorem settleLaunch_frame (s : State) (lid : Nat) : HubFrame s (s.settleLaunch lid) := by
  have done (l : Launch) : HubFrame s ((s.releaseLaunch lid).1.completeLaunch lid l) :=
    (releaseLaunch_frame s lid).trans (completeLaunch_frame _ lid l)
  unfold State.settleLaunch
  dsimp only
  split
  · exact .refl s
  next l _ =>
  split
  · split
    · exact hubHold_frame s _ _ _
    split
    · exact releaseLaunch_frame s lid
    split
    · split
      · exact (done l).trans (takeRecord_frame _ _ _)
      · exact done l
    · exact done l
  · exact .refl s

/-! ### The end of a group's cluster, team and context (R227, R270, R290, R301) -/

theorem settleCluster_frame (s : State) (cid : Nat) : HubFrame s (s.settleCluster cid) := by
  unfold State.settleCluster
  dsimp only
  split
  · exact .refl s
  split
  · exact ((HubFrame.foldl (fun s t => modTeam_frame s t _) _ s).trans (modCluster_frame _ _ _)).trans (settleLaunch_frame _ _)
  · exact .refl s

theorem settleTeam_frame (s : State) (tid : Nat) : HubFrame s (s.settleTeam tid) := by
  unfold State.settleTeam
  split
  · exact .refl s
  split
  · exact .before (settleCluster_frame _ _) rfl rfl
  · exact .refl s

theorem settleCtx_frame (s : State) (c : Nat) : HubFrame s (s.settleCtx c) := .of_eq rfl rfl

theorem settleBias_frame (s : State) (die : Nat) : HubFrame s (s.settleBias die) := by
  unfold State.settleBias
  dsimp only
  split <;> exact .of_eq rfl rfl

theorem settleBiases_frame (s : State) : HubFrame s s.settleBiases := .foldl settleBias_frame _ s

theorem unhold_frame (s : State) (core : Nat) : HubFrame s (s.unhold core) :=
  .of_map rfl rfl fun p => by
    dsimp only
    split <;> exact ⟨rfl, rfl, rfl, rfl, rfl⟩

end Sys2Proof.Proofs.Placement
end

section
/-! O40: placement, the end of a group, saving, restoring, retiring (R13, R30, R31, R270 to R275, R287, R298, R300 to R303, R426, R427). -/

namespace Sys2Proof.Proofs.Placement

open Sys2Proof Sys2Proof.Machine Sys2Proof.Claims Sys2Proof.Laws

/-! ### The end of a group (R300) -/

/-- Whatever stands under the number of a group has ended: its slot is free, and nothing of it is to be run or outstanding. -/
def EndedAt (s : State) (g : Nat) : Prop :=
  ∀ p ∈ s.groups, p.1 = g → p.2.st = .ended ∧ p.2.slot = none ∧ p.2.frontier = [] ∧ p.2.pend = []

/-- A group that has ended stays ended in the hub's own work. -/
theorem EndedAt.of_frame {s t : State} {g : Nat} (h : EndedAt s g) (k : HubFrame s t) : EndedAt t g := by
  intro p hp hg
  obtain ⟨q, hq, hk, st, sl, fr, pe⟩ := k.groups p hp
  obtain ⟨st', sl', fr', pe'⟩ := h q hq (hk.trans hg)
  exact ⟨st.trans st', sl.trans sl', fr.trans fr', pe.trans pe'⟩

/-- A record that is found by its number stands in the table. -/
theorem mem_of_tget? {α : Type} {t : List (Nat × α)} {k : Nat} {v : α} (h : tget? t k = some v) : (k, v) ∈ t := by
  induction t with
  | nil => cases h
  | cons p r ih =>
    obtain ⟨k', v'⟩ := p
    by_cases hk : k = k'
    · simp_all [tget?]
    · simp only [tget?, if_neg hk] at h
      exact List.mem_cons_of_mem _ (ih h)

/-- Where no record is found, none stands. -/
theorem ne_of_tget?_none {α : Type} {t : List (Nat × α)} {k : Nat} (h : tget? t k = none) : ∀ p ∈ t, p.1 ≠ k := by
  induction t with
  | nil => simp
  | cons p r ih =>
    obtain ⟨k', v'⟩ := p
    by_cases hk : k = k'
    · simp [tget?, hk] at h
    · simp only [tget?, if_neg hk] at h
      simpa [Ne.symm hk] using ih h

/-- A change that ends a group leaves no other record under its number. -/
theorem endedAt_modGroup (s : State) (g : Nat) {f : Group → Group}
    (hf : ∀ x, (f x).st = .ended ∧ (f x).slot = none ∧ (f x).frontier = [] ∧ (f x).pend = []) : EndedAt (s.modGroup g f) g := by
  unfold State.modGroup
  split
  · next x hx =>
    intro p hp hg
    rcases (mem_cins g (f x) _ p).mp hp with rfl | hp
    · exact hf x
    · exact absurd hg (cdel_ne s.groups g p hp)
  · next hx => exact fun p hp hg => absurd hg (ne_of_tget?_none hx p hp)

/-- A group that finishes has ended; what follows for its team, cluster, launch and context does not start it again. -/
theorem finishGroup_ended {s : State} {g : Nat} {x : Group} (h : s.group? g = some x) : EndedAt (s.finishGroup g) g := by
  unfold State.finishGroup
  simp only [h]
  refine EndedAt.of_frame ?_ ((((unhold_frame _ _).trans (settleTeam_frame _ _)).trans (settleCtx_frame _ _)).trans (settleBiases_frame _))
  exact endedAt_modGroup _ g fun _ => ⟨rfl, rfl, rfl, rfl⟩

/-- With no replay under way, a group ends where it meets the end condition and stays as it is elsewhere. -/
theorem exec_groupEnd {s : State} {g : Nat} {x : Group} (h : s.group? g = some x) (hr : s.replays = []) :
    exec (.groupEnd g) s = .next (if s.endsNow g x then s.finishGroup g else s) := by
  change execGroupEnd g s = _
  simp [execGroupEnd, h, hr]

/-- The end condition of R300, one by one. -/
theorem endsNow_iff (s : State) (g : Nat) (x : Group) :
    s.endsNow g x = true ↔ (x.st = .active ∨ x.st = .pending ∨ x.st = .draining) ∧ x.empties = ~~~0 ∧ s.copiesOf g = [] ∧
      s.opsOf g x.core = [] ∧ x.mats = [] ∧ s.unperformed x.agent = false := by
  simp [State.endsNow, and_assoc, or_assoc]

/-- Placement answers what the first cluster that fits leaves; the end of a group turns on `endsNow` (R287, R300 to R303). -/
theorem placementAndEnd : PlacementAndEnd := by
  intro s
  refine ⟨⟨fun w h => ?_, fun h => ?_⟩, fun g x hg hr => ⟨?_, fun h => ?_⟩⟩
  · change execClusterPlace s = _
    simp only [execClusterPlace, h, Option.getD_some]
  · change execClusterPlace s = _
    simp only [execClusterPlace, h, Option.getD_none]
  · rintro ⟨he, hst, hc, ho, hm, hu⟩
    have ends : s.endsNow g x = true := (endsNow_iff s g x).mpr ⟨hst, he, hc, ho, hm, hu⟩
    refine ⟨s.finishGroup g, by rw [exec_groupEnd hg hr, if_pos ends], fun y hy => ?_⟩
    exact finishGroup_ended hg (g, y) (mem_of_tget? hy) rfl
  · have stays : ¬s.endsNow g x = true := by
      rw [endsNow_iff]
      rintro ⟨-, he, hc, -, -, hu⟩
      rcases h with h | h | h
      · exact h he
      · exact h hc
      · simp [hu] at h
    rw [exec_groupEnd hg hr, if_neg stays]

/-! ### Saving and restoring (R31, R271, R298) -/

/-- What a pre-emption does to a cluster of a launch. -/
theorem exec_clusterPreempt {s : State} {c : Nat} {x : Cluster} {l : Launch} (hx : s.cluster? c = some x) (hl : s.launch? x.launch = some l) :
    exec (.clusterPreempt c) s = .next (
      if x.st ≠ .resident ∨ !(s.mustSave x l || s.wantedRoom x l) then s
      else if (s.publishCluster x).clusterPending x then s.publishCluster x
      else ((s.publishCluster x).saveCluster c x l).getD
        (if s.mustSave x l then (s.publishCluster x).saveTooSmall l.ctx else s.publishCluster x)) := by
  change execClusterPreempt c s = _
  simp only [execClusterPreempt, hx, hl]

/-- A saved cluster of a context that runs comes back where it fits and may. -/
theorem exec_clusterRestore {s : State} {c : Nat} {x : Cluster} {l : Launch} {e : Nat × Nat} {die : Nat} {cores : List Nat}
    (hx : s.cluster? c = some x) (hl : s.launch? x.launch = some l) (hst : x.st = .saved) (hr : s.ctxRuns l.ctx = true)
    (hv : s.vdie (s.ctx l.ctx).desc x.vdie = some e) (hd : s.ownDie (s.ctx l.ctx).desc x.vdie = some die)
    (hc : s.coresFor die (x.teams.map (fun k => ((s.team? k).map (s.teamRoom k)).getD {})) [] = some cores)
    (hm : s.mayRestore l die = true) : exec (.clusterRestore c) s = .next (s.restoreCluster c x l die cores) := by
  change execClusterRestore c s = _
  simp [execClusterRestore, hx, hl, hst, hr, hv, hd, hc, hm]

/-! ### The ends of SAVING and DRAINING (R270, R272, R275) -/

/-- A context whose last cluster is saved is SAVED, or FAULTED where a double fault came meanwhile. -/
theorem exec_contextSaved {s : State} {c : BitVec 7} (hst : (s.ctx c.toNat).st = .saving) (hn : s.stillResident c.toNat = false) :
    exec (.contextSaved c) s = .next (
      if (s.ctx c.toNat).faultAfterSave then s.modCtx c.toNat (fun x => { x with st := .faulted, faultAfterSave := false })
      else (s.modCtx c.toNat (fun x => { x with st := .saved })).notify) := by
  change execContextSaved c s = _
  simp [execContextSaved, hst, hn]

/-- A draining context is freed. -/
theorem exec_contextDrainComplete {s : State} {c : BitVec 7} (hst : (s.ctx c.toNat).st = .draining) :
    exec (.contextDrainComplete c) s = .next (s.finishDrain c.toNat) := by
  change execContextDrainComplete c s = _
  simp only [execContextDrainComplete, hst, if_true]

/-- The number of a drained context is free again. -/
theorem finishDrain_ctx (s : State) (c : Nat) : (s.finishDrain c).ctx c = {} := by
  simp [State.finishDrain, State.ctx]

/-- A drained context owns no counter. -/
theorem finishDrain_ctrs (s : State) (c : Nat) : ∀ p ∈ (s.finishDrain c).ctrs, p.2.owner ≠ some c := by
  intro p hp
  simpa using (List.mem_filter.mp hp).2

/-- No translation of a drained context's address space is left. -/
theorem finishDrain_tlbs (s : State) (c : Nat) : ∀ e ∈ (s.finishDrain c).tlbs, e.asid ≠ (s.ctx c).desc.asid := by
  intro e he
  simpa [tlbInScope, tlbiHit] using (List.mem_filter.mp he).2

/-! ### Cores out of service (R426, R427) -/

/-- A core that retires stays retired through the record of it, and its failures are no longer counted. -/
theorem retireCore_core {s : State} {core : Nat} (he : (s.core core).enabled = true) (hr : (s.core core).retired = false) :
    (s.retireCore core).core core = { s.core core with retired := true, checkFails := [], sramFails := [] } := by
  simp only [State.retireCore, he, hr, Bool.not_false, Bool.and_self, if_true]
  rw [(writeErr_frame _ _).core, setCore_core_self]

/-- A core that triage names is retired. -/
theorem exec_coreRetired {s : State} {core : Nat} (ht : s.triaged core = true) : exec (.coreRetired core) s = .next (s.retireCore core) := by
  change execCoreRetired core s = _
  simp only [execCoreRetired, ht, if_true]

/-- Pre-emption, restoration, the ends of SAVING and DRAINING, and retirement, event by event. -/
theorem savingAndRestoring : SavingAndRestoring := by
  intro s
  refine ⟨fun c x l hx hl => ?_, fun c x l die cores e hx hl hst hr hv hd hc hm => exec_clusterRestore hx hl hst hr hv hd hc hm,
    fun c hst hn => ?_, fun c hst => ?_, fun core he hr ht => ?_⟩
  · rw [exec_clusterPreempt hx hl]
    refine ⟨fun hst hm hp => ?_, fun hst hm hp => ?_, fun hst hm hw hp u hu => ?_, fun hst => ?_⟩
    · rcases hm with hm | hm <;> simp [hst, hm, hp]
    · simp [hst, hm, hp]
    · simp [hst, hw, hp, hu]
    · simp [hst]
  · rw [exec_contextSaved hst hn]
    exact ⟨fun hf => by simp [hf], fun hf => by simp [hf]⟩
  · exact ⟨_, exec_contextDrainComplete hst, finishDrain_ctx s _, finishDrain_ctrs s _, finishDrain_tlbs s _⟩
  · have hcore := retireCore_core he hr
    exact ⟨_, exec_coreRetired ht, by rw [hcore], by rw [hcore]⟩

/-- Settles O40: each event's own lemma gives its outcome; that an ended group stays ended while its team, cluster, launch and context settle,
and that a core stays retired while the record of it is written, is `HubFrame`. -/
theorem placementAndSaving : Obligations.PlacementAndSaving := ⟨placementAndEnd, savingAndRestoring⟩

end Sys2Proof.Proofs.Placement
end

section
/-! O8: exact sums and products, the rounding of a magnitude, the special quotients and roots (R45, R49, R121, R122, R127). -/

namespace Sys2Proof.Proofs.Rounding

open Sys2Proof Sys2Proof.Machine Sys2Proof.Claims

/-! ### Finite values as rationals -/

theorem isFin_iff (v : Val) : isFin v = true ↔ ∃ n m e, v = .fin n m e := by
  cases v <;> simp [isFin]

/-- The rational of a signed integer count of units of 2^e. -/
theorem rat_ofSign (i e : Int) : rat (.fin (decide (i < 0)) i.natAbs e) = i * 2 ^ e := by
  rcases lt_or_ge i 0 with h | h
  · have : ((i.natAbs : ℕ) : ℚ) = -i := by rw [Nat.cast_natAbs, abs_of_neg h]; push_cast; rfl
    simp [rat, h, this]
  · have : ((i.natAbs : ℕ) : ℚ) = i := by rw [Nat.cast_natAbs, abs_of_nonneg h]
    simp [rat, not_lt.mpr h, this]

/-- At or below its last bit, a finite value is a whole number of units. -/
theorem units_mul_pow {v : Val} {e0 : Int} (h : e0 ≤ v.expo) (hf : isFin v = true) : (v.units e0 : ℚ) * 2 ^ e0 = rat v := by
  obtain ⟨n, m, e, rfl⟩ := (isFin_iff v).mp hf
  by_cases hm : m = 0
  · subst hm
    cases n <;> simp [Val.units, rat]
  · have he : e0 ≤ e := by simpa [Val.expo, hm] using h
    have hp : (2 : ℚ) ^ (e - e0).toNat * 2 ^ e0 = 2 ^ e := by
      rw [← zpow_natCast, ← zpow_add₀ two_ne_zero]
      congr 1
      omega
    cases n <;> simp [Val.units, rat, Nat.shiftLeft_eq, mul_assoc, hp]

/-- The common unit of a list of values is at or below the start and every value's last bit. -/
theorem foldl_min_le (vs : List Val) (a : Int) :
    vs.foldl (fun (a : Int) v => min a v.expo) a ≤ a ∧ ∀ v ∈ vs, vs.foldl (fun (a : Int) v => min a v.expo) a ≤ v.expo := by
  induction vs generalizing a with
  | nil => simp
  | cons v vs ih =>
    obtain ⟨ha, hvs⟩ := ih (min a v.expo)
    simp only [List.foldl_cons, List.mem_cons, forall_eq_or_imp]
    exact ⟨ha.trans (min_le_left _ _), ha.trans (min_le_right _ _), hvs⟩

/-- The units of a list add up to the sum of its rationals. -/
theorem foldl_units_mul_pow (vs : List Val) (e0 a : Int) (h : ∀ v ∈ vs, e0 ≤ v.expo ∧ isFin v = true) :
    ((vs.foldl (fun (a : Int) v => a + v.units e0) a : Int) : ℚ) * 2 ^ e0 = a * 2 ^ e0 + (vs.map rat).sum := by
  induction vs generalizing a with
  | nil => simp
  | cons v vs ih =>
    obtain ⟨⟨he, hf⟩, hvs⟩ := List.forall_mem_cons.mp h
    rw [List.foldl_cons, ih _ hvs, List.map_cons, List.sum_cons, ← units_mul_pow he hf]
    push_cast
    ring

/-! ### Sums and products (R121, R122) -/

/-- Among finite values there is no NaN and no infinity. -/
theorem any_false_of_isFin {vs : List Val} {p : Val → Bool} (hp : ∀ n m e, p (.fin n m e) = false) (h : vs.all isFin = true) :
    vs.any p = false := by
  rw [List.any_eq_false]
  intro v hv
  obtain ⟨n, m, e, rfl⟩ := (isFin_iff v).mp (List.all_eq_true.mp h v hv)
  simp [hp]

theorem sumVals_exact (mode : RMode) (vs : List Val) (h : vs.all isFin = true) :
    isFin (sumVals mode vs).v = true ∧ (sumVals mode vs).nv = false ∧ rat (sumVals mode vs).v = (vs.map rat).sum := by
  have low := (foldl_min_le vs 0).2
  have sum := foldl_units_mul_pow vs (vs.foldl (fun (a : Int) v => min a v.expo) 0) 0
    fun v hv => ⟨low v hv, List.all_eq_true.mp h v hv⟩
  rw [Int.cast_zero, zero_mul, zero_add] at sum
  simp only [sumVals, any_false_of_isFin (p := Val.isNaN) (fun _ _ _ => rfl) h,
    any_false_of_isFin (p := fun v => v == .inf false) (fun _ _ _ => rfl) h,
    any_false_of_isFin (p := fun v => v == .inf true) (fun _ _ _ => rfl) h, Bool.and_self, Bool.false_eq_true, if_false]
  split
  · next hi => exact ⟨rfl, rfl, by rw [← sum, hi]; simp [rat]⟩
  · exact ⟨rfl, rfl, by rw [rat_ofSign, sum]⟩

theorem mulVals_exact (a b : Val) (ha : isFin a = true) (hb : isFin b = true) :
    isFin (mulVals a b).v = true ∧ (mulVals a b).nv = false ∧ rat (mulVals a b).v = rat a * rat b := by
  obtain ⟨n, m, e, rfl⟩ := (isFin_iff a).mp ha
  obtain ⟨k, m', e', rfl⟩ := (isFin_iff b).mp hb
  refine ⟨rfl, rfl, ?_⟩
  have hp : (2 : ℚ) ^ (e + e') = 2 ^ e * 2 ^ e' := zpow_add₀ two_ne_zero e e'
  have sign : (if n != k then (-1 : ℚ) else 1) = (if n then -1 else 1) * (if k then -1 else 1) := by cases n <;> cases k <;> simp
  simp only [mulVals, rat, hp, sign]
  push_cast
  ring

/-- ∞ − ∞ is invalid. -/
theorem sumVals_opposite_infinities (mode : RMode) {vs : List Val} (hn : vs.any Val.isNaN = false) (hp : .inf false ∈ vs)
    (hm : .inf true ∈ vs) : sumVals mode vs = ⟨.nan false, true⟩ := by
  have pos : vs.any (fun v => v == .inf false) = true := List.any_eq_true.mpr ⟨_, hp, by simp⟩
  have neg : vs.any (fun v => v == .inf true) = true := List.any_eq_true.mpr ⟨_, hm, by simp⟩
  simp [sumVals, hn, pos, neg]

theorem sumsAndProductsExact : SumsAndProductsExact :=
  ⟨sumVals_exact, mulVals_exact, fun mode _ hn hp hm => sumVals_opposite_infinities mode hn hp hm, fun _ _ _ => ⟨rfl, rfl⟩⟩

/-! ### Rounding a magnitude (R45, R49) -/

/-- With no bit set among the discarded ones, every mode keeps the count and the state. -/
theorem roundUnits_exact {m sh : Nat} (h : m % 2 ^ sh = 0) (mode : RMode) (neg : Bool) (rs : Word32) :
    roundUnits mode neg rs m sh false = (m / 2 ^ sh, false, rs) := by
  simp [roundUnits, h, Nat.shiftRight_eq_div_pow]

/-- The quotient rounded up. -/
theorem ceil_div (m : Nat) {d : Nat} (hd : 0 < d) : (m + d - 1) / d = if m % d = 0 then m / d else m / d + 1 := by
  have hm := Nat.div_add_mod m d
  have hr := Nat.mod_lt m hd
  rw [Nat.div_eq_iff hd]
  split
  · rw [mul_comm]
    omega
  · rw [add_mul, mul_comm]
    omega

/-- rne goes up beyond the half, and at the half from an odd count. -/
theorem roundUnits_rne (neg : Bool) (rs : Word32) (m sh : Nat) :
    (roundUnits .rne neg rs m sh false).1 =
      if 2 ^ sh < 2 * (m % 2 ^ sh) ∨ 2 * (m % 2 ^ sh) = 2 ^ sh ∧ m / 2 ^ sh % 2 = 1 then m / 2 ^ sh + 1 else m / 2 ^ sh := by
  by_cases h : m % 2 ^ sh = 0
  · simp [roundUnits_exact h, h, eq_comm (a := 0)]
  · simp [roundUnits, h, Nat.shiftRight_eq_div_pow]

/-- The count that rne gives is a nearest one, and on a tie it is even. -/
theorem roundUnits_rne_nearest (neg : Bool) (rs : Word32) (m sh : Nat) :
    2 * (((roundUnits .rne neg rs m sh false).1 * 2 ^ sh : Nat) - (m : Int)).natAbs ≤ 2 ^ sh ∧
      (2 * (((roundUnits .rne neg rs m sh false).1 * 2 ^ sh : Nat) - (m : Int)).natAbs = 2 ^ sh →
        2 ∣ (roundUnits .rne neg rs m sh false).1) := by
  rw [roundUnits_rne]
  have hm := Nat.div_add_mod' m (2 ^ sh)
  have hr := Nat.mod_lt m (Nat.two_pow_pos sh)
  split
  · rw [add_mul]
    omega
  · omega

/-- rsto carries out of the first 32 discarded bits, to which the stepped state is added. -/
theorem roundUnits_rsto (neg : Bool) (rs : Word32) (m sh : Nat) :
    (roundUnits .rsto neg rs m sh false).1 = if m % 2 ^ sh = 0 then m / 2 ^ sh
      else m / 2 ^ sh + ((m % 2 ^ sh) * 2 ^ 32 / 2 ^ sh + (rsStep rs).toNat) / 2 ^ 32 := by
  split
  · next h => rw [roundUnits_exact h]
  · next h =>
    have hs := (rsStep rs).isLt
    have hf : (m % 2 ^ sh) * 2 ^ 32 / 2 ^ sh < 2 ^ 32 := by
      rw [Nat.div_lt_iff_lt_mul (Nat.two_pow_pos sh), mul_comm]
      exact Nat.mul_lt_mul_of_pos_left (Nat.mod_lt _ (Nat.two_pow_pos sh)) (by decide)
    simp only [roundUnits, h, Nat.shiftRight_eq_div_pow, false_and, if_false]
    generalize m % 2 ^ sh * 2 ^ 32 / 2 ^ sh = first at hf ⊢
    split <;> omega

/-- rtz, rup and rdn: downward, or upward by the sign. -/
theorem roundUnits_directed (neg : Bool) (rs : Word32) (m sh : Nat) :
    (roundUnits .rtz neg rs m sh false).1 = m / 2 ^ sh ∧
      (roundUnits .rup neg rs m sh false).1 = (if neg then m / 2 ^ sh else (m + 2 ^ sh - 1) / 2 ^ sh) ∧
      (roundUnits .rdn neg rs m sh false).1 = (if neg then (m + 2 ^ sh - 1) / 2 ^ sh else m / 2 ^ sh) := by
  rw [ceil_div m (Nat.two_pow_pos sh)]
  by_cases h : m % 2 ^ sh = 0
  · simp [roundUnits_exact h, h]
  · simp [roundUnits, h, Nat.shiftRight_eq_div_pow]

/-- A rounding is inexact where a discarded bit is set, and only then can it step the state. -/
theorem roundUnits_snd (mode : RMode) (neg : Bool) (rs : Word32) (m sh : Nat) :
    (roundUnits mode neg rs m sh false).2 =
      (decide (m % 2 ^ sh ≠ 0), if mode = .rsto ∧ m % 2 ^ sh ≠ 0 then rsStep rs else rs) := by
  by_cases h : m % 2 ^ sh = 0
  · simp [roundUnits_exact h, h]
  · cases mode <;> simp [roundUnits, h]

theorem roundingModes : RoundingModes := by
  intro neg rs m sh
  obtain ⟨rtz, rup, rdn⟩ := roundUnits_directed neg rs m sh
  obtain ⟨near, tie⟩ := roundUnits_rne_nearest neg rs m sh
  exact ⟨rtz, rup, rdn, near, tie, roundUnits_rsto neg rs m sh, fun mode => by rw [roundUnits_snd], fun mode => by rw [roundUnits_snd]⟩

/-! ### Special quotients and roots (R127) -/

/-- An infinity stays one in every floating-point type that has infinities. -/
theorem round_inf {t : Ty} {f : Fmt} (hf : Ty.fmt t = some f) (ht : t ≠ .e4m3) (mode : RMode) (rs : Word32) (neg : Bool) :
    Machine.round t mode rs (.inf neg) = ⟨infCode t f neg, 0, rs⟩ := by
  cases t <;> simp_all [Ty.fmt, Machine.round]

theorem divisionSpecials : DivisionSpecials := by
  intro t f mode rs n k m m' x x' hf ht
  have inf := round_inf hf ht mode rs
  refine ⟨fun hm => ?_, rfl, rfl, inf _, rfl, rfl, fun hm => ?_, rfl, fun hm => ?_, rfl, inf n, rfl⟩
  · simp [divVals, hm, inf]
  · simp [sqrtVal, hm]
  · simp [rsqVal, hm]

/-- Settles O8: sums are counts of a common unit, products multiply magnitudes; each mode's count follows from the quotient and the
remainder of the discarded bits; the special operands are branches of their own. -/
theorem roundingAndExactness : Obligations.RoundingAndExactness :=
  ⟨sumsAndProductsExact, roundingModes, divisionSpecials⟩

end Sys2Proof.Proofs.Rounding
end

section
/-! What the memory system leaves of the matrix unit: popping a port reads memory, and a read may move cache lines, translations, records of the
host and the wakes of waiting lanes; none of this touches the queue of a matrix unit or the words of a register window. (`HubFrame` says less of
groups, which may end there, and more of cores, whose counters a read moves.) -/

namespace Sys2Proof.Proofs.Matrix

open Sys2Proof Sys2Proof.Machine Sys2Proof.Laws

/-! ### The relation -/

/-- The words of a group's window, where the group exists. -/
def windowOf (s : State) (g : Nat) : Option (Cells WP) := (s.group? g).map (fun x => x.rf.win)

/-- From `s` to `t` every core keeps its queue of matrix operations, and every group its window. -/
structure UnitFrame (s t : State) : Prop where
  mq : ∀ c, (t.core c).mq = (s.core c).mq
  win : ∀ g, windowOf t g = windowOf s g

namespace UnitFrame

theorem of_eq {s t : State} (hc : t.cores = s.cores) (hg : t.groups = s.groups) : UnitFrame s t :=
  ⟨fun _ => by simp only [State.core, hc], fun _ => by simp only [windowOf, State.group?, hg]⟩

theorem refl (s : State) : UnitFrame s s := of_eq rfl rfl

theorem trans {s t u : State} (h : UnitFrame s t) (k : UnitFrame t u) : UnitFrame s u :=
  ⟨fun c => (k.mq c).trans (h.mq c), fun g => (k.win g).trans (h.win g)⟩

/-- First a change of what the relation does not look at. -/
theorem before {s t u : State} (k : UnitFrame t u) (hc : t.cores = s.cores) (hg : t.groups = s.groups) : UnitFrame s u :=
  (of_eq hc hg).trans k

/-- Last a change of what the relation does not look at. -/
theorem after {s t u : State} (h : UnitFrame s t) (hc : u.cores = t.cores) (hg : u.groups = t.groups) : UnitFrame s u :=
  h.trans (of_eq hc hg)

theorem foldl {α : Type} {f : State → α → State} (hf : ∀ s a, UnitFrame s (f s a)) (l : List α) (s : State) : UnitFrame s (l.foldl f s) :=
  foldl_keeps (P := UnitFrame s) (fun _ a h => h.trans (hf _ a)) l s (refl s)

/-- A group of the later state was there in the earlier one, with the same window. -/
theorem group_of {s t : State} (h : UnitFrame s t) {g : Nat} {x : Group} (hx : s.group? g = some x) :
    ∃ y, t.group? g = some y ∧ y.rf.win = x.rf.win := by
  simpa [windowOf, hx] using h.win g

end UnitFrame

/-! ### Parts of the state -/

theorem setGroup_unit {s : State} {g : Nat} {x y : Group} (hx : s.group? g = some x) (hw : y.rf.win = x.rf.win) :
    UnitFrame s (s.setGroup g y) where
  mq _ := rfl
  win h := by
    by_cases hn : h = g
    · subst hn
      simp [windowOf, hx, hw]
    · simp only [windowOf, setGroup_group?_ne s hn]

theorem modGroup_unit {f : Group → Group} (hf : ∀ x, (f x).rf.win = x.rf.win) (s : State) (g : Nat) : UnitFrame s (s.modGroup g f) := by
  unfold State.modGroup
  split
  · next x hx => exact setGroup_unit hx (hf x)
  · exact .refl s

theorem modCore_unit {f : Core → Core} (hf : ∀ c, (f c).mq = c.mq) (s : State) (k : Nat) : UnitFrame s (s.modCore k f) where
  mq c := by
    by_cases hn : c = k
    · subst hn
      rw [modCore_core_self, hf]
    · rw [State.modCore, setCore_core_ne s hn]
  win _ := rfl

theorem count_unit (s : State) (c k n : Nat) : UnitFrame s (s.count c k n) := modCore_unit (by simp) s c

/-- Records that keep their numbers and what `g` reads of them read the same through the table. -/
theorem tget?_map_of_keeps {α β : Type} {f : Nat × α → Nat × α} {g : α → β} (hf : ∀ p, (f p).1 = p.1 ∧ g (f p).2 = g p.2)
    (t : List (Nat × α)) (k : Nat) : (tget? (t.map f) k).map g = (tget? t k).map g := by
  induction t with
  | nil => rfl
  | cons p r ih =>
    obtain ⟨hk, hv⟩ := hf p
    simp only [List.map_cons, tget?, hk]
    split
    · simp only [Option.map_some, hv]
    · exact ih

/-- A write wakes the lanes that wait for it and changes nothing else of a group. -/
theorem noteWrite_unit (s : State) (c : Option Nat) (a n : Nat) (d : Option Nat) : UnitFrame s (s.noteWrite c a n d) where
  mq _ := rfl
  win g := by
    refine tget?_map_of_keeps ?_ s.groups g
    exact fun _ => ⟨rfl, rfl⟩

/-! ### Memory and caches (R344 to R349) -/

theorem hbmTouch_unit (s : State) (pa n : Nat) (w : Bool) : UnitFrame s (s.hbmTouch pa n w) := by
  unfold State.hbmTouch; split <;> exact .of_eq rfl rfl

theorem memWrite_unit (s : State) (pa : Nat) (bs : List Byte) (p : Bool) : UnitFrame s (s.memWrite pa bs p) :=
  (hbmTouch_unit s pa bs.length true).after rfl rfl

theorem dirtyOut_unit (s : State) (ln : Nat) : UnitFrame s (s.dirtyOut ln) := by
  unfold State.dirtyOut
  split
  · exact hbmTouch_unit _ _ _ _
  · exact .refl s

theorem recallLine_unit (s : State) (ln : Nat) : UnitFrame s (s.recallLine ln) := (dirtyOut_unit s ln).after rfl rfl

theorem homeWrite_unit (s : State) (pa : Nat) (bs : List Byte) (p : Bool) : UnitFrame s (s.homeWrite pa bs p) :=
  ((noteWrite_unit s none pa bs.length none).trans (.foldl recallLine_unit (linesOf pa bs.length) _)).trans
    (.before (memWrite_unit _ pa bs p) rfl rfl)

theorem fabSend_unit (s : State) (m : Nat) : UnitFrame s (s.fabSend m) := by
  unfold State.fabSend; split <;> exact .of_eq rfl rfl

theorem postReq_unit (s : State) (r : MergeReq) : UnitFrame s (s.postReq r) := by
  unfold State.postReq
  dsimp only
  split
  · exact (fabSend_unit s _).after rfl rfl
  · exact .of_eq rfl rfl

theorem writeOut_unit (s : State) (agent die ln : Nat) : UnitFrame s (s.writeOut agent die ln) := by
  unfold State.writeOut
  split
  · exact .refl s
  · exact (UnitFrame.foldl (fun _ _ => postReq_unit _ _) _ s).after rfl rfl

theorem evictL2_unit (s : State) (die ln : Nat) : UnitFrame s (s.evictL2 die ln) := by
  unfold State.evictL2
  dsimp only
  refine (writeOut_unit s evictAgent die ln).trans ?_
  split
  · exact (dirtyOut_unit _ ln).after rfl rfl
  · exact .of_eq rfl rfl

theorem victim_unit (s : State) (ls : List (Nat × LineSt)) (die : Nat) : UnitFrame s (s.victim ls die).2 := by
  unfold State.victim; split <;> exact .of_eq rfl rfl

theorem makeRoom_unit (s : State) (core ln : Nat) : UnitFrame s (s.makeRoom core ln) := by
  have trimL2 (u : State) : UnitFrame u (if (u.l2Lines (dieOf core)).length ≤ 524288 then u else
      (u.victim ((u.l2Lines (dieOf core)).filter (fun p => p.1 != ln)) (dieOf core)).2.evictL2 (dieOf core)
        (u.victim ((u.l2Lines (dieOf core)).filter (fun p => p.1 != ln)) (dieOf core)).1) := by
    split
    · exact .refl u
    · exact (victim_unit _ _ _).trans (evictL2_unit _ _ _)
  unfold State.makeRoom
  dsimp only
  refine UnitFrame.trans ?_ (trimL2 _)
  split
  · exact .refl s
  · exact (victim_unit _ _ _).after rfl rfl

theorem countMiss_unit (s : State) (core ln coh pol : Nat) : UnitFrame s (s.countMiss core ln coh pol) := by
  have missL1 : UnitFrame s (if pol ≠ 0 ∨ (s.line ln).inL1 core coh then s else s.count core 5 1) := by
    split
    · exact .refl s
    · exact count_unit s _ _ _
  unfold State.countMiss
  dsimp only
  split
  · exact missL1
  · exact (missL1.trans (count_unit _ _ _ _)).trans (hbmTouch_unit _ _ _ _)

/-- A read counts its misses, takes a token or a copy, and may push other lines out. -/
theorem touchRead_unit (s : State) (core pa n pol coh : Nat) : UnitFrame s (s.touchRead core pa n pol coh) := by
  refine UnitFrame.foldl (fun s ln => ?_) _ s
  dsimp only
  refine ((countMiss_unit s core ln coh pol).trans ?_).trans (makeRoom_unit _ core ln)
  split <;> exact .of_eq rfl rfl

/-! ### Translation and poison (R358, R421) -/

theorem tlbFill_unit (s : State) (unit place : Nat) (asid : BitVec 16) (va pte level : Nat) :
    UnitFrame s (s.tlbFill unit place asid va pte level) := .of_eq rfl rfl

theorem wcFill_unit (s : State) (die : Nat) (d : CtxDesc) (va leafLevel : Nat) : UnitFrame s (s.wcFill die d va leafLevel) := by
  refine foldl_keeps (P := fun acc : State × Nat => UnitFrame s acc.1) (fun acc level h => ?_) _ (s, d.ptroot) (.refl s)
  dsimp only
  split
  · exact h
  · exact h.after rfl rfl

/-- The translation that an access uses enters the TLB; a write sets D at the home agent first. -/
theorem useLeaf_unit (s : State) (core : Nat) (d : CtxDesc) (k : AccKind) (va pte level addr : Nat) :
    UnitFrame s (s.useLeaf core d k va pte level addr) := by
  have sent := fabSend_unit s (leafPa pte level va >>> 43)
  unfold State.useLeaf
  dsimp only
  split
  · exact sent
  · refine UnitFrame.trans ?_ ((tlbFill_unit _ _ _ _ _ _ _).trans (wcFill_unit _ _ _ _ _))
    split
    · exact (sent.trans (hbmTouch_unit _ _ _ _)).trans (homeWrite_unit _ _ _ _)
    · exact sent.trans (hbmTouch_unit _ _ _ _)

theorem deliverPoison_unit (s : State) (x : Group) (a : Option Nat) : UnitFrame s (s.deliverPoison x a) := by
  unfold State.deliverPoison
  split
  · exact modCore_unit (by simp) s _
  · exact .refl s

theorem readPlace_unit (s : State) (x : Group) (agent : Nat) (k : AccKind) (pol : Nat) (p : Place) (n : Nat) :
    UnitFrame s (s.readPlace x agent k pol p n).1 := by
  have delivered {t : State} (h : UnitFrame s t) (b : Bool) (a : Option Nat) : UnitFrame s (if b then t.deliverPoison x a else t) := by
    split
    · exact h.trans (deliverPoison_unit t x a)
    · exact h
  cases p with
  | scr t off => exact delivered (.refl s) _ _
  | mem segs =>
    refine delivered ?_ _ _
    induction segs with
    | nil => exact .refl s
    | cons q segs ih => exact (ih.trans (touchRead_unit _ _ _ _ _ _)).trans (useLeaf_unit _ _ _ _ _ _ _ _)

/-! ### Error records, and the log of a capture (R422 to R425, R432, R433) -/

theorem notify_unit (s : State) : UnitFrame s s.notify := by
  unfold State.notify State.putEvent
  dsimp only
  split
  · exact .of_eq rfl rfl
  · split <;> exact .of_eq rfl rfl

theorem signalErr_unit (s : State) (sev : Nat) : UnitFrame s (s.signalErr sev) := by
  have stamped : UnitFrame s { s.notify with advTime := some s.timebase.toNat } := (notify_unit s).after rfl rfl
  unfold State.signalErr
  split
  · exact .refl s
  · split
    · split
      · split
        · exact .refl s
        · exact stamped
      · exact stamped
    · exact notify_unit s

theorem appendErr_unit (s : State) (q : ErrQ) (cap base : Nat) (r : ErrRec) (step : Word64) :
    UnitFrame s (s.appendErr q cap base r step).1 := by
  unfold State.appendErr
  split
  · exact .refl s
  · exact homeWrite_unit s _ _ _

theorem writeErr_unit (s : State) (r : ErrRec) : UnitFrame s (s.writeErr r) := by
  unfold State.writeErr
  dsimp only
  split
  · exact .of_eq rfl rfl
  · refine UnitFrame.trans ?_ (signalErr_unit _ _)
    split
    · exact .before (.after (appendErr_unit _ _ _ _ _ _) rfl rfl) (by split <;> rfl) (by split <;> rfl)
    · exact .before (.after (appendErr_unit _ _ _ _ _ _) rfl rfl) (by split <;> rfl) (by split <;> rfl)

theorem capAppend_unit (s : State) (g kind pc : Nat) (mask : Mask) (pay : List Byte) : UnitFrame s (s.capAppend g kind pc mask pay) := by
  unfold State.capAppend
  split
  · exact .refl s
  split
  · exact .refl s
  split
  · exact .refl s
  split
  · exact .before (writeErr_unit _ _) rfl rfl
  · exact ((homeWrite_unit s _ _ _).trans (modGroup_unit (by simp) _ g)).after rfl rfl

theorem replayDiffers_unit (s : State) (x : Group) : UnitFrame s (s.replayDiffers x) := .before (writeErr_unit _ _) rfl rfl

theorem capRead_unit {s0 s : State} (h : UnitFrame s0 s) (g kind pc n : Nat) (vals : List (Nat × Nat × Bool)) :
    UnitFrame s0 (s0.capRead s g kind pc n vals).1 := by
  unfold State.capRead
  dsimp only
  split
  · exact h
  split
  · exact h
  split
  · split
    · split
      · exact modGroup_unit (by simp) s0 g
      · exact replayDiffers_unit s0 _
    · exact replayDiffers_unit s0 _
  split
  · exact h.trans (capAppend_unit _ _ _ _ _ _)
  · exact h

/-! ### Pops, and the wakes of drowsy granules (R72, R74, R213, R233) -/

theorem popPortAs_unit {s t : State} {g : Nat} {x : Group} {k : Nat} {m act : Mask} {ck cn pc : Nat} {vs : List (Nat × Nat × Bool)}
    (h : s.popPortAs g x k m act ck cn pc = .ok (t, vs)) : UnitFrame s t := by
  unfold State.popPortAs at h
  split at h
  · cases h
  next p _ =>
  dsimp only at h
  split at h
  · cases h
  next pls _ =>
  split at h
  · cases h
  cases h
  refine (capRead_unit ?_ g ck pc cn _).trans (modGroup_unit ?_ _ g)
  swap
  · exact fun _ => rfl
  refine foldl_keeps (P := fun acc : State × List (Nat × Nat × Bool) => UnitFrame s acc.1) (fun acc q ha => ?_) pls (s, []) (.refl s)
  have read := ha.trans (readPlace_unit acc.1 x x.agent .pop (sdPol (leNat p.desc)) q.2 (sdSize (leNat p.desc)))
  split <;> exact read

theorem popStep_unit {s t : State} {core : Nat} {x : Group} {o : MatOp} {pops : List (Nat × Nat × Nat × Bool)}
    (h : s.popStep core x o = .ok (t, pops)) : UnitFrame s t := by
  unfold State.popStep at h
  dsimp only at h
  split at h
  · cases h
  split at h
  · cases h
  split at h
  · cases h
  injection h with h
  rw [show t = _ from (congrArg Prod.fst h).symm]
  refine foldl_keeps (P := fun acc : State × List (Nat × Nat × Nat × Bool) => UnitFrame s acc.1) (fun acc k ha => ?_) _ (s, []) (.refl s)
  split
  · next hp => exact ha.trans (popPortAs_unit hp)
  · exact ha

theorem wakeGranules_unit (s : State) (g : Nat) (gs : List Nat) : UnitFrame s (s.wakeGranules g gs) := by
  refine UnitFrame.foldl (fun s k => ?_) gs s
  dsimp only
  split
  · exact .refl s
  next x hx =>
  have touched : UnitFrame s (if x.st = .active then s else
      s.setGroup g { x with rf := { x.rf with touch := cput 0 x.rf.touch k s.cycle } }) := by
    split
    · exact .refl s
    · exact setGroup_unit hx rfl
  split
  · exact (touched.trans (modGroup_unit (by simp) _ g)).trans (count_unit _ _ _ _)
  · exact touched

end Sys2Proof.Proofs.Matrix
end

section
/-! The integer step of the matrix unit: its element and the residue that goes with it (R55, R56). -/

namespace Sys2Proof.Proofs.Matrix

open Sys2Proof Sys2Proof.Machine

/-! ### Elements of 80 bits -/

/-- A value clamped to 80 bits. -/
def clamp80 (i : Int) : Int := max (-(2 : Int) ^ 79) (min (2 ^ 79 - 1) i)

theorem clamp80_bounds (i : Int) : -2 ^ 79 ≤ clamp80 i ∧ clamp80 i < 2 ^ 79 := by
  unfold clamp80
  omega

theorem signedOf_eq_toInt (v : Nat) : signedOf 80 (v % 2 ^ 80) = (BitVec.ofNat 80 v).toInt := by
  simp only [signedOf, BitVec.toInt_eq_toNat_cond, BitVec.toNat_ofNat]
  split <;> split <;> omega

theorem wrapBits_lt (i : Int) : wrapBits 80 i < 2 ^ 80 := by
  unfold wrapBits
  omega

/-- A value of 80 bits reads back from its wrapped code. -/
theorem signedOf_wrapBits {i : Int} (hi : -2 ^ 79 ≤ i ∧ i < 2 ^ 79) : signedOf 80 (wrapBits 80 i) = i := by
  obtain ⟨hl, hh⟩ := hi
  unfold signedOf wrapBits
  split <;> omega

/-- Saturation to a80i clamps, and says whether that changed the value (R48). -/
theorem satInt_a80i (i : Int) : satInt .a80i i = (wrapBits 80 (clamp80 i), decide (i ≠ clamp80 i)) := by
  have lo : intLo .a80i = -2 ^ 79 := by decide
  have hi : intHi .a80i = 2 ^ 79 - 1 := by decide
  have bits : Ty.bits .a80i = 80 := rfl
  simp only [satInt, lo, hi, bits]
  split
  · have hc : clamp80 i = -2 ^ 79 := by unfold clamp80; omega
    exact Prod.ext (by rw [hc]) (decide_eq_true (by omega)).symm
  split
  · have hc : clamp80 i = 2 ^ 79 - 1 := by unfold clamp80; omega
    exact Prod.ext (by rw [hc]) (decide_eq_true (by omega)).symm
  · have hc : clamp80 i = i := by unfold clamp80; omega
    exact Prod.ext (by rw [hc]) (decide_eq_false (by omega)).symm

/-! ### The fields of an element (R42) -/

/-- Five fields add up, wherever they stand. -/
theorem packFields_five (a b c d e i j k l m : Nat) : packFields [(a, i), (b, j), (c, k), (d, l), (e, m)] =
    a * 2 ^ i + b * 2 ^ j + c * 2 ^ k + d * 2 ^ l + e * 2 ^ m := by
  simp only [packFields, List.foldl_cons, List.foldl_nil, zero_add]

theorem accPack_eq (v r : Nat) (psn ovf chk : Bool) :
    accPack v r psn ovf chk = v + r * 2 ^ 80 + psn.toNat * 2 ^ 88 + ovf.toNat * 2 ^ 89 + chk.toNat * 2 ^ 90 := by
  rw [accPack, packFields_five, pow_zero, mul_one]

theorem accPack_fields {v r : Nat} (hv : v < 2 ^ 80) (hr : r < 256) (psn ovf chk : Bool) :
    accPack v r psn ovf chk % 2 ^ 80 = v ∧ accPack v r psn ovf chk / 2 ^ 80 % 256 = r ∧
      (accPack v r psn ovf chk).testBit 88 = psn ∧ (accPack v r psn ovf chk).testBit 89 = ovf ∧
      (accPack v r psn ovf chk).testBit 90 = chk := by
  have h1 := psn.toNat_lt
  have h2 := ovf.toNat_lt
  have h3 := chk.toNat_lt
  have bit (b : Bool) : decide (b.toNat = 1) = b := by cases b <;> rfl
  rw [accPack_eq]
  simp only [Nat.testBit_eq_decide_div_mod_eq]
  refine ⟨by omega, by omega, ?_, ?_, ?_⟩
  · refine Eq.trans (congrArg (fun n => decide (n = 1)) ?_) (bit psn)
    omega
  · refine Eq.trans (congrArg (fun n => decide (n = 1)) ?_) (bit ovf)
    omega
  · refine Eq.trans (congrArg (fun n => decide (n = 1)) ?_) (bit chk)
    omega

/-! ### Residues modulo 255 (R56) -/

theorem mod255_cast (i : Int) : (mod255 i : Int) = i % 255 := by
  unfold mod255
  omega

theorem mod255_modEq (i : Int) : (mod255 i : Int) ≡ i [ZMOD 255] := by
  rw [mod255_cast]
  exact Int.mod_modEq i 255

theorem mod255_lt (i : Int) : mod255 i < 255 := by
  unfold mod255
  omega

/-- The residue of a shift turns with period 8. -/
theorem resShift_modEq (n : Nat) : (resShift n : Int) ≡ 2 ^ n [ZMOD 255] := by
  have turn : (2 ^ 8 : Int) ^ (n / 8) * 2 ^ (n % 8) ≡ 1 ^ (n / 8) * 2 ^ (n % 8) [ZMOD 255] :=
    (Int.ModEq.pow (n / 8) (by decide)).mul_right _
  rw [← pow_mul, ← pow_add, Nat.div_add_mod, one_pow, one_mul] at turn
  simpa [resShift] using turn.symm

/-- Products added one by one are their sum. -/
theorem foldl_products (us : List (Int × Int)) (a : Int) :
    us.foldl (fun n u => n + u.1 * u.2) a = a + (us.map (fun u => u.1 * u.2)).sum := by
  induction us generalizing a with
  | nil => simp
  | cons u us ih => rw [List.foldl_cons, ih, List.map_cons, List.sum_cons, add_assoc]

/-- The residues of the products, added up, are the residue of their shifted sum. -/
theorem foldl_residues (us : List (Int × Int)) (sh n : Nat) :
    ((us.foldl (fun n u => n + mod255 u.1 * mod255 u.2 * resShift sh) n : Nat) : Int) ≡
      n + (us.map (fun u => u.1 * u.2)).sum * 2 ^ sh [ZMOD 255] := by
  induction us generalizing n with
  | nil => simp
  | cons u us ih =>
    have product := ((mod255_modEq u.1).mul (mod255_modEq u.2)).mul (resShift_modEq sh)
    refine (ih _).trans ?_
    rw [List.map_cons, List.sum_cons, add_mul, ← add_assoc]
    push_cast
    exact (product.add_left _).add_right _

/-! ### One step -/

/-- The unit values that a step multiplies (R55). -/
def unitPairs (w va vb : Nat) : List (Int × Int) :=
  (List.range (stepK w)).map (fun k => (unitValue (obFmtA w) (elemAt (obFmtA w) va k), unitValue (obFmtB w) (elemAt (obFmtB w) vb k)))

/-- The places that the products of a step move left (R55). -/
def stepShift (w : Nat) : Nat := accPoint (bitsOf w 14 12) - 6 * tsCount w

/-- The value of an element after a step, before it is clamped. -/
def stepValue (w old va vb : Nat) : Int :=
  (BitVec.ofNat 80 old).toInt + ((unitPairs w va vb).map (fun u => u.1 * u.2)).sum * 2 ^ stepShift w

/-- The residue that a step computes: that of the old element and of the products (R56). -/
def stepResidue (w old va vb : Nat) : Nat :=
  (old / 2 ^ 80 % 256 + (unitPairs w va vb).foldl (fun n u => n + mod255 u.1 * mod255 u.2 * resShift (stepShift w)) 0) % 255

/-- The residue that a step stores: computed anew from a value that the clamp changed (R56). -/
def keptResidue (w old va vb : Nat) : Nat :=
  if stepValue w old va vb ≠ clamp80 (stepValue w old va vb) then mod255 (clamp80 (stepValue w old va vb)) else stepResidue w old va vb

theorem keptResidue_lt (w old va vb : Nat) : keptResidue w old va vb < 256 := by
  unfold keptResidue
  split
  · exact (mod255_lt _).trans (by decide)
  · exact (Nat.mod_lt _ (by decide)).trans (by decide)

/-- A step without a fault: the clamped value, its residue and marks, and the check. -/
theorem intStep_eq (w old va vb : Nat) (pois resen : Bool) :
    intStep w old va vb pois resen (0, 0) =
      (accPack (wrapBits 80 (clamp80 (stepValue w old va vb))) (keptResidue w old va vb)
        (old.testBit 88 || pois) (old.testBit 89 || decide (stepValue w old va vb ≠ clamp80 (stepValue w old va vb))) (old.testBit 90),
       resen && !decide (stepValue w old va vb ≠ clamp80 (stepValue w old va vb)) &&
         (old / 2 ^ 80 % 256 == 255 || stepResidue w old va vb != mod255 (clamp80 (stepValue w old va vb)))) := by
  have value : signedOf 80 (old % 2 ^ 80) + (unitPairs w va vb).foldl (fun n u => n + u.1 * u.2) 0 * (2 ^ stepShift w : Nat) =
      stepValue w old va vb := by
    rw [signedOf_eq_toInt, foldl_products, zero_add, stepValue]
    push_cast
    rfl
  have res : bitsOf old 87 80 = old / 2 ^ 80 % 256 := congrArg (· % 256) (Nat.shiftRight_eq_div_pow old 80)
  have read := signedOf_wrapBits (clamp80_bounds (stepValue w old va vb))
  unfold intStep
  rw [← unitPairs, ← stepShift, res]
  dsimp only
  rw [value, satInt_a80i]
  simp only [Nat.xor_zero, Nat.zero_mod, read, keptResidue, stepResidue, decide_eq_true_eq]

/-- From an element whose residue agrees with its value, the residue of a step agrees with the step's value. -/
theorem stepResidue_of_agrees {w old va vb : Nat} (h : ((old / 2 ^ 80 % 256 : Nat) : Int) = (BitVec.ofNat 80 old).toInt % 255) :
    stepResidue w old va vb = mod255 (stepValue w old va vb) := by
  have old_mod : ((old / 2 ^ 80 % 256 : Nat) : Int) ≡ (BitVec.ofNat 80 old).toInt [ZMOD 255] := h ▸ Int.mod_modEq _ _
  have sum := foldl_residues (unitPairs w va vb) (stepShift w) 0
  rw [Nat.cast_zero, zero_add] at sum
  have both := old_mod.add sum
  apply Int.natCast_inj.mp
  rw [mod255_cast, stepResidue, Int.natCast_emod, Nat.cast_add]
  exact both

theorem keptResidue_of_agrees {w old va vb : Nat} (h : ((old / 2 ^ 80 % 256 : Nat) : Int) = (BitVec.ofNat 80 old).toInt % 255) :
    keptResidue w old va vb = mod255 (clamp80 (stepValue w old va vb)) := by
  unfold keptResidue
  split
  · rfl
  · next same => rw [stepResidue_of_agrees h, ← not_not.mp same]

/-- From an element whose residue agrees with its value, the check of a step without a fault passes. -/
theorem stepCheck_of_agrees {w old va vb : Nat} (h : ((old / 2 ^ 80 % 256 : Nat) : Int) = (BitVec.ofNat 80 old).toInt % 255)
    (same : stepValue w old va vb = clamp80 (stepValue w old va vb)) :
    (old / 2 ^ 80 % 256 == 255 || stepResidue w old va vb != mod255 (clamp80 (stepValue w old va vb))) = false := by
  have reserved : old / 2 ^ 80 % 256 ≠ 255 := by omega
  rw [stepResidue_of_agrees h, ← same, bne_self_eq_false, Bool.or_false]
  exact beq_eq_false_iff_ne.mpr reserved

/-- Every field of the element that a step gives. -/
theorem integerStep : Claims.IntegerStep := by
  intro w old va vb pois resen
  have shift : (if w / 2 ^ 12 % 8 = 2 then 16 else if w / 2 ^ 12 % 8 = 3 then 32 else 0) - 6 * tsCount w = stepShift w := by
    rw [stepShift, accPoint, show bitsOf w 14 12 = w / 2 ^ 12 % 8 from congrArg (· % 8) (Nat.shiftRight_eq_div_pow w 12)]
  have products : (List.range (stepK w)).map
      (fun k => unitValue (obFmtA w) (elemAt (obFmtA w) va k) * unitValue (obFmtB w) (elemAt (obFmtB w) vb k)) =
      (unitPairs w va vb).map (fun u => u.1 * u.2) := by
    rw [unitPairs, List.map_map]
    rfl
  dsimp only
  rw [shift, products, ← stepValue, ← clamp80, intStep_eq]
  obtain ⟨val, res, psn, ovf, chk⟩ := accPack_fields (wrapBits_lt (clamp80 (stepValue w old va vb))) (keptResidue_lt w old va vb)
    (old.testBit 88 || pois) (old.testBit 89 || decide (stepValue w old va vb ≠ clamp80 (stepValue w old va vb))) (old.testBit 90)
  have value := signedOf_wrapBits (clamp80_bounds (stepValue w old va vb))
  rw [← val, signedOf_eq_toInt] at value
  refine ⟨value, fun agrees => ⟨?_, ?_⟩, psn, ovf, chk⟩
  · by_cases same : stepValue w old va vb = clamp80 (stepValue w old va vb)
    · rw [stepCheck_of_agrees agrees same, Bool.and_false]
    · simp [same]
  · rw [res, value, keptResidue_of_agrees agrees, mod255_cast]

end Sys2Proof.Proofs.Matrix
end

section
/-! O31: the matrix unit's steps, and the residue of an integer step (R55, R56, R218, R232, R234, R236 to R238). -/

namespace Sys2Proof.Proofs.Matrix

open Sys2Proof Sys2Proof.Machine Sys2Proof.Laws

/-! ### Elements and operations that are written -/

/-- The words that a tile's elements write depend on the words that were there alone. -/
theorem writeElems_win {x y : Group} (h : x.rf.win = y.rf.win) (adr : List Nat) (es : List ElemOut) :
    (x.writeElems adr es).rf.win = (y.writeElems adr es).rf.win := by
  unfold Group.writeElems
  induction es generalizing x y with
  | nil => exact h
  | cons e es ih =>
    refine ih ?_
    simp only [Group.rswrite, Group.skip, h]

/-- The operations of an identifier in the queue, after one of them has been written. -/
theorem setOp_ops (s : State) (core : Nat) (o : MatOp) :
    (((s.setOp core o).core core).mq.filter (fun p => p.id == o.id)) = ((s.core core).mq.filter (fun p => p.id == o.id)).map (fun _ => o) := by
  rw [State.setOp, modCore_core_self]
  dsimp only
  induction (s.core core).mq with
  | nil => rfl
  | cons p mq ih => by_cases h : p.id = o.id <;> simp [h, ih]

/-! ### One step of a sequence (R232) -/

/-- The elements of a step without a fault, from the operands that were popped for it. -/
def stepOuts (s : State) (x : Group) (o : MatOp) (pops : List (Nat × Nat × Nat × Bool)) : List ElemOut :=
  let w := s.obWord x.team o.res
  let n := if o.b16 then 4 else 1
  let mine := fun (p : Option Nat) => (pops.filter (fun q => some q.1 == p)).map (fun q => q.2)
  s.stepElems x o w (sourceSlices x o.portA o.adrA (mine o.portA) (fragLen (obFmtA w) (stepK w)) n).1
    (sourceSlices x o.portB o.adrB (mine o.portB) (fragLen (obFmtB w) (stepK w)) n).1 .none

/-- What a step leaves of its operation: a step less, and sources moved by their increments. -/
structure Stepped (o p : MatOp) : Prop where
  id : p.id = o.id
  steps : p.steps = o.steps - 1
  adrD : p.adrD = o.adrD
  adrA : p.adrA = o.adrA.map (fun (a : Nat) => ((a : Int) + o.incA).toNat)
  adrB : p.adrB = o.adrB.map (fun (b : Nat) => ((b : Int) + o.incB).toNat)

/-- A step whose pops succeed and whose checks pass: after work that leaves queues and windows alone, the elements are written and the
operation moves on. -/
theorem stepSequence_applies {s s' : State} {core : Nat} {x : Group} {o : MatOp} {pops : List (Nat × Nat × Nat × Bool)}
    (hp : s.popStep core x o = .ok (s', pops)) (hf : ∀ e ∈ stepOuts s x o pops, e.fails = false) :
    ∃ u p, UnitFrame s' u ∧ Stepped o p ∧
      s.stepSequence core x o .none = (u.modGroup o.g (fun y => y.writeElems o.adrD (stepOuts s x o pops))).setOp core p := by
  have pass : (stepOuts s x o pops).any (fun e => e.fails) = false := by simpa [List.any_eq_false] using hf
  simp only [stepOuts] at pass
  unfold State.stepSequence
  simp only [hp, pass, Bool.false_eq_true, if_false]
  refine ⟨_, _, ?_, ?_, rfl⟩
  · refine ((modGroup_unit ?_ s' o.g).trans (wakeGranules_unit _ _ _)).trans (modGroup_unit ?_ _ o.g)
    · exact fun _ => rfl
    · exact fun _ => rfl
  · exact ⟨rfl, rfl, rfl, rfl, rfl⟩

/-! ### The events of the unit -/

/-- A unit that runs nothing takes up the oldest operation that may start. -/
theorem exec_matrixOpStart_idle {s : State} {core : Nat} {o : MatOp} (idle : ∀ p ∈ (s.core core).mq, p.running = false)
    (ho : (s.core core).mq.find? (s.startable (s.core core).mq) = some o) :
    exec (.matrixOpStart core) s = .next (s.setOp core { o with running := true }) := by
  have none : (s.core core).runningOp = none := List.find?_eq_none.mpr fun p hp => by simp [idle p hp]
  change execMatrixOpStart core s = _
  simp only [execMatrixOpStart, none, ho]

/-- A starved sequence gives way to the oldest operation that is ready. -/
theorem exec_matrixOpStart_starved {s : State} {core : Nat} {r o : MatOp} (hr : (s.core core).runningOp = some r)
    (starved : s.starvedOp r = true)
    (ho : (s.core core).mq.find? (fun p => s.startable (s.core core).mq p && !s.starvedOp p) = some o) :
    exec (.matrixOpStart core) s = .next ((s.setOp core { r with running := false }).setOp core { o with running := true }) := by
  change execMatrixOpStart core s = _
  simp only [execMatrixOpStart, hr, starved, ho, if_true]

/-- The unit applies a step of the running sequence. -/
theorem exec_matrixStep {s : State} {core : Nat} {o : MatOp} {x : Group} (ho : (s.core core).runningOp = some o)
    (hx : s.group? o.g = some x) (runs : x.unitRuns = true) (kind : o.kind ≤ 2) (steps : 0 < o.steps) :
    exec (.matrixStep core .none) s = .next (s.stepSequence core x o .none) := by
  have going : ¬(2 < o.kind ∨ o.steps = 0 ∨ (!x.unitRuns) = true) := by simp [runs]; omega
  change execMatrixStep core .none s = _
  simp only [execMatrixStep, ho, hx, if_neg going]

/-- A sequence without steps left leaves the queue; a tile operation takes effect, with the granules that it touches awake, and leaves it. -/
theorem exec_matrixOpComplete {s : State} {core : Nat} {o : MatOp} {x : Group} (ho : (s.core core).runningOp = some o)
    (hx : s.group? o.g = some x) (runs : x.unitRuns = true) :
    (o.kind ≤ 2 → o.steps = 0 → exec (.matrixOpComplete core .none) s = .next (s.finishOp core o)) ∧
      (2 < o.kind → (o.kind = 4 → ∀ e ∈ s.maccElems x o .none, e.fails = false) →
        exec (.matrixOpComplete core .none) s =
          .next (((s.wakeFor o.g (o.fullLock ++ s.writeLock x.team o)).modGroup o.g (fun y =>
            if o.kind = 3 then y.zeroTile o.adrD
            else if o.kind = 4 then
              (y.skip (y.tileSkips o.adrA + y.tileSkips o.adrB)).writeElems o.adrD (s.maccElems x o .none)
            else y.hwMark (y.convertTile o) (s.wakeFor o.g (o.fullLock ++ s.writeLock x.team o)).cycle)).finishOp core o)) := by
  change (_ → _ → execMatrixOpComplete core .none s = _) ∧ (_ → _ → execMatrixOpComplete core .none s = _)
  simp only [execMatrixOpComplete, State.completeOp, ho, hx, runs, Bool.not_true, Bool.false_eq_true, if_false]
  refine ⟨fun kind steps => by simp only [kind, steps, if_true], fun kind check => ?_⟩
  simp only [not_le.mpr kind, if_false]
  split
  · rfl
  split
  · next hk =>
    have pass : (s.maccElems x o .none).any (fun e => e.fails) = false := by simpa [List.any_eq_false] using check hk
    simp only [pass, Bool.false_eq_true, if_false]
  · rfl

theorem unitSteps : Claims.UnitSteps := by
  intro s core
  refine ⟨fun o idle ho => exec_matrixOpStart_idle idle ho, fun r o hr starved ho => exec_matrixOpStart_starved hr starved ho,
    fun o x ho hx runs => ⟨fun s' pops kind steps hp hf => ?_, exec_matrixOpComplete ho hx runs⟩⟩
  obtain ⟨u, p, frame, stepped, hs⟩ := stepSequence_applies hp hf
  obtain ⟨x', hx', -⟩ := (popStep_unit hp).group_of hx
  obtain ⟨z, hz, hwin⟩ := frame.group_of hx'
  refine ⟨_, z.writeElems o.adrD (stepOuts s x o pops), by rw [exec_matrixStep ho hx runs kind steps, hs], ?_, fun y hy => ?_, ?_⟩
  · change (u.modGroup o.g _).group? o.g = _
    rw [modGroup_group?_self, hz, Option.map_some]
  · rw [hx'] at hy
    cases hy
    simp only [stepOuts]
    exact writeElems_win hwin _ _
  · rw [← stepped.id, setOp_ops, State.core, modGroup_cores, ← State.core, frame.mq, (popStep_unit hp).mq, List.map_map, stepped.id]
    simp only [Function.comp_def, stepped.steps, stepped.adrD, stepped.adrA, stepped.adrB]

/-- Settles O31: each event of the unit by its own lemma, a step by what popping its ports leaves of queues and windows; an integer step by
the fields of the element and the residue of its sum. -/
theorem matrixUnit : Obligations.MatrixUnit := ⟨unitSteps, integerStep⟩

end Sys2Proof.Proofs.Matrix
end

section
/-! Bytes, digits, two's complement and lane masks: what the model's readings of them have in common. -/

namespace Sys2Proof.Proofs.Bits

open Sys2Proof Sys2Proof.Machine

/-! ### Bytes and digits -/

@[simp] theorem length_leBytes (n v : Nat) : (leBytes n v).length = n := by simp [leBytes]

theorem leBytes_succ (n v : Nat) : leBytes (n + 1) v = BitVec.ofNat 8 v :: leBytes n (v / 256) := by
  simp only [leBytes, List.range_succ_eq_map, List.map_cons, List.map_map, Nat.mul_zero, Nat.shiftRight_zero]
  congr 1
  refine List.map_congr_left fun i _ => ?_
  rw [Function.comp_apply, Nat.mul_succ, Nat.add_comm, Nat.shiftRight_add, Nat.shiftRight_eq_div_pow v 8]

/-- A number of n bytes reads back from its bytes. -/
theorem leNat_leBytes_append (n v : Nat) (bs : List Byte) (h : v < 256 ^ n) :
    leNat (leBytes n v ++ bs) = v + 256 ^ n * leNat bs := by
  induction n generalizing v with
  | zero =>
    obtain rfl : v = 0 := by simpa using h
    simp [leBytes]
  | succ n ih =>
    rw [pow_succ] at h
    have cons (b : Byte) (bs : List Byte) : leNat (b :: bs) = b.toNat + 256 * leNat bs := rfl
    rw [leBytes_succ, List.cons_append, cons, ih _ (by omega), BitVec.toNat_ofNat, pow_succ' 256 n, Nat.mul_assoc]
    omega

theorem leNat_leBytes {n v : Nat} (h : v < 256 ^ n) : leNat (leBytes n v) = v := by
  simpa [leNat] using leNat_leBytes_append n v [] h

/-- The bytes of 32-bit words are the digits of a number to the base 2^32. -/
theorem leNat_words (xs : List Nat) (h : ∀ x ∈ xs, x < 2 ^ 32) : leNat (xs.flatMap (leBytes 4)) = Nat.ofDigits (2 ^ 32) xs := by
  induction xs with
  | nil => rfl
  | cons x xs ih =>
    rw [List.flatMap_cons, leNat_leBytes_append 4 x _ (h x (by simp)), ih fun y hy => h y (by simp [hy]), Nat.ofDigits_cons]
    norm_num

/-- A digit stands at its place. -/
theorem ofDigits_digit {b : Nat} (ds : List Nat) (h : ∀ d ∈ ds, d < b) (i : Nat) : Nat.ofDigits b ds / b ^ i % b = ds.getD i 0 := by
  induction ds generalizing i with
  | nil => simp
  | cons d ds ih =>
    have hd : d < b := h d (by simp)
    have hb : 0 < b := by omega
    cases i with
    | zero => simp [Nat.ofDigits_cons, Nat.mod_eq_of_lt hd]
    | succ i =>
      rw [pow_succ', ← Nat.div_div_eq_div_mul, Nat.ofDigits_cons, Nat.add_mul_div_left _ _ hb, Nat.div_eq_of_lt hd, Nat.zero_add,
        ih (fun e he => h e (by simp [he])) i, List.getD_cons_succ]

/-! ### Two's complement (R33) -/

theorem wrapBits_lt (n : Nat) (i : Int) : wrapBits n i < 2 ^ n := by
  have h : (0 : Int) < (2 ^ n : Nat) := by exact_mod_cast Nat.two_pow_pos n
  unfold wrapBits
  exact (Int.toNat_lt (Int.emod_nonneg i h.ne')).mpr (Int.emod_lt_of_pos i h)

theorem signedOf_mod (n v : Nat) : signedOf n (v % 2 ^ n) = signedOf n v := by simp only [signedOf, Nat.mod_mod]

/-- A two's-complement reading is that of the bit vector. -/
theorem signedOf_eq_toInt (n v : Nat) : signedOf n v = (BitVec.ofNat n v).toInt := by
  cases n with
  | zero => simp [signedOf, Nat.mod_one, BitVec.toInt_zero_length]
  | succ n =>
    simp only [signedOf, BitVec.toInt_eq_toNat_cond, BitVec.toNat_ofNat, Nat.add_sub_cancel, Nat.pow_succ', Nat.mul_lt_mul_left Nat.two_pos]
    split
    · rfl
    · push_cast; rw [pow_succ']

/-- A difference that fits its width reads back from it. -/
theorem signedOf_wrapBits {n : Nat} {i : Int} (hl : -(2 ^ n : Nat) ≤ i) (hh : i < (2 ^ n : Nat)) :
    signedOf (n + 1) (wrapBits (n + 1) i) = i := by
  have hw : wrapBits (n + 1) i = (BitVec.ofInt (n + 1) i).toNat := rfl
  have hp : ((2 ^ (n + 1) : Nat) : Int) = 2 * (2 ^ n : Nat) := by push_cast; ring
  rw [signedOf_eq_toInt, hw, BitVec.ofNat_toNat, BitVec.setWidth_eq, BitVec.toInt_ofInt]
  exact Int.bmod_eq_of_le (by omega) (by omega)

/-! ### Lane masks -/

theorem getLsbD_maskOf (ls : List Nat) (l : Nat) : (maskOf ls).getLsbD l = (decide (l < 32) && decide (l ∈ ls)) := by
  have fold (m : Mask) : (ls.foldl (fun m l => m ||| ((1#32) <<< l)) m).getLsbD l = (m.getLsbD l || (decide (l < 32) && decide (l ∈ ls))) := by
    induction ls generalizing m with
    | nil => simp
    | cons k ls ih =>
      have lane : ((1#32) <<< k).getLsbD l = (decide (l < 32) && decide (l = k)) := by
        rw [BitVec.getLsbD_shiftLeft, BitVec.getLsbD_one, Bool.eq_iff_iff]
        simp
        omega
      rw [List.foldl_cons, ih, BitVec.getLsbD_or, lane, Bool.eq_iff_iff]
      simp only [Bool.or_eq_true, Bool.and_eq_true, decide_eq_true_eq, List.mem_cons]
      tauto
  simpa [maskOf] using fold 0

end Sys2Proof.Proofs.Bits
end

section
/-! VSPILL and VFILL, and what a spill slot holds (R75, R76, R191, R192). -/

namespace Sys2Proof.Proofs.Spill

open Sys2Proof Sys2Proof.Machine Sys2Proof.Claims Sys2Proof.Laws Sys2Proof.Proofs.Bits

/-! ### Differences (R76) -/

/-- The base and a word's difference from it give the word. -/
theorem wrapBits_add_spillDiff (x0 : Nat) {v : Nat} (hv : v < 2 ^ 32) : wrapBits 32 ((x0 : Int) + spillDiff x0 v) = v := by
  unfold spillDiff signedOf wrapBits
  split <;> omega

/-- Numbers of one width, packed side by side, are digits. -/
theorem foldl_packed (f : Nat → Nat) (w : Nat) (ys : List Nat) (a k n : Nat) (hk : ys.length ≤ k) :
    (ys.zip (List.range' a k)).foldl (fun n p => n + f p.1 * 2 ^ (w * p.2)) n = n + 2 ^ (w * a) * Nat.ofDigits (2 ^ w) (ys.map f) := by
  induction ys generalizing a k n with
  | nil => simp
  | cons y ys ih =>
    obtain ⟨k, rfl⟩ : ∃ j, k = j + 1 := ⟨k - 1, by simp at hk; omega⟩
    rw [List.range'_succ, List.zip_cons_cons, List.foldl_cons, ih _ _ _ (by simpa using hk), List.map_cons, Nat.ofDigits_cons]
    ring

/-- Differences are packed from lane 1 on (R76). -/
theorem packDiffs_eq (xs : List Nat) (w : Nat) (h : xs.length ≤ 32) :
    packDiffs xs w = Nat.ofDigits (2 ^ w) (xs.tail.map (fun v => wrapBits w (spillDiff (xs.headD 0) v))) := by
  rw [packDiffs, List.range_eq_range', foldl_packed (fun v => wrapBits w (spillDiff (xs.headD 0) v)) w xs.tail 0 31 0 (by simp; omega)]
  simp

/-- The word of a lane in a format of differences. -/
theorem fillWord_packed {xs : List Nat} {fmt w n l : Nat} (hf : fmt ≠ 0x00 ∧ fmt ≠ 0x21) (hw : spillWidth fmt = w + 1) (hn : 31 * (w + 1) ≤ 8 * n)
    (hlen : xs.length = 32) (hx : ∀ x ∈ xs, x < 2 ^ 32) (hd : diffsFit xs (2 ^ w) = true) (hl : l < 32) :
    fillWord fmt (leNat (leBytes 4 (xs.headD 0) ++ leBytes n (packDiffs xs (w + 1)))) l = xs.getD l 0 := by
  obtain ⟨x0, ys, rfl⟩ : ∃ x0 ys, xs = x0 :: ys := List.exists_cons_of_length_eq_add_one hlen
  simp only [List.length_cons, Nat.reduceEqDiff] at hlen
  have h0 : x0 < 2 ^ 32 := hx x0 (by simp)
  let ds := ys.map (fun v => wrapBits (w + 1) (spillDiff x0 v))
  have digit : ∀ d ∈ ds, d < 2 ^ (w + 1) := by
    simp only [ds, List.mem_map]
    rintro _ ⟨v, -, rfl⟩
    exact wrapBits_lt _ _
  have pack : packDiffs (x0 :: ys) (w + 1) = Nat.ofDigits (2 ^ (w + 1)) ds := packDiffs_eq _ _ (by simp; omega)
  have small : packDiffs (x0 :: ys) (w + 1) < 256 ^ n := by
    rw [pack]
    calc Nat.ofDigits (2 ^ (w + 1)) ds < (2 ^ (w + 1)) ^ ds.length := Nat.ofDigits_lt_base_pow_length (Nat.one_lt_two_pow (by omega)) digit
      _ = 2 ^ ((w + 1) * 31) := by rw [← pow_mul]; simp [ds, hlen]
      _ ≤ 2 ^ (8 * n) := Nat.pow_le_pow_right (by omega) (by omega)
      _ = 256 ^ n := by rw [pow_mul]; norm_num
  rw [List.headD_cons, leNat_leBytes_append 4 _ _ h0, leNat_leBytes small]
  unfold fillWord
  simp only [hw, if_neg hf.1, if_neg hf.2]
  cases l with
  | zero => simp; omega
  | succ l =>
    have low : (x0 + 256 ^ 4 * packDiffs (x0 :: ys) (w + 1)) % 2 ^ 32 = x0 := by omega
    have high : (x0 + 256 ^ 4 * packDiffs (x0 :: ys) (w + 1)) >>> (32 + (w + 1) * l) % 2 ^ (w + 1) = ds.getD l 0 := by
      have rest : (x0 + 256 ^ 4 * packDiffs (x0 :: ys) (w + 1)) / 2 ^ 32 = packDiffs (x0 :: ys) (w + 1) := by omega
      rw [Nat.shiftRight_add, Nat.shiftRight_eq_div_pow _ 32, rest, Nat.shiftRight_eq_div_pow, pow_mul, pack, ofDigits_digit ds digit]
    have lane : l < ys.length := by omega
    have mem : ys[l] ∈ x0 :: ys := List.mem_cons_of_mem _ (List.getElem_mem lane)
    have fits : -(2 ^ w : Nat) ≤ spillDiff x0 ys[l] ∧ spillDiff x0 ys[l] < (2 ^ w : Nat) := by
      have := List.all_eq_true.mp hd _ mem
      simpa using this
    rw [if_neg (by omega), Nat.add_sub_cancel, ← signedOf_mod, high, low, List.getD_cons_succ, List.getD_eq_getElem _ _ lane,
      List.getD_eq_getElem _ _ (by simpa [ds] using lane), List.getElem_map, signedOf_wrapBits fits.1 fits.2,
      wrapBits_add_spillDiff x0 (hx _ mem)]

/-- Whole words read back. -/
theorem fillWord_words {xs : List Nat} {l : Nat} (hx : ∀ x ∈ xs, x < 2 ^ 32) :
    fillWord 0x00 (leNat (xs.flatMap (leBytes 4))) l = xs.getD l 0 := by
  rw [leNat_words xs hx, ← ofDigits_digit xs hx l, ← pow_mul]
  simp only [fillWord, if_true, bitsOf, Nat.shiftRight_eq_div_pow]
  congr 2
  omega

theorem length_words (xs : List Nat) : (xs.flatMap (leBytes 4)).length = 4 * xs.length := by
  simp [List.length_flatMap, Nat.mul_comm]

theorem spillRoundTrip : SpillRoundTrip := by
  intro xs pois l hlen hx hl
  have whole : spillLen 0x00 = some (xs.flatMap (leBytes 4)).length ∧ fillWord 0x00 (leNat (xs.flatMap (leBytes 4))) l = xs.getD l 0 := by
    rw [length_words, hlen]
    exact ⟨rfl, fillWord_words hx⟩
  have lane : xs.getD l 0 ∈ xs := by
    rw [List.getD_eq_getElem _ _ (by omega)]
    exact List.getElem_mem _
  have packed {fmt w n : Nat} (hf : fmt ≠ 0x00 ∧ fmt ≠ 0x21) (hw : spillWidth fmt = w + 1) (hn : 31 * (w + 1) ≤ 8 * n)
      (hs : spillLen fmt = some (4 + n)) (hd : diffsFit xs (2 ^ w) = true) :
      spillLen fmt = some (leBytes 4 (xs.headD 0) ++ leBytes n (packDiffs xs (w + 1))).length ∧
        fillWord fmt (leNat (leBytes 4 (xs.headD 0) ++ leBytes n (packDiffs xs (w + 1)))) l = xs.getD l 0 :=
    ⟨by simpa using hs, fillWord_packed hf hw hn hlen hx hd hl⟩
  simp only [spillFormat]
  split
  · exact whole
  split
  · next zero =>
    have nought : xs.getD l 0 = 0 := by simpa only [beq_iff_eq] using List.all_eq_true.mp zero _ lane
    exact ⟨rfl, nought.symm⟩
  split
  · next same =>
    have base : xs.getD l 0 = xs.headD 0 := by simpa only [beq_iff_eq] using List.all_eq_true.mp same _ lane
    have small : xs.headD 0 < 2 ^ 32 := base ▸ hx _ lane
    refine ⟨rfl, ?_⟩
    rw [leNat_leBytes small, base]
    exact (if_pos (Or.inr rfl)).trans (Nat.mod_eq_of_lt small)
  split
  · next fits => exact packed (fmt := 0x10) (w := 3) (by decide) rfl (by decide) rfl fits
  split
  · next fits => exact packed (fmt := 0x11) (w := 7) (by decide) rfl (by decide) rfl fits
  split
  · next fits => exact packed (fmt := 0x12) (w := 15) (by decide) rfl (by decide) rfl fits
  · exact whole

/-! ### The instructions -/

theorem spillsAndFills : SpillsAndFills := by
  intro e
  refine ⟨acts_of _ (fun s => rfl) ?_, acts_of _ (fun s => rfl) ?_⟩
  · rintro s c w (⟨none, rfl⟩ | ⟨some, ea, fea, pls, hslot, hpls, s0, hs0, rfl⟩)
    · exact if_pos none
    · refine (if_neg some).trans ?_
      have reads : s.readSrc c.x [] { o := e.d, ty := .b32 } = srcOf s c e.d .b32 := rfl
      simp only [reads]
      generalize (List.range 32).map (srcOf s c e.d .b32) = ws at hpls ⊢
      simp only [List.isEmpty_iff, List.any_map, List.foldl_map, ← List.map_drop, ← List.map_take, Function.id_comp, hslot]
      rw [hpls]
      simp only [hs0]
      rfl
  · rintro s c w (⟨none, hw⟩ | ⟨some, ea, fea, fp, n, bp, hslot, hfp, clean, hlen, hbp, hw⟩)
    · exact (if_pos none).trans hw
    · refine (if_neg some).trans ?_
      simp only [hslot, hfp, clean, hlen, hbp]
      exact hw

/-- Settles O26: the bodies of VSPILL and VFILL answer what the claim gives, and the bytes of a slot are digits to the base that the format
names. -/
theorem spillAndFill : Obligations.SpillAndFill := ⟨spillsAndFills, spillRoundTrip⟩

end Sys2Proof.Proofs.Spill
end

section
/-! The instructions that compute lane by lane, as issue sees them (R103). -/

namespace Sys2Proof.Proofs.Issue

open Sys2Proof Sys2Proof.Machine Sys2Proof.Claims Sys2Proof.Laws

/-- A third-operand form whose b is of the instruction's type. -/
theorem intOp3_ty (e : Enc) (s : State) (f : Nat → Nat → Nat → Nat) :
    intOp3 e s e.ty f = runLanes e s (abc e) (Ty.bytes e.ty) (Ty.bits e.ty) none
      (fun _ vs rs => intOut vs rs (f (srcVal vs 0) (srcVal vs 1) (srcVal vs 2)) false) := by
  rw [intOp3, bne_self_eq_false]
  rfl

/-- An instruction issues as one that computes lane by lane from these sources into D. -/
def LaneForm (e : Enc) (i : Instr) (srcs : List Src) : Prop :=
  ∃ (late : Option (Nat × Bool × Bool)) (chk : Option (List (Nat × Bool) → ShadowIn)) (f : Iss → Nat → List (Nat × Bool) → Word32 → LaneOut),
    ∀ s, exec i s = runInstr false (opUses srcs e.d (Ty.bytes e.ty)) false e s
    (fun s c => laneBody e.d srcs (Ty.bytes e.ty) (Ty.bits e.ty) late chk none (f c) s c)

theorem laneForm_of_mem {e : Enc} {p : Instr × List Src} (h : p ∈ laneForms e) : LaneForm e p.1 p.2 := by
  have imad : LaneForm e (.imad e) (abc e) := ⟨_, _, fun _ => _, fun s =>
    intOp3_ty e s fun a b c => wrapBits (Ty.bits e.ty) (prod e.ty a b + intOf e.ty c)⟩
  have imadh : LaneForm e (.imadh e) (abc e) := ⟨_, _, fun _ => _, fun s =>
    intOp3_ty e s fun a b c => highHalf e.ty (prod e.ty a b + intOf e.ty c)⟩
  revert p
  simp only [laneForms, List.forall_mem_cons, List.not_mem_nil, false_implies, implies_true, and_true, imad, imadh, true_and]
  repeat' apply And.intro
  all_goals exact ⟨_, _, _, fun _ => rfl⟩

end Sys2Proof.Proofs.Issue
end

section
/-! O60: what stops an instruction at decode and at issue (R63, R72, R80, R84, R87, R88, R89, R92, R93, R168). -/

namespace Sys2Proof.Proofs.Issue

open Sys2Proof Sys2Proof.Machine Sys2Proof.Claims Sys2Proof.Laws

/-! ### Words that are no instruction (R80, R92) -/

/-- A cause of the entry under way is taken where the group may issue and the matrix unit has no work of it under way. -/
theorem entryTrap_taken {s : State} {x : Group} {e : Ent} (hx : s.group? s.cur = some x) (he : x.chosen = some e) (hi : x.issuable = true)
    (hr : s.mayRun x = true) (hb : s.unitBusy s.cur x = false) (cause : Cause) {p : Group → Ent → Bool} (hp : p x e = true) :
    s.entryTrap cause p =
      (s.takeTrap s.cur cause (e.mask &&& ~~~x.empties) 0 0).capAppend s.cur 8 e.pc.toNat (e.mask &&& ~~~x.empties) [] := by
  simp only [State.entryTrap, hx, he, hi, hr, hp, Bool.and_self, if_true]
  exact unlessBusy_quiet hb _

theorem wordTraps : WordTraps := by
  intro s x e why hx he hi hr hb m cause
  refine ⟨?_, fun beyond => ?_⟩
  · have raised : decodeCause why = cause := by cases why <;> rfl
    change execIllegalOpcode why s = _
    rw [execIllegalOpcode, raised, entryTrap_taken hx he hi hr hb cause rfl]
  · change execFetchBounds s = _
    rw [execFetchBounds, entryTrap_taken hx he hi hr hb cFETCH_BOUNDS (decide_eq_true beyond)]
    rfl

/-! ### Every encoded instruction goes through issue (R70, R84, R93) -/

/-- An instruction means what issue makes of some operand checks and some effect of its own. -/
def IssuesAs (i : Instr) (priv : Bool) (e : Enc) : Prop :=
  ∃ (uses : State → Iss → List Use) (moved : Bool) (body : State → Iss → Except Stop State), ∀ s, exec i s = runInstr priv uses moved e s body

theorem swr_issues (e : Enc) : IssuesAs (.swr e) (privileged (.swr e)) e := by
  have same : privDest e.d = privileged (.swr e) := by
    simp only [privileged]
    cases e.d with
    | sys r => cases r <;> rfl
    | _ => rfl
  rw [← same]
  exact ⟨_, _, _, fun _ => rfl⟩

theorem pmov_issues (e : Enc) : IssuesAs (.pmov e) false e := by
  by_cases pred : ∃ k, e.d = .pred k
  · obtain ⟨k, hk⟩ := pred
    have arm (s : State) : exec (.pmov e) s = pmovToPred e s := by
      change execPmov e s = _
      simp only [execPmov, hk]
    by_cases whole : e.mod.getLsbD 0 = true
    · exact ⟨_, _, _, fun s => (arm s).trans (if_pos whole)⟩
    · exact ⟨_, _, _, fun s => (arm s).trans (if_neg whole)⟩
  · refine ⟨_, _, _, fun s => (?_ : exec (.pmov e) s = pmovFromPred e s)⟩
    change execPmov e s = _
    unfold execPmov
    split
    · next k hk => exact absurd ⟨k, hk⟩ pred
    · rfl

theorem pack_issues (e : Enc) : IssuesAs (.pack e) false e := by
  by_cases small : e.ty = .sm4 ∨ e.ty = .sm6
  · exact ⟨_, _, _, fun s => if_pos small⟩
  · exact ⟨_, _, _, fun s => if_neg small⟩

theorem unpk_issues (e : Enc) : IssuesAs (.unpk e) false e := by
  by_cases small : e.ty = .sm4 ∨ e.ty = .sm6
  · exact ⟨_, _, _, fun s => if_pos small⟩
  · exact ⟨_, _, _, fun s => if_neg small⟩

theorem vote_issues (e : Enc) : IssuesAs (.vote e) false e := by
  by_cases ballot : e.mod.toNat % 4 = 3
  · exact ⟨_, _, _, fun s => if_pos ballot⟩
  · exact ⟨_, _, _, fun s => if_neg ballot⟩

/-- Every encoded instruction means what issue makes of it, with its own privilege; its YLD hint stands as it is but in YIELD, which sets it
unless its guard is `!p15`. -/
theorem issues_of_parts {i : Instr} {op : Nat} {e : Enc} (h : i.parts = some (op, e)) :
    ∃ yld, (guardNever e = true → yld = e.yld) ∧ IssuesAs i (privileged i) { e with yld := yld } := by
  cases i <;> cases h
  case yield => exact ⟨e.yld || !guardNever e, fun never => by rw [never, Bool.not_true, Bool.or_false], _, _, _, fun _ => rfl⟩
  case swr => exact ⟨e.yld, fun _ => rfl, swr_issues e⟩
  case pmov => exact ⟨e.yld, fun _ => rfl, pmov_issues e⟩
  case pack => exact ⟨e.yld, fun _ => rfl, pack_issues e⟩
  case unpk => exact ⟨e.yld, fun _ => rfl, unpk_issues e⟩
  case vote => exact ⟨e.yld, fun _ => rfl, vote_issues e⟩
  all_goals exact ⟨e.yld, fun _ => rfl, _, _, _, fun _ => rfl⟩

/-- An instruction in hand of a group that may issue goes to its checks as it is, whatever its guard. -/
theorem runInstr_ready {s : State} {e : Enc} {c : Iss} (hc : s.iss? e = some c) (hi : c.x.issuable = true) (hr : s.mayRun c.x = true)
    (hw : c.x.engineWait = false) (hb : s.unitBusy c.g c.x = false) (priv : Bool) (uses : State → Iss → List Use) (moved : Bool)
    (body : State → Iss → Except Stop State) : runInstr priv uses moved e s body = .next (s.issueInstr priv uses moved e c body) := by
  have engines : { c.x with engineWait := false } = c.x := by rw [← hw]
  simp only [runInstr, hc, hi, hr, Bool.and_self, if_true, State.takeEngines, hw, Bool.not_false, engines, unlessBusy_quiet hb]

theorem privilegeTrap : PrivilegeTrap := by
  intro i op e s c hp priv hc hi hr hw hb user
  obtain ⟨yld, -, uses, moved, body, hexec⟩ := issues_of_parts hp
  rw [hexec, runInstr_ready (e := { e with yld := yld }) hc hi hr hw hb]
  simp only [State.issueInstr, priv, user, Bool.not_false, Bool.and_self, if_true]
  rfl

theorem guardNever_nop : GuardNever := by
  intro i op e s c hp neg grd hc hi hr hw hb priv
  have never : guardNever e = true := by rw [guardNever, neg, grd]; rfl
  obtain ⟨yld, hint, uses, moved, body, hexec⟩ := issues_of_parts hp
  have allowed : (privileged i && !c.x.handler) = false := by
    cases h : privileged i
    · rfl
    · rw [priv h]; rfl
  rw [hexec, hint never, runInstr_ready hc hi hr hw hb]
  simp only [State.issueInstr, allowed, never, if_true, Bool.false_eq_true, if_false]

/-! ### The checks on operands, one by one (R63, R72) -/

theorem outOfRange_iff (x : Group) (u : Use) :
    u.outOfRange x = true ↔ ∃ k i, u.o = .view k i ∧ bitsOf (x.view k.toNat) 11 0 ≤ i.toNat := by
  unfold Use.outOfRange
  split
  · next k i h => rw [decide_eq_true_eq]; simp [h, vwCount]
  · next h => simpa using fun k i hk => absurd hk (h k i)

/-- The operands of an instruction that computes are no blocks, no addresses and none of a matrix operation, and take the lanes of `act`. -/
theorem opUses_plain {srcs : List Src} {d : Opnd} {n : Nat} {s : State} {c : Iss} {u : Use} (h : u ∈ opUses srcs d n s c) :
    u.block = false ∧ u.exact = false ∧ u.mat = false ∧ u.lanes = c.act := by
  unfold opUses at h
  split at h
  · cases h
  · rcases List.mem_cons.mp h with rfl | h
    · exact ⟨rfl, rfl, rfl, rfl⟩
    · obtain ⟨q, -, rfl⟩ := List.mem_map.mp h
      exact ⟨rfl, rfl, rfl, rfl⟩

theorem tooWide_iff {x : Group} {u : Use} (hb : u.block = false) (he : u.exact = false) :
    u.tooWide x = true ↔ (∃ k i, u.o = .view k i ∧ ∀ w, vwWidth (x.view k.toNat) = some w → w < u.n) ∨
      (8 < u.n ∧ ((∃ k, u.o = .opf k) ∨ (∃ k, u.o = .last k) ∨ ∃ k, u.o = .scal k)) := by
  unfold Use.tooWide
  cases hu : u.o with
  | view k i => cases hw : vwWidth (x.view k.toNat) <;> simp [hb, he, hw]
  | _ => simp

theorem outOfBounds_iff {x : Group} {u : Use} (hm : u.mat = false) :
    u.outOfBounds x = true ↔
      (∃ k i l, u.o = .view k i ∧ l ∈ lanesOf u.lanes ∧ x.rf.wbytes < vwAddr (x.view k.toNat) i.toNat l + u.n) ∨
        ∃ a, u.o = .rs a ∧ x.rf.wbytes < a.toNat + u.n := by
  unfold Use.outOfBounds
  cases hu : u.o <;> simp [hm]

/-- The first check that some operand fails decides (R63). -/
theorem checkViews_eq (x : Group) (us : List Use) :
    ((∃ u ∈ us, u.outOfRange x = true) → checkViews x us = some cVIEW_RANGE) ∧
    (¬(∃ u ∈ us, u.outOfRange x = true) → (∃ u ∈ us, u.tooWide x = true) → checkViews x us = some cVIEW_WIDTH) ∧
    (¬(∃ u ∈ us, u.outOfRange x = true) → ¬(∃ u ∈ us, u.tooWide x = true) → (∃ u ∈ us, u.outOfBounds x = true) →
      checkViews x us = some cRS_BOUNDS) ∧
    (¬(∃ u ∈ us, u.outOfRange x = true) → ¬(∃ u ∈ us, u.tooWide x = true) → ¬(∃ u ∈ us, u.outOfBounds x = true) →
      checkViews x us = none) := by
  simp only [checkViews, List.any_eq_true]
  refine ⟨fun h => if_pos h, fun h h' => ?_, fun h h' h'' => ?_, fun h h' h'' => ?_⟩
  · rw [if_neg h, if_pos h']
  · rw [if_neg h, if_neg h', if_pos h'']
  · rw [if_neg h, if_neg h', if_neg h'']

theorem portCause_unbound_iff (x : Group) (u : Use) :
    portCause x u = some cSTREAM_UNBOUND ↔ ∃ k, u.o = .port k ∧ x.port? k.toNat = none := by
  have other : cSTREAM_DIR ≠ cSTREAM_UNBOUND ∧ cSTREAM_KIND ≠ cSTREAM_UNBOUND := by decide
  unfold portCause
  split
  · next k hu =>
    split
    · next hp => simp [hu, hp]
    · next p hp =>
      simp only [hu, Opnd.port.injEq, exists_eq_left', hp, reduceCtorEq, iff_false]
      split
      · simpa using other.1
      · split
        · simpa using other.2
        · simp
  · next hu => simpa using fun k hk => absurd hk (hu k)

theorem portCause_dir {x : Group} {u : Use} {k : BitVec 4} {p : Port} (hu : u.o = .port k) (hp : x.port? k.toNat = some p)
    (hd : (leNat p.desc).testBit 453 ≠ u.dest) : portCause x u = some cSTREAM_DIR := by
  simp only [portCause, hu, hp]
  rw [if_pos (by simpa using hd)]

/-- A port that is not bound is met before one of the wrong direction (R72). -/
theorem checkPorts_eq (x : Group) (us : List Use) :
    ((∃ u ∈ us, portCause x u = some cSTREAM_UNBOUND) → checkPorts x us = some cSTREAM_UNBOUND) ∧
    (¬(∃ u ∈ us, portCause x u = some cSTREAM_UNBOUND) → (∃ u ∈ us, portCause x u = some cSTREAM_DIR) →
      checkPorts x us = some cSTREAM_DIR) := by
  simp only [checkPorts, List.contains_iff_mem, List.mem_filterMap]
  exact ⟨fun h => if_pos h, fun h h' => by rw [if_neg h, if_pos h']⟩

/-! ### The checks made at issue (R63, R72, R88) -/

section
variable {s : State} {e : Enc} {c : Iss} {uses : State → Iss → List Use} {moved : Bool} {body : State → Iss → Except Stop State}

theorem issueInstr_view (hg : guardNever e = false) {cause : Cause} (hv : checkViews c.x (uses s c) = some cause) :
    s.issueInstr false uses moved e c body = s.stopped c (.plain cause c.fault) := by
  simp only [State.issueInstr, hg, hv, Bool.false_and, Bool.false_eq_true, if_false]

theorem issueInstr_port (hg : guardNever e = false) (hv : checkViews c.x (uses s c) = none) {cause : Cause}
    (hp : checkPorts c.x (uses s c) = some cause) : s.issueInstr false uses moved e c body = s.stopped c (.plain cause c.fault) := by
  simp only [State.issueInstr, hg, hv, hp, Bool.false_and, Bool.false_eq_true, if_false]

theorem issueInstr_hazard (hg : guardNever e = false) (hv : checkViews c.x (uses s c) = none) (hp : checkPorts c.x (uses s c) = none)
    (hw : ((dependsOn c.x (uses s c)).any (fun p => p.window != 0) || (touchedCvts c.x (uses s c)).any (fun q => q.window != 0)) = true) :
    s.issueInstr false uses moved e c body = s.stopped c (.plain cLA_HAZARD c.fault) := by
  simp only [State.issueInstr, hg, hv, hp, hw, Bool.false_and, Bool.false_eq_true, if_false, if_true]
end

theorem checksAtIssue : ChecksAtIssue := by
  intro e p s c hp us traps range width bounds unbound hc
  obtain ⟨late, chk, f, hexec⟩ := laneForm_of_mem hp
  have guard : guardNever e = false := hc.1.2.2.2.2
  have range_iff : range ↔ ∃ u ∈ us, u.outOfRange c.x = true := by simp only [outOfRange_iff, range]
  have width_iff : width ↔ ∃ u ∈ us, u.tooWide c.x = true := by
    refine exists_congr fun u => and_congr_right fun hu => ?_
    obtain ⟨hb, he, -, -⟩ := opUses_plain hu
    exact (tooWide_iff hb he).symm
  have bounds_iff : bounds ↔ ∃ u ∈ us, u.outOfBounds c.x = true := by
    refine exists_congr fun u => and_congr_right fun hu => ?_
    obtain ⟨-, -, hm, hl⟩ := opUses_plain hu
    rw [outOfBounds_iff hm, hl]
  have unbound_iff : unbound ↔ ∃ u ∈ us, portCause c.x u = some cSTREAM_UNBOUND := by simp only [portCause_unbound_iff, unbound]
  obtain ⟨onRange, onWidth, onBounds, onNone⟩ := checkViews_eq c.x us
  obtain ⟨onUnbound, onDir⟩ := checkPorts_eq c.x us
  have view {cause : Cause} (h : checkViews c.x us = some cause) : traps cause := by
    change exec p.1 s = _
    rw [hexec, runInstr_canIssue hc, issueInstr_view guard h]
    rfl
  have port {cause : Cause} (hv : checkViews c.x us = none) (h : checkPorts c.x us = some cause) : traps cause := by
    change exec p.1 s = _
    rw [hexec, runInstr_canIssue hc, issueInstr_port guard hv h]
    rfl
  rw [range_iff, width_iff, bounds_iff, unbound_iff]
  refine ⟨fun h => view (onRange h), fun h h' => view (onWidth h h'), fun h h' h'' => view (onBounds h h' h''),
    fun h h' h'' hu => port (onNone h h' h'') (onUnbound hu), fun h h' h'' hu => ?_, fun hv hq hw => ?_⟩
  · rintro ⟨u, hmem, k, q, ho, hb, hd⟩
    exact port (onNone h h' h'') (onDir hu ⟨u, hmem, portCause_dir ho hb hd⟩)
  · change exec p.1 s = _
    rw [hexec, runInstr_canIssue hc, issueInstr_hazard guard hv hq (by simpa [us] using hw)]
    rfl

/-- Settles O60: a word by the trap of its entry; privilege and the guard by the shape that every encoded instruction has; the checks of
operands by what each check looks at. -/
theorem issueChecks : Obligations.IssueChecks := ⟨wordTraps, privilegeTrap, guardNever_nop, checksAtIssue⟩

end Sys2Proof.Proofs.Issue
end

section
/-! O59: an instruction that computes does not leave everything but groups, cores and teams as it was: its issue also takes its group off the
requests for tokens that had it as a reader (R347). -/

namespace Sys2Proof.Proofs.Issue

open Sys2Proof Sys2Proof.Machine Sys2Proof.Claims

/-- The machine with one resident group, a read of which has asked for the tokens of a line. -/
def tokenWaiting : State :=
  { State.reset.probe with tokReqs := [{ line := 0, die := 0, fails := 1, persistent := false, readers := [probeGroup.agent] }] }

/-- A sum of f32 values into a view. -/
def sumToView : Enc := ⟨false, 15, .f32, 0, false, false, 0, .view 0 7, .opf 2, .imm 3, 0⟩

theorem sumToView_inHand : (tokenWaiting.iss? sumToView).isSome = true := by decide +kernel

/-- The sum as the group is about to issue it. -/
def sumInHand : Iss := (tokenWaiting.iss? sumToView).get sumToView_inHand

theorem sumToView_canIssue : CanIssue tokenWaiting sumToView sumInHand := by
  refine ⟨⟨(Option.some_get sumToView_inHand).symm, ?_⟩, ?_⟩ <;> decide +kernel

theorem sumToView_noStop : NoStop tokenWaiting sumToView sumInHand (opUses (ab sumToView) sumToView.d 4 tokenWaiting sumInHand) := by
  unfold NoStop
  decide +kernel

/-- The readers of the requests for tokens in the state that an outcome gives. -/
def readersLeft : Host.Outcome State Fault Refusal → Option (List (List Nat))
  | .next t => some (t.tokReqs.map (fun q => q.readers))
  | _ => none

/-- The sum issues and leaves the request without a reader. -/
theorem fadd_drops_reader : readersLeft (exec (.fadd sumToView) tokenWaiting) = some [[]] := by decide +kernel

/-- Refutes O59: an instruction that issues ends the wait of its group's agent for tokens, so `tokReqs` changes, which is neither groups, cores
nor teams. -/
theorem not_computeFrame : ¬Obligations.ComputeFrame := by
  intro frame
  have dropped := fadd_drops_reader
  cases issues : exec (.fadd sumToView) tokenWaiting with
  | next t =>
    rw [issues] at dropped
    obtain ⟨same, -⟩ := frame sumToView (.fadd sumToView, ab sumToView) tokenWaiting t sumInHand (by simp [laneForms]) sumToView_canIssue
      sumToView_noStop (by decide) (fun _ => nofun) rfl issues
    have kept := congrArg State.tokReqs same
    have readers : [[]] = tokenWaiting.tokReqs.map (fun q => q.readers) :=
      (Option.some.inj dropped).symm.trans (congrArg (List.map _) kept)
    exact absurd readers (by decide)
  | fault r | refused r =>
    rw [issues] at dropped
    cases dropped

end Sys2Proof.Proofs.Issue
end

section
/-! O6: predicates and compares (R66, R113, R119, R124). -/

namespace Sys2Proof.Proofs.Predicates

open Sys2Proof Sys2Proof.Machine Sys2Proof.Claims Sys2Proof.Laws Sys2Proof.Proofs.Bits

/-! ### Masks of lanes -/

theorem getLsbD_maskWith (p : Nat → Bool) {l : Nat} (hl : l < 32) : (maskWith p).getLsbD l = p l := by
  rw [maskWith, getLsbD_maskOf]
  simp [hl]

/-- A mask is that of the lanes whose bit a function gives. -/
theorem maskWith_eq {p : Nat → Bool} {m : Mask} (h : ∀ l, l < 32 → p l = m.getLsbD l) : maskWith p = m := by
  refine BitVec.eq_of_getLsbD_eq fun l hl => ?_
  rw [getLsbD_maskWith p hl, h l hl]

/-! ### The write of a predicate (R66) -/

theorem predicateWrite : PredicateWrite := by
  intro x k k' l lanes v hl
  have all : x.predMask 15 = ~~~0 := if_pos rfl
  refine ⟨all, if_pos rfl, fun hk => ?_, ?_, ?_⟩
  · by_cases same : k' = k
    · subst same
      simp only [Group.setPred, Group.predMask, if_neg hk, cget_cput_self, true_and]
      rw [BitVec.getLsbD_or, BitVec.getLsbD_and, BitVec.getLsbD_and, BitVec.getLsbD_not]
      cases lanes.getLsbD l <;> simp [hl]
    · have other : (x.setPred k lanes v).predMask k' = x.predMask k' := by
        simp only [Group.setPred, Group.predMask, if_neg hk, cget_cput_ne _ _ same]
      rw [other, if_neg fun h => same h.1]
  · unfold Group.setPred
    split <;> rfl
  · unfold Group.setPred
    split <;> rfl

/-! ### Comparisons of integers (R113) -/

theorem asInt_eq (t : Ty) (a : Nat) : asInt t a = intOf t a := by
  simp only [asInt, intOf, signedOf_eq_toInt, BitVec.toNat_ofNat]

/-- Decode lets ICMP have the six condition codes alone. -/
theorem icmp_mod_lt {e : Enc} (h : (Instr.icmp e).wf = true) : e.mod.toNat < 6 := by
  have mod : e.mod < 6 := by
    have wf : (Instr.icmp e).wf = (((((true && _) && _) && _) && (decide (e.mod < 6) && (e.x == 0))) && _) := rfl
    rw [wf] at h
    simp only [Bool.and_eq_true, decide_eq_true_eq] at h
    exact h.1.2.1
  exact mod

/-- The condition codes in their order. -/
theorem intCmp_eq {cc : BitVec 4} (h : cc.toNat < 6) (a b : Int) :
    intCmp cc a b = (([decide (a = b), decide (a ≠ b), decide (a < b), decide (a ≤ b), decide (a > b), decide (a ≥ b)][cc.toNat]?).getD false) := by
  unfold intCmp
  generalize cc.toNat = n at h
  interval_cases n <;> simp [bne, Bool.beq_eq_decide_eq]

theorem integerCompare : IntegerCompare := by
  intro e wf
  refine computesPred_of fun s => ?_
  simp only [asInt_eq, ← intCmp_eq (icmp_mod_lt wf)]
  rfl

/-! ### PLOP and PMOV (R119) -/

theorem getLsbD_plop (op : Nat) (a b : Mask) {l : Nat} (hl : l < 32) (h : op < 8) : (plop op a b).getLsbD l =
    ([a.getLsbD l && b.getLsbD l, a.getLsbD l || b.getLsbD l, a.getLsbD l != b.getLsbD l, a.getLsbD l && !b.getLsbD l,
      a.getLsbD l || !b.getLsbD l, !(a.getLsbD l && b.getLsbD l), !(a.getLsbD l || b.getLsbD l), a.getLsbD l == b.getLsbD l][op]?).getD false := by
  have differ : ∀ x y : Bool, (x ^^ y) = (!x == y) := by decide
  interval_cases op <;> simp [plop, hl, differ]

theorem predicateLogic : PredicateLogic := by
  intro e
  refine performs_of _ (fun s => rfl) fun s c _ => ?_
  have op : e.mod.toNat % 8 < 8 := Nat.mod_lt _ (by decide)
  simp only [putPred, predBit]
  rw [maskWith_eq fun l hl => (getLsbD_plop _ _ _ hl op).symm]

theorem predicateMoves : PredicateMoves := by
  intro e
  have toPred (hd : ∃ k, e.d = .pred k) (s : State) : exec (.pmov e) s = pmovToPred e s := by
    obtain ⟨k, hk⟩ := hd
    change execPmov e s = _
    simp only [execPmov, hk]
  refine ⟨fun hd lanes => ?_, fun hd whole => ?_, fun hd => ?_⟩
  · exact computesPred_of fun s => (toPred hd s).trans (if_neg (by rw [lanes]; decide))
  · refine performs_of _ (fun s => (toPred hd s).trans (if_pos whole)) fun s c _ => ?_
    have bits (v : Nat) : maskWith (fun l => v.testBit l) = BitVec.ofNat 32 v :=
      maskWith_eq fun l hl => by rw [BitVec.getLsbD_ofNat, decide_eq_true hl, Bool.true_and]
    rw [putPred, bits]
    rfl
  · refine computesWith_of (chk := none) fun s => ?_
    have from_ : exec (.pmov e) s = pmovFromPred e s := by
      change execPmov e s = _
      unfold execPmov
      split
      · next k hk => exact absurd hk (hd k)
      · rfl
    rw [from_]
    have bit (b : Bool) : b.toNat = if b then 1 else 0 := by cases b <;> rfl
    simp only [predBit, bit]
    rfl

/-! ### Comparisons of values (R124) -/

/-- The eight conditions in their order. -/
theorem fpCompare_truth {cc : Nat} (h : cc < 8) (a b : Val) :
    (fpCompare cc a b).1 = (([!(a.isNaN || b.isNaN) && valCmp a b == .eq, (a.isNaN || b.isNaN) || valCmp a b != .eq,
      !(a.isNaN || b.isNaN) && valCmp a b == .lt, !(a.isNaN || b.isNaN) && (valCmp a b == .lt || valCmp a b == .eq),
      !(a.isNaN || b.isNaN) && valCmp a b == .gt, !(a.isNaN || b.isNaN) && (valCmp a b == .gt || valCmp a b == .eq),
      a.isNaN || b.isNaN, !(a.isNaN || b.isNaN)][cc]?).getD false) := by
  unfold fpCompare
  cases valCmp a b <;> interval_cases cc <;> rfl

/-- NV comes of a signalling NaN in `.eq`, `.ne`, `.un` and `.ord`, of any NaN in the others. -/
theorem fpCompare_nv {cc : Nat} (h : cc < 8) (a b : Val) :
    (fpCompare cc a b).2 = true ↔ (2 ≤ cc ∧ cc ≤ 5 ∧ (a.isNaN || b.isNaN) = true) ∨ ((cc < 2 ∨ 5 < cc) ∧ (a.isSNaN || b.isSNaN) = true) := by
  unfold fpCompare
  interval_cases cc <;> simp

theorem floatCompare : FloatCompare := by
  intro e
  refine computesPred_of fun s => ?_
  have cc : e.mod.toNat % 8 < 8 := Nat.mod_lt _ (by decide)
  simp only [← fpCompare_truth cc, ← fpCompare_nv cc]
  rfl

/-- Settles O6: a predicate's write by the table it goes to, PLOP and PMOV bit by bit, the comparisons condition by condition. -/
theorem predicates : Obligations.Predicates := ⟨predicateWrite, integerCompare, predicateLogic, predicateMoves, floatCompare⟩

end Sys2Proof.Proofs.Predicates
end

section
/-! What the completion of long-latency instructions and the wakes of granules leave of a state and of a group (R74, R88). -/

namespace Sys2Proof.Proofs.Scheduler

open Sys2Proof Sys2Proof.Machine Sys2Proof.Laws

/-! ### States that differ in groups and cores alone -/

theorem sameOutside_trans {s t u : State} (h : SameOutside s t) (k : SameOutside t u) : SameOutside s u := by
  change { ({ u with groups := t.groups, cores := t.cores } : State) with groups := s.groups, cores := s.cores } = s
  rw [k]
  exact h

theorem sameOutside_setGroup (s : State) (g : Nat) (x : Group) : SameOutside s (s.setGroup g x) := rfl

theorem sameOutside_modGroup (s : State) (g : Nat) (f : Group → Group) : SameOutside s (s.modGroup g f) := by
  unfold State.modGroup
  split <;> rfl

/-! ### Wakes of granules (R74) -/

/-- Two records of a group agree in what runs and in the words and results that it holds. -/
structure SameWork (x y : Group) : Prop where
  sketch : y.sketch = x.sketch
  frontier : y.frontier = x.frontier
  lanes : y.lanes = x.lanes
  win : y.rf.win = x.rf.win
  last : y.rf.lf = x.rf.lf

theorem SameWork.refl (x : Group) : SameWork x x := ⟨rfl, rfl, rfl, rfl, rfl⟩

theorem SameWork.trans {x y z : Group} (h : SameWork x y) (k : SameWork y z) : SameWork x z :=
  ⟨k.sketch.trans h.sketch, k.frontier.trans h.frontier, k.lanes.trans h.lanes, k.win.trans h.win, k.last.trans h.last⟩

/-- From `s` to `t` nothing but groups and cores changes, and group `g` keeps its work. -/
def WakeFrame (g : Nat) (s t : State) : Prop :=
  SameOutside s t ∧ ∀ x, s.group? g = some x → ∃ y, t.group? g = some y ∧ SameWork x y

theorem WakeFrame.refl (g : Nat) (s : State) : WakeFrame g s s := ⟨rfl, fun x hx => ⟨x, hx, .refl x⟩⟩

theorem WakeFrame.trans {g : Nat} {s t u : State} (h : WakeFrame g s t) (k : WakeFrame g t u) : WakeFrame g s u := by
  refine ⟨sameOutside_trans h.1 k.1, fun x hx => ?_⟩
  obtain ⟨y, hy, hxy⟩ := h.2 x hx
  obtain ⟨z, hz, hyz⟩ := k.2 y hy
  exact ⟨z, hz, hxy.trans hyz⟩

theorem WakeFrame.modGroup {f : Group → Group} (hf : ∀ x, SameWork x (f x)) (s : State) (g : Nat) : WakeFrame g s (s.modGroup g f) :=
  ⟨sameOutside_modGroup s g f, fun x hx => ⟨f x, by rw [modGroup_group?_self, hx, Option.map_some], hf x⟩⟩

theorem WakeFrame.count (g : Nat) (s : State) (c k n : Nat) : WakeFrame g s (s.count c k n) := ⟨rfl, fun x hx => ⟨x, hx, .refl x⟩⟩

theorem wakeGranules_frame (s : State) (g : Nat) (gs : List Nat) : WakeFrame g s (s.wakeGranules g gs) := by
  refine foldl_keeps (P := WakeFrame g s) (fun t k h => h.trans ?_) gs s (.refl g s)
  dsimp only
  split
  · exact .refl g t
  next x hx =>
  have touched : WakeFrame g t (if x.st = .active then t else
      t.setGroup g { x with rf := { x.rf with touch := cput 0 x.rf.touch k t.cycle } }) := by
    split
    · exact .refl g t
    · rw [← modGroup_eq t g x (fun x => { x with rf := { x.rf with touch := cput 0 x.rf.touch k t.cycle } }) hx]
      refine .modGroup (fun _ => ?_) t g
      exact ⟨rfl, rfl, rfl, rfl, rfl⟩
  split
  · refine (touched.trans (.modGroup (fun _ => ?_) _ g)).trans (.count g _ _ _ _)
    exact ⟨rfl, rfl, rfl, rfl, rfl⟩
  · exact touched

/-! ### Writes of results (R61, R66) -/

/-- Result writes leave what runs in a group, and its last-result file. -/
theorem foldl_applyWrite_frame (ws : List RWrite) (x : Group) :
    (ws.foldl Group.applyWrite x).sketch = x.sketch ∧ (ws.foldl Group.applyWrite x).frontier = x.frontier ∧
      (ws.foldl Group.applyWrite x).lanes = x.lanes ∧ (ws.foldl Group.applyWrite x).rf.lf = x.rf.lf := by
  refine foldl_keeps (P := fun y : Group => y.sketch = x.sketch ∧ y.frontier = x.frontier ∧ y.lanes = x.lanes ∧ y.rf.lf = x.rf.lf)
    (fun y w h => ?_) ws x ⟨rfl, rfl, rfl, rfl⟩
  cases w <;> exact h

/-- What result writes make of register space depends on it alone. -/
theorem foldl_applyWrite_win (ws : List RWrite) {x y : Group} (h : x.rf.win = y.rf.win) :
    (ws.foldl Group.applyWrite x).rf.win = (ws.foldl Group.applyWrite y).rf.win := by
  induction ws generalizing x y with
  | nil => exact h
  | cons w ws ih =>
    refine ih ?_
    cases w with
    | rs a n v p => exact congrArg (fun t => (writeWords t a n v p).1) h
    | _ => exact h

/-- What a completed instruction leaves of what runs in its group. -/
theorem complete_frame (x : Group) (p : Pend) :
    (x.complete p).sketch = x.sketch ∧ (x.complete p).frontier = x.frontier ∧ (x.complete p).lanes = x.lanes := by
  obtain ⟨sketch, frontier, lanes, -⟩ := foldl_applyWrite_frame p.writes x
  unfold Group.complete
  cases p.lpos <;> exact ⟨sketch, frontier, lanes⟩

/-- What a completed instruction makes of register space and of the last-result file. -/
theorem complete_results (x : Group) (p : Pend) :
    (x.complete p).rf.win = (p.writes.foldl Group.applyWrite x).rf.win ∧
      (∀ k, p.lpos = some k → (x.complete p).rf.lf = x.rf.lf.setEntry k p.lvals) ∧ (p.lpos = none → (x.complete p).rf.lf = x.rf.lf) := by
  obtain ⟨-, -, -, last⟩ := foldl_applyWrite_frame p.writes x
  unfold Group.complete
  cases p.lpos with
  | none => exact ⟨rfl, nofun, fun _ => last⟩
  | some k =>
    refine ⟨rfl, fun j h => ?_, nofun⟩
    cases h
    exact congrArg (fun f => f.setEntry k p.lvals) last

end Sys2Proof.Proofs.Scheduler
end

section
/-! O37: late completion and swaps (R88, R304, R306, R307). -/

namespace Sys2Proof.Proofs.Scheduler

open Sys2Proof Sys2Proof.Machine Sys2Proof.Claims Sys2Proof.Laws

/-! ### Late completion (R88) -/

/-- A sketch that is due ends; nothing else changes. -/
theorem sketchDue_eq {s : State} {g : Nat} {x : Group} (hx : s.group? g = some x) :
    ∃ k, (k = none ∨ k = x.sketch) ∧ s.sketchDue g = s.setGroup g { x with sketch := k } := by
  rw [State.sketchDue, modGroup_eq s g x _ hx]
  split
  · exact ⟨none, .inl rfl, rfl⟩
  · exact ⟨x.sketch, .inr rfl, rfl⟩

/-- The oldest outstanding instruction completes in the group as the wakes of its granules left it; a sketch may end. -/
theorem exec_longLatencyComplete {s : State} {g : Nat} {x : Group} {p : Pend} {r : List Pend} (hx : s.group? g = some x) (hp : x.pend = p :: r) :
    ∃ y k t, SameWork x y ∧ (k = none ∨ k = (y.complete p).sketch) ∧ exec (.longLatencyComplete g) s = .next t ∧ SameOutside s t ∧
      t.group? g = some { y.complete p with pend := r, held := false, sketch := k } := by
  obtain ⟨outside, wakes⟩ := wakeGranules_frame s g p.granules
  obtain ⟨y, hy, hxy⟩ := wakes x hx
  let w : Group := { y.complete p with pend := r, held := false }
  obtain ⟨k, hk, due⟩ := sketchDue_eq (setGroup_group?_self (s.wakeGranules g p.granules) g w)
  refine ⟨y, k, ((s.wakeGranules g p.granules).setGroup g w).sketchDue g, hxy, hk, ?_, ?_, ?_⟩
  · change execLongLatencyComplete g s = _
    simp only [execLongLatencyComplete, hx, hp, modGroup_eq _ g y _ hy, w]
  · exact sameOutside_trans (sameOutside_trans outside (sameOutside_setGroup _ g w)) (sameOutside_modGroup _ g _)
  · rw [due, setGroup_group?_self]

theorem longLatency : LongLatency := by
  intro s g x p r hx hp
  obtain ⟨y, k, t, work, ended, step, outside, ht⟩ := exec_longLatencyComplete hx hp
  obtain ⟨sketch, frontier, lanes⟩ := complete_frame y p
  obtain ⟨win, entry, noEntry⟩ := complete_results y p
  refine ⟨t, _, step, ht, outside, rfl, rfl, ended.imp_right fun h => h.trans (sketch.trans work.sketch), ?_,
    frontier.trans work.frontier, lanes.trans work.lanes, fun k hk => ?_, fun hk => ?_⟩
  · exact win.trans (foldl_applyWrite_win p.writes work.win)
  · rw [(foldl_applyWrite_frame p.writes x).2.2.2, ← work.last]
    exact entry k hk
  · exact (noEntry hk).trans work.last

/-! ### Swaps (R304, R306, R307) -/

/-- Which of two groups is taken follows from their seniorities, but among equals. -/
theorem seniority_le_of_olderThan {s : State} {a b : Nat × Group} :
    (s.olderThan a b = true → a.2.seniority ≤ b.2.seniority) ∧ (s.olderThan a b = false → b.2.seniority ≤ a.2.seniority) := by
  simp only [State.olderThan, Bool.or_eq_true, Bool.or_eq_false_iff, Bool.and_eq_true, decide_eq_true_eq, decide_eq_false_iff_not, beq_iff_eq]
  omega

theorem oldest_eq_none {s : State} {l : List (Nat × Group)} (h : s.oldest l = none) : l = [] := by
  cases l with
  | nil => rfl
  | cons c l =>
    simp only [State.oldest] at h
    split at h
    · cases h
    · split at h <;> cases h

/-- The oldest of a list is in it and no younger than any of it. -/
theorem oldest_some {s : State} {l : List (Nat × Group)} {a : Nat × Group} (h : s.oldest l = some a) :
    a ∈ l ∧ ∀ b ∈ l, a.2.seniority ≤ b.2.seniority := by
  induction l generalizing a with
  | nil => cases h
  | cons c l ih =>
    simp only [State.oldest] at h
    split at h
    · next none =>
      cases h
      rw [oldest_eq_none none]
      simp
    · next b hb =>
      obtain ⟨mem, least⟩ := ih hb
      split at h
      · next older =>
        cases h
        refine ⟨List.mem_cons_of_mem _ mem, List.forall_mem_cons.mpr ⟨seniority_le_of_olderThan.1 older, least⟩⟩
      · next younger =>
        cases h
        have le := seniority_le_of_olderThan.2 (Bool.eq_false_iff.mpr younger)
        refine ⟨List.mem_cons_self, List.forall_mem_cons.mpr ⟨le_rfl, fun d hd => le.trans (least d hd)⟩⟩

/-- The pending groups of a core that a swap may promote. -/
def readyOn (s : State) (core : Nat) : List (Nat × Group) :=
  s.groups.filter (fun p => p.2.core == core && p.2.readyPending && !s.scoreboardHolds p.1 p.2)

theorem mem_readyOn {s : State} {core : Nat} {p : Nat × Group} : p ∈ readyOn s core ↔
    p ∈ s.groups ∧ p.2.core = core ∧ p.2.readyPending = true ∧ s.holders p.2 = [] ∧ s.lockedNext p.1 p.2 = false := by
  simp [readyOn, State.scoreboardHolds, and_assoc]

/-- A group that YIELD has not marked. -/
def unmarked (s : State) (z : Group) : Bool := z.yieldEnd.all (fun t => decide (t ≤ s.cycle))

/-- The group that a swap would promote is the oldest of the ready ones without a mark, or, where all are marked, of all. -/
theorem nextReady_some {s : State} {core : Nat} {p : Nat × Group} (h : s.nextReady core = some p) :
    p ∈ readyOn s core ∧ ∀ q ∈ readyOn s core,
      (unmarked s q.2 = true → unmarked s p.2 = true ∧ p.2.seniority ≤ q.2.seniority) ∧
        (unmarked s p.2 = false → p.2.seniority ≤ q.2.seniority) := by
  have eq : s.nextReady core = match s.oldest ((readyOn s core).filter (fun p => unmarked s p.2)) with
    | some p => some p
    | none => s.oldest (readyOn s core) := rfl
  rw [eq] at h
  split at h
  · next q hq =>
    cases h
    obtain ⟨mem, least⟩ := oldest_some hq
    obtain ⟨mem, free⟩ := List.mem_filter.mp mem
    refine ⟨mem, fun r hr => ⟨fun hu => ⟨free, least r (List.mem_filter.mpr ⟨hr, hu⟩)⟩, fun hm => ?_⟩⟩
    rw [hm] at free
    cases free
  · next none =>
    obtain ⟨mem, least⟩ := oldest_some h
    refine ⟨mem, fun r hr => ⟨fun hu => ?_, fun _ => least r hr⟩⟩
    have all := List.filter_eq_nil_iff.mp (oldest_eq_none none) r hr
    exact absurd hu all

theorem unmarked_iff (s : State) (z : Group) : unmarked s z = true ↔ ¬∃ t, z.yieldEnd = some t ∧ s.cycle < t := by
  unfold unmarked
  cases z.yieldEnd <;> simp

/-- The group that gives up its place is active and of the core. -/
theorem youngestWait_mem {s : State} {core : Nat} {p : Nat × Group} (h : s.youngestWait core = some p) : p ∈ s.activeOn core := by
  refine List.foldlRecOn (motive := fun b => ∀ q, b = some q → q ∈ s.activeOn core) (s.activeOn core) _ (by simp) (fun b hb q hq r hr => ?_) p h
  have mem (r : Nat × Group) (h : some q = some r) : r ∈ s.activeOn core := Option.some.inj h ▸ hq
  split at hr
  · split at hr
    · exact mem r hr
    · split at hr
      · exact mem r hr
      · exact hb r hr
  · exact hb r hr

theorem swaps : Swaps := by
  intro s core ready marked promoted
  refine ⟨fun h y next => ?_, fun none room => ?_, fun h y next room => ?_, fun g x h y full wait hx hc next => ?_⟩
  · obtain ⟨mem, least⟩ := nextReady_some next
    obtain ⟨inGroups, isReady⟩ := mem_readyOn.mp mem
    refine ⟨inGroups, isReady, fun k z hz hr => ?_⟩
    obtain ⟨free, held⟩ := least (k, z) (mem_readyOn.mpr ⟨hz, hr⟩)
    refine ⟨fun hm => ?_, fun hm => held ?_⟩
    · obtain ⟨hy, le⟩ := free ((unmarked_iff s z).mpr hm)
      exact ⟨(unmarked_iff s y).mp hy, le⟩
    · exact Bool.eq_false_iff.mpr fun hu => (unmarked_iff s y).mp hu hm
  · change execGroupSwap core s = _
    simp only [execGroupSwap, room, if_true, none]
  · change execGroupSwap core s = _
    simp only [execGroupSwap, room, if_true, next]
    rfl
  · have active : x.st = .active := by
      have chosen := (List.mem_filter.mp (youngestWait_mem wait)).2
      simp only [Bool.and_eq_true, beq_iff_eq] at chosen
      exact chosen.2
    change execGroupSwap core s = _
    simp only [execGroupSwap, if_neg (not_lt.mpr full), wait, State.swapOut, hx, active, if_true, hc, next]
    rfl

end Sys2Proof.Proofs.Scheduler
end

section
/-! The end of a merge window (R341): what the grants make of memory and scratchpads, and what they leave to be written back. -/

namespace Sys2Proof.Proofs.Scheduler

open Sys2Proof Sys2Proof.Machine Sys2Proof.Laws

/-! ### What evictions leave (R345, R348) -/

/-- From `s` to `t` the time, the teams, the etches and the requests for tokens stay, and only write-backs that no release asks for join the
pending writes. -/
structure EvictFrame (s t : State) : Prop where
  cycle : t.cycle = s.cycle
  teams : t.teams = s.teams
  etches : t.etches = s.etches
  tokReqs : t.tokReqs = s.tokReqs
  queue : ∀ r ∈ t.mergeQ, r ∈ s.mergeQ ∨ r.agent = evictAgent

namespace EvictFrame

theorem refl (s : State) : EvictFrame s s := ⟨rfl, rfl, rfl, rfl, fun _ h => .inl h⟩

theorem trans {s t u : State} (h : EvictFrame s t) (k : EvictFrame t u) : EvictFrame s u :=
  ⟨k.cycle.trans h.cycle, k.teams.trans h.teams, k.etches.trans h.etches, k.tokReqs.trans h.tokReqs,
    fun r hr => (k.queue r hr).elim (h.queue r) .inr⟩

theorem foldl {α : Type} {f : State → α → State} (hf : ∀ s a, EvictFrame s (f s a)) (l : List α) (s : State) : EvictFrame s (l.foldl f s) :=
  foldl_keeps (P := EvictFrame s) (fun _ a h => h.trans (hf _ a)) l s (refl s)

end EvictFrame

theorem modLine_evict (s : State) (ln : Nat) (f : LineSt → LineSt) : EvictFrame s (s.modLine ln f) := ⟨rfl, rfl, rfl, rfl, fun _ h => .inl h⟩

theorem hbmTouch_evict (s : State) (pa n : Nat) (w : Bool) : EvictFrame s (s.hbmTouch pa n w) := by
  unfold State.hbmTouch
  split
  · exact .refl s
  · exact ⟨rfl, rfl, rfl, rfl, fun _ h => .inl h⟩

theorem postReq_evict (s : State) {r : MergeReq} (hr : r.agent = evictAgent) : EvictFrame s (s.postReq r) := by
  have queued (q : MergeReq) (hq : q.agent = r.agent) (z : MergeReq) (hz : z ∈ s.mergeQ ++ [q]) : z ∈ s.mergeQ ∨ z.agent = evictAgent :=
    (List.mem_append.mp hz).imp_right fun h => (List.mem_singleton.mp h ▸ hq).trans hr
  have sent (m : Nat) : (s.fabSend m).cycle = s.cycle ∧ (s.fabSend m).teams = s.teams ∧ (s.fabSend m).etches = s.etches ∧
      (s.fabSend m).tokReqs = s.tokReqs := by
    unfold State.fabSend
    split <;> exact ⟨rfl, rfl, rfl, rfl⟩
  unfold State.postReq
  dsimp only
  split
  · obtain ⟨hc, ht, he, hk⟩ := sent (r.pa >>> 43)
    refine ⟨hc, ht, he, hk, ?_⟩
    exact queued _ rfl
  · refine ⟨rfl, rfl, rfl, rfl, ?_⟩
    exact queued _ rfl

theorem writeOut_evict (s : State) (die ln : Nat) : EvictFrame s (s.writeOut evictAgent die ln) := by
  unfold State.writeOut
  split
  · exact .refl s
  · exact (EvictFrame.foldl (fun s r => postReq_evict s rfl) _ s).trans (modLine_evict _ _ _)

theorem dirtyOut_evict (s : State) (ln : Nat) : EvictFrame s (s.dirtyOut ln) := by
  unfold State.dirtyOut
  split
  · exact hbmTouch_evict _ _ _ _
  · exact .refl s

theorem evictL2_evict (s : State) (die ln : Nat) : EvictFrame s (s.evictL2 die ln) := by
  unfold State.evictL2
  dsimp only
  refine ((writeOut_evict s die ln).trans ?_).trans (modLine_evict _ _ _)
  split
  · exact dirtyOut_evict _ ln
  · exact .refl _

theorem victim_evict (s : State) (ls : List (Nat × LineSt)) (die : Nat) : EvictFrame s (s.victim ls die).2 := by
  unfold State.victim
  split
  · exact .refl s
  · exact ⟨rfl, rfl, rfl, rfl, fun _ h => .inl h⟩

theorem makeRoom_evict (s : State) (core ln : Nat) : EvictFrame s (s.makeRoom core ln) := by
  have trimL2 (u : State) : EvictFrame u (if (u.l2Lines (dieOf core)).length ≤ 524288 then u else
      (u.victim ((u.l2Lines (dieOf core)).filter (fun p => p.1 != ln)) (dieOf core)).2.evictL2 (dieOf core)
        (u.victim ((u.l2Lines (dieOf core)).filter (fun p => p.1 != ln)) (dieOf core)).1) := by
    split
    · exact .refl u
    · exact (victim_evict _ _ _).trans (evictL2_evict _ _ _)
  unfold State.makeRoom
  dsimp only
  refine EvictFrame.trans ?_ (trimL2 _)
  split
  · exact .refl s
  · exact (victim_evict _ _ _).trans (modLine_evict _ _ _)

theorem gatherLine_evict (s : State) (r : MergeReq) (ln : Nat) : EvictFrame s (s.gatherLine r ln) := by
  unfold State.gatherLine
  split
  · exact (modLine_evict s ln _).trans (makeRoom_evict _ _ _)
  · exact (dirtyOut_evict s ln).trans (modLine_evict _ _ _)

/-! ### Grants (R334, R339, R341) -/

/-- Two states hold the same bytes of device memory and the same teams, with their scratchpads. -/
def SameData (s t : State) : Prop := t.mem = s.mem ∧ t.teams = s.teams

/-- What the bytes of a request make of memory and scratchpads depends on those alone. -/
theorem SameData.applyReq {s t : State} (h : SameData s t) (r : MergeReq) : SameData (s.applyReq r) (t.applyReq r) := by
  obtain ⟨hm, ht⟩ := h
  unfold State.applyReq
  split
  · next k _ =>
    have team : t.team? k = s.team? k := congrArg (fun ts => tget? ts k) ht
    unfold State.modTeam
    rw [team]
    split
    · exact ⟨hm, congrArg (fun ts => tput ts k _) ht⟩
    · exact ⟨hm, ht⟩
  · have written {u v : State} (h : SameData u v) : SameData (u.memPut r.pa r.bytes r.pois) (v.memPut r.pa r.bytes r.pois) :=
      ⟨congrArg (fun m => cputs 0 m r.pa r.bytes) h.1, h.2⟩
    split
    · exact written ⟨hm, ht⟩
    · refine written ⟨?_, ?_⟩
      · rw [hbmTouch_mem, hbmTouch_mem, hm]
      · rw [(hbmTouch_evict t _ _ _).teams, (hbmTouch_evict s _ _ _).teams, ht]

theorem SameData.foldl_applyReq (q : List MergeReq) {s t : State} (h : SameData s t) :
    SameData (q.foldl State.applyReq s) (q.foldl State.applyReq t) := by
  induction q generalizing s t with
  | nil => exact h
  | cons r q ih => exact ih (h.applyReq r)

theorem applyReq_kept (s : State) (r : MergeReq) : (s.applyReq r).cycle = s.cycle ∧ (s.applyReq r).etches = s.etches ∧
    (s.applyReq r).tokReqs = s.tokReqs ∧ (s.applyReq r).mergeQ = s.mergeQ := by
  unfold State.applyReq
  split
  · simp
  · split
    · exact ⟨rfl, rfl, rfl, rfl⟩
    · unfold State.memWrite State.hbmTouch
      split <;> exact ⟨rfl, rfl, rfl, rfl⟩

/-- What the caches do for a request before its bytes reach their place. -/
theorem grantReq_eq (s : State) (r : MergeReq) : ∃ u, s.grantReq r = u.applyReq r ∧ EvictFrame s u ∧ u.mem = s.mem := by
  have noted : EvictFrame s (if r.scr.isSome || r.tokens then s.noteWrite r.scr r.pa r.bytes.length (dieOfWho r.who) else s) ∧
      SameMem s (if r.scr.isSome || r.tokens then s.noteWrite r.scr r.pa r.bytes.length (dieOfWho r.who) else s) := by
    split
    · exact ⟨⟨rfl, rfl, rfl, rfl, fun _ h => .inl h⟩, rfl, rfl⟩
    · exact ⟨.refl s, .refl s⟩
  have gathered (u : State) : EvictFrame u (if r.scr.isSome || !r.tokens then u
        else (linesOf r.pa r.bytes.length).foldl (fun (s : State) ln => s.gatherLine r ln) u) ∧
      SameMem u (if r.scr.isSome || !r.tokens then u
        else (linesOf r.pa r.bytes.length).foldl (fun (s : State) ln => s.gatherLine r ln) u) := by
    split
    · exact ⟨.refl u, .refl u⟩
    · exact ⟨.foldl (fun s ln => gatherLine_evict s r ln) _ u, .foldl (fun s ln => gatherLine_same s r ln) _ u⟩
  exact ⟨_, rfl, noted.1.trans (gathered _).1, (noted.2.trans (gathered _).2).1⟩

/-- A grant has the effect of its bytes, and adds to the pending writes only what it evicts. -/
theorem grantReq_frame (s : State) (r : MergeReq) : SameData (s.applyReq r) (s.grantReq r) ∧ (s.grantReq r).cycle = s.cycle ∧
    (s.grantReq r).etches = s.etches ∧ (s.grantReq r).tokReqs = s.tokReqs ∧
    ∀ z ∈ (s.grantReq r).mergeQ, z ∈ s.mergeQ ∨ z.agent = evictAgent := by
  obtain ⟨u, eq, frame, mem⟩ := grantReq_eq s r
  obtain ⟨cycle, etches, tokReqs, queue⟩ := applyReq_kept u r
  rw [eq, cycle, etches, tokReqs, queue]
  exact ⟨SameData.applyReq ⟨mem, frame.teams⟩ r, frame.cycle, frame.etches, frame.tokReqs, frame.queue⟩

/-- Nothing refuses a request that is due while no line is promised and no page is to be copied. -/
theorem refused_eq_false {s : State} (htok : s.tokReqs = []) (hetch : s.etches = []) {r : MergeReq} (hr : r.due ≤ s.cycle) :
    s.refused r = false := by
  simp [State.refused, State.uncaptured, State.promised, State.activeReq, htok, hetch, hr]

/-- Then every request of a queue is granted. -/
theorem grantIn_all (q : List MergeReq) {s : State} (htok : s.tokReqs = []) (hetch : s.etches = []) (hq : ∀ r ∈ q, r.due ≤ s.cycle) :
    let t := s.grantIn (fun _ => true) q
    t.2 = [] ∧ SameData (q.foldl State.applyReq s) t.1 ∧ t.1.cycle = s.cycle ∧ ∀ z ∈ t.1.mergeQ, z ∈ s.mergeQ ∨ z.agent = evictAgent := by
  induction q generalizing s with
  | nil => exact ⟨rfl, ⟨rfl, rfl⟩, rfl, fun _ h => .inl h⟩
  | cons r q ih =>
    let u : State := { s with served := s.served ++ [(pointOf r.scr r.pa, r.bytes.length, r.who)] }
    obtain ⟨data, cycle, etches, tokReqs, queue⟩ := grantReq_frame u r
    have step : s.grantIn (fun _ => true) (r :: q) = (u.grantReq r).grantIn (fun _ => true) q := by
      simp only [State.grantIn, List.foldl_cons, refused_eq_false htok hetch (hq r List.mem_cons_self)]
      rfl
    obtain ⟨none, datas, now, queues⟩ := ih (s := u.grantReq r) (tokReqs.trans htok) (etches.trans hetch)
      (fun z hz => cycle.symm ▸ hq z (List.mem_cons_of_mem _ hz))
    simp only [step]
    refine ⟨none, ?_, now.trans cycle, fun z hz => (queues z hz).elim (queue z) .inr⟩
    have first : SameData (s.applyReq r) (u.grantReq r) := by
      have same : SameData (s.applyReq r) (u.applyReq r) := by
        refine SameData.applyReq ?_ r
        exact ⟨rfl, rfl⟩
      exact ⟨data.1.trans same.1, data.2.trans same.2⟩
    have rest := first.foldl_applyReq q
    exact ⟨datas.1.trans rest.1, datas.2.trans rest.2⟩

/-- The order of the grants is one of the pending requests. -/
theorem mem_of_mem_grantOrder {q : List MergeReq} {r : MergeReq} (h : r ∈ grantOrder q) : r ∈ q := by
  have insert (z : MergeReq) (l : List MergeReq) : ∀ y ∈ insReq z l, y = z ∨ y ∈ l := by
    induction l with
    | nil => simp [insReq]
    | cons x l ih =>
      intro y hy
      simp only [insReq] at hy
      split at hy
      · simpa using hy
      · rcases List.mem_cons.mp hy with rfl | hy
        · simp
        · exact (ih y hy).imp_right (List.mem_cons_of_mem _)
  refine List.foldlRecOn (motive := fun acc => ∀ z ∈ acc, z ∈ q) q (fun acc r => insReq r acc) (by simp) (fun acc ha x hx z hz => ?_) r h
  rcases insert x acc z hz with rfl | hz
  · exact hx
  · exact ha z hz

/-- At the end of a window every pending request is granted that nothing refuses. -/
theorem closeWindow_all {s : State} (htok : s.tokReqs = []) (hetch : s.etches = []) (hq : ∀ r ∈ s.mergeQ, r.due ≤ s.cycle) :
    SameData s.grantAll s.closeWindow ∧ s.closeWindow.cycle = s.cycle ∧ ∀ r ∈ s.closeWindow.mergeQ, r.agent = evictAgent := by
  let u : State := { s with mergeQ := [] }
  obtain ⟨stay, data, cycle, queue⟩ := grantIn_all (s := u) (grantOrder s.mergeQ) htok hetch (fun r hr => hq r (mem_of_mem_grantOrder hr))
  unfold State.closeWindow State.grantWhere
  split
  · next none => simp [State.grantAll, none, grantOrder, SameData]
  · refine ⟨data, cycle, fun r hr => ?_⟩
    have left : r ∈ (u.grantIn (fun _ => true) (grantOrder s.mergeQ)).2 ++ (u.grantIn (fun _ => true) (grantOrder s.mergeQ)).1.mergeQ := hr
    rw [stay, List.nil_append] at left
    exact (queue r left).resolve_left List.not_mem_nil

/-- At its end the merge window under way closes, and no other. -/
theorem closeUpTo_windowEnd {s : State} (htok : s.tokReqs = []) (hetch : s.etches = []) (hq : ∀ r ∈ s.mergeQ, r.due ≤ s.windowEnd) :
    SameData s.grantAll (s.closeUpTo s.windowEnd) ∧ (s.closeUpTo s.windowEnd).cycle = s.windowEnd ∧
      (s.closeUpTo s.windowEnd).served = [] ∧ ∀ r ∈ (s.closeUpTo s.windowEnd).mergeQ, r.agent = evictAgent := by
  let u : State := { s with cycle := s.windowEnd }
  obtain ⟨data, now, queue⟩ := closeWindow_all (s := u) htok hetch hq
  have next (t : State) (h : t.cycle = s.windowEnd) : s.windowEnd < t.windowEnd := by
    rw [← h, State.windowEnd]
    omega
  have closed : s.closeUpTo s.windowEnd = { u.closeWindow.unholdAll with cycle := s.windowEnd } :=
    (if_neg (lt_irrefl _)).trans (congrArg (fun t : State => { t with cycle := s.windowEnd }) (if_pos (next u.closeWindow.unholdAll now)))
  have start : SameData s.grantAll u.grantAll := by
    refine SameData.foldl_applyReq (grantOrder s.mergeQ) ?_
    exact ⟨rfl, rfl⟩
  rw [closed]
  exact ⟨⟨data.1.trans start.1, data.2.trans start.2⟩, rfl, rfl, queue⟩

/-- What passes with cycles before a merge window closes is not about the pending writes. -/
theorem passCycles_eq (s : State) (n : Nat) : ∃ p : State, s.passCycles n = p.closeUpTo (s.cycle + n) ∧
    SameData s p ∧ p.cycle = s.cycle ∧ p.mergeQ = s.mergeQ ∧ p.tokReqs = s.tokReqs ∧ p.etches = s.etches :=
  ⟨_, rfl, ⟨rfl, rfl⟩, rfl, rfl, rfl, rfl⟩

/-- When the merge window under way runs to its end, its requests are granted. -/
theorem passCycles_windowEnd {s : State} (htok : s.tokReqs = []) (hetch : s.etches = []) (hq : ∀ r ∈ s.mergeQ, r.due ≤ s.windowEnd) :
    let t := s.passCycles (s.windowEnd - s.cycle)
    SameData s.grantAll t ∧ t.cycle = s.windowEnd ∧ t.served = [] ∧ ∀ r ∈ t.mergeQ, r.agent = evictAgent := by
  have ahead : s.cycle ≤ s.windowEnd := by unfold State.windowEnd; omega
  obtain ⟨p, passed, data, now, queue, tok, etch⟩ := passCycles_eq s (s.windowEnd - s.cycle)
  rw [Nat.add_sub_cancel' ahead] at passed
  have windowEnd : p.windowEnd = s.windowEnd := by rw [State.windowEnd, now]; rfl
  have start : SameData s.grantAll p.grantAll := by
    unfold State.grantAll
    rw [queue]
    refine SameData.foldl_applyReq (grantOrder s.mergeQ) ?_
    exact data
  have closed := closeUpTo_windowEnd (tok.trans htok) (etch.trans hetch) (by rw [queue, windowEnd]; exact hq)
  rw [windowEnd] at closed
  obtain ⟨closing, cycle, served, left⟩ := closed
  simp only [passed]
  exact ⟨⟨closing.1.trans start.1, closing.2.trans start.2⟩, cycle, served, left⟩

end Sys2Proof.Proofs.Scheduler
end

section
/-! O37: parking, granules, and the clauses of the scheduler together (R74, R318, R341). -/

namespace Sys2Proof.Proofs.Scheduler

open Sys2Proof Sys2Proof.Machine Sys2Proof.Claims Sys2Proof.Laws

/-! ### A record written twice -/

theorem cdel_cins {α : Type} (k : Nat) (v : α) (t : List (Nat × α)) : cdel (cins k v t) k = cdel t k := by
  induction t with
  | nil => simp [cins, cdel]
  | cons p r ih =>
    obtain ⟨j, w⟩ := p
    rw [cins]
    split
    · simp [cdel]
    · unfold cdel at ih ⊢
      rw [List.filter_cons, List.filter_cons, ih]

theorem tput_tput {α : Type} (t : List (Nat × α)) (k : Nat) (v w : α) : tput (tput t k v) k w = tput t k w := by
  have twice : cdel (cdel t k) k = cdel t k := by simp [cdel]
  rw [tput, tput, cdel_cins, twice, tput]

theorem setGroup_setGroup (s : State) (g : Nat) (x y : Group) : (s.setGroup g x).setGroup g y = s.setGroup g y :=
  congrArg (fun t => { s with groups := t }) (tput_tput s.groups g x y)

/-! ### Parking (R318) -/

theorem groupPark_frame {s : State} {g : Nat} {x : Group} (hx : s.group? g = some x) (h : x.st = .parked ∨ x.st = .frozen) :
    exec (.groupPark g) s = .next (s.placeFrame g) := by
  change execGroupPark g s = _
  simp only [execGroupPark, hx, if_pos h]

theorem groupPark_absent {s : State} {g : Nat} {x : Group} {e : Ent} {ks : List FaultKey} (hx : s.group? g = some x) (hact : x.st = .active)
    (he : x.chosen = some e) (hiss : x.issuable = true) (hrun : s.mayRun x = true) (hbusy : s.unitBusy g x = false)
    (hpush : s.pushesPend x = false) (hpc : e.pc.toNat < s.codeEnd x) (hf : s.fetchPlace x e = .error (.park ks)) :
    exec (.groupPark g) s = .next ((s.parkOn g x ks).capAppend g 8 e.pc.toNat e.mask []) := by
  have running : ¬(x.st = .parked ∨ x.st = .frozen) := by simp [hact]
  have quiet (t : State) : s.unlessPushing g x t = t := by simp [State.unlessPushing, hpush]
  change execGroupPark g s = _
  simp only [execGroupPark, hx, if_neg running, he, hiss, hrun, hpc, decide_true, Bool.and_self, if_true, hf, quiet, unlessBusy_quiet hbusy]

theorem complete_core (x : Group) (p : Pend) : (x.complete p).core = x.core := by
  have writes : (p.writes.foldl Group.applyWrite x).core = x.core :=
    foldl_keeps (P := fun y : Group => y.core = x.core) (fun y w h => by cases w <;> exact h) p.writes x rfl
  unfold Group.complete
  cases p.lpos <;> exact writes

theorem completeAll_frame (x : Group) : x.completeAll.core = x.core ∧ x.completeAll.frontier = x.frontier :=
  foldl_keeps (P := fun y : Group => y.core = x.core ∧ y.frontier = x.frontier)
    (fun y p h => ⟨(complete_core y p).trans h.1, (complete_frame y p).2.1.trans h.2⟩) x.pend x ⟨rfl, rfl⟩

/-- A group's matrix operations leave the core's queue; of its record only the list of those operations changes. -/
theorem stashMatrix_spec {s : State} {g core : Nat} {x : Group} (hx : s.group? g = some x) :
    (∃ ms, (s.stashMatrix g core).group? g = some { x with mats := ms }) ∧ ∀ o ∈ ((s.stashMatrix g core).core core).mq, o.g ≠ g := by
  unfold State.stashMatrix
  dsimp only
  split
  next none =>
    refine ⟨⟨x.mats, hx⟩, fun o ho same => ?_⟩
    have listed : o ∈ (s.core core).mq.filter (fun o => o.g == g) := List.mem_filter.2 ⟨ho, by simp [same]⟩
    rw [List.isEmpty_iff.1 none] at listed
    exact absurd listed List.not_mem_nil
  next =>
    refine ⟨⟨_, (modGroup_group?_self _ g _).trans (congrArg (Option.map _) hx)⟩, fun o ho => ?_⟩
    rw [State.core, modGroup_cores, ← State.core, modCore_core_self] at ho
    simpa using (List.mem_filter.1 ho).2

/-- What parking makes of the record of a group whose outstanding instructions are complete, at cycle `now`. -/
def parkedRecord (x : Group) (now : Nat) (keys : List ParkKey) : Group :=
  { x with
    st := .parked, slot := none, sketch := none, parkKeys := keys, restFrom := if x.st = .active then now else x.restFrom,
    ports := x.ports.map (fun p => (p.1, p.2.map (fun q => { q with ahead := [] }))) }

theorem parkGroup_eq {s : State} {g : Nat} {x : Group} (hx : s.group? g = some x) (keys : List ParkKey) :
    ∃ u : State, s.parkGroup g keys =
      ((u.setGroup g (parkedRecord x.completeAll u.cycle keys)).stashMatrix g x.completeAll.core).placeFrame g := by
  refine ⟨(s.grantUpTo (whoCore x.core)).countLate x, ?_⟩
  unfold State.parkGroup
  rw [hx]
  rfl

theorem parkGroup_spec {s : State} {g : Nat} {x : Group} (hx : s.group? g = some x) (keys : List ParkKey) :
    ∃ (t : State) (y : Group), s.parkGroup g keys = t.placeFrame g ∧ t.group? g = some y ∧ y.st = .parked ∧ y.slot = none ∧
      y.sketch = none ∧ y.parkKeys = keys ∧ y.pend = [] ∧ y.frontier = x.frontier ∧ ∀ o ∈ (t.core x.core).mq, o.g ≠ g := by
  obtain ⟨core, frontier⟩ := completeAll_frame x
  obtain ⟨u, parks⟩ := parkGroup_eq hx keys
  rw [core] at parks
  obtain ⟨⟨ms, held⟩, gone⟩ := stashMatrix_spec (core := x.core) (setGroup_group?_self u g (parkedRecord x.completeAll u.cycle keys))
  exact ⟨_, _, parks, held, rfl, rfl, rfl, rfl, rfl, frontier, gone⟩

/-! ### Granules (R74) -/

theorem granuleDrowsy_idle {s : State} {g : Nat} {x : Group} {k : Nat} (hx : s.group? g = some x) (hk : x.hasGranule k = true)
    (hst : x.st = .pending ∨ x.st = .parked) (hrest : x.restFrom + 256 ≤ s.cycle) (htouch : cget 0 x.rf.touch k + 256 ≤ s.cycle)
    (hgran : cget GranSt.awake x.rf.gran k = .awake) :
    exec (.granuleDrowsy g k) s = .next (s.setGroup g { x with rf := { x.rf with gran := cput .awake x.rf.gran k .drowsy } }) := by
  have idle : s.granuleIdle x k = true := by
    rw [State.granuleIdle, Bool.and_eq_true, decide_eq_true_iff]
    exact ⟨by simpa using hst, by omega⟩
  change execGranuleDrowsy g k s = _
  rw [execGranuleDrowsy, modGroup_eq s g x _ hx]
  simp [hk, idle, hgran]

theorem drowsyWake_drowsy {s : State} {g : Nat} {x : Group} {k : Nat} (hx : s.group? g = some x) (hgran : cget GranSt.awake x.rf.gran k = .drowsy) :
    exec (.drowsyWake g k) s = .next ((s.setGroup g { x with rf := { x.rf with
      gran := cput .awake x.rf.gran k .awake, touch := if x.st = .active then x.rf.touch else cput 0 x.rf.touch k s.cycle } }).count
        x.core 7 1) := by
  change execDrowsyWake g k s = _
  simp only [execDrowsyWake, State.wakeGranules, List.foldl_cons, List.foldl_nil, hx, hgran, if_true]
  split
  next active => rw [modGroup_eq s g x _ hx]
  next => rw [modGroup_eq _ g _ _ (setGroup_group?_self s g _), setGroup_setGroup]

/-! ### The end of a merge window (R341) -/

theorem mergeWindowGrant_spec {s : State} (htok : s.tokReqs = []) (hetch : s.etches = []) (hq : ∀ r ∈ s.mergeQ, r.due ≤ (s.cycle / 64 + 1) * 64) :
    ∃ t, exec .mergeWindowGrant s = .next t ∧ t.cycle = (s.cycle / 64 + 1) * 64 ∧ (∀ r ∈ t.mergeQ, r.agent = evictAgent) ∧ t.served = [] ∧
      (∀ pa n, t.memBytes pa n = s.grantAll.memBytes pa n) ∧
      ∀ k, (t.team? k).map (fun q => q.scr) = (s.grantAll.team? k).map (fun q => q.scr) := by
  obtain ⟨⟨mem, teams⟩, cycle, served, left⟩ := passCycles_windowEnd htok hetch hq
  refine ⟨_, rfl, cycle, left, served, fun pa n => ?_, fun k => ?_⟩
  · rw [State.memBytes, mem, State.memBytes]
  · rw [State.team?, teams, State.team?]

theorem parkingAndGranules : ParkingAndGranules := fun _ _ _ hx =>
  ⟨groupPark_frame hx, fun _ _ => groupPark_absent hx, parkGroup_spec hx, fun _ => granuleDrowsy_idle hx, fun _ => drowsyWake_drowsy hx,
    mergeWindowGrant_spec⟩

/-- Settles O37: late completion, swaps, and parking with granules and merge windows, each by the equations of its events. -/
theorem scheduler : Obligations.Scheduler := ⟨longLatency, swaps, parkingAndGranules⟩

end Sys2Proof.Proofs.Scheduler
end

section
/-! O56: no step of the machine stops (R89, R165). An instruction word has no meaning only for a group that has no entry to issue from, and
issue picks a group that has one; the steps of the hardware and the host, and the commands of the ring, always answer a next state. -/

namespace Sys2Proof.Proofs.Runs

open Sys2Proof Sys2Proof.Machine Sys2Proof.Laws Sys2Proof.Proofs.Issue

/-! ### Outcomes that are a next state -/

/-- An outcome is a next state. -/
def Goes (o : Host.Outcome State Fault Refusal) : Prop := ∃ t, o = .next t

theorem goes_next (t : State) : Goes (.next t) := ⟨t, rfl⟩

theorem goes_thenNote {o : Host.Outcome State Fault Refusal} (h : Goes o) (f : State → State) : Goes (thenNote o f) := by
  obtain ⟨t, rfl⟩ := h
  exact goes_next (f t)

/-- The current group has a chosen entry. -/
def HasEntry (s : State) : Prop := ∃ x e, s.group? s.cur = some x ∧ x.chosen = some e

/-- An instruction in hand always issues, is held, or leaves the state as it is. -/
theorem runInstr_goes {s : State} (h : HasEntry s) (priv : Bool) (uses : State → Iss → List Use) (moved : Bool) (e : Enc)
    (body : State → Iss → Except Stop State) : Goes (runInstr priv uses moved e s body) := by
  obtain ⟨x, ent, hx, he⟩ := h
  simp only [runInstr, State.iss?, hx, he]
  split
  · split <;> exact goes_next _
  · exact goes_next _

/-- A step of the hardware or the host, or a command, answers a next state in every state. -/
theorem exec_goes_of_noWord {i : Instr} (h : i.parts = none) (s : State) : Goes (exec i s) := by
  cases i <;> cases h
  all_goals exact ⟨_, rfl⟩

theorem exec_goes {s : State} (h : HasEntry s) (i : Instr) : Goes (exec i s) := by
  cases hp : i.parts with
  | none => exact exec_goes_of_noWord hp s
  | some p =>
    obtain ⟨yld, -, uses, moved, body, hexec⟩ := issues_of_parts hp
    rw [hexec]
    exact runInstr_goes h _ _ _ _ _

/-! ### A fetch leaves the groups as they are (R80, R358, R360) -/

/-- From `s` to `t` the same group is current and every group stays as it is. -/
def SameTurn (s t : State) : Prop := t.cur = s.cur ∧ t.groups = s.groups

namespace SameTurn

theorem refl (s : State) : SameTurn s s := ⟨rfl, rfl⟩

theorem trans {s t u : State} (h : SameTurn s t) (k : SameTurn t u) : SameTurn s u := ⟨k.1.trans h.1, k.2.trans h.2⟩

theorem hasEntry {s t : State} (h : SameTurn s t) (hs : HasEntry s) : HasEntry t := by
  obtain ⟨x, e, hx, he⟩ := hs
  exact ⟨x, e, by rw [State.group?, h.1, h.2]; exact hx, he⟩

end SameTurn

theorem fabSend_sameTurn (s : State) (m : Nat) : SameTurn s (s.fabSend m) := by
  unfold State.fabSend; split <;> exact ⟨rfl, rfl⟩

theorem hbmTouch_sameTurn (s : State) (pa n : Nat) (w : Bool) : SameTurn s (s.hbmTouch pa n w) := by
  unfold State.hbmTouch; split <;> exact ⟨rfl, rfl⟩

theorem wcFill_sameTurn (s : State) (die : Nat) (d : CtxDesc) (va level : Nat) : SameTurn s (s.wcFill die d va level) := by
  refine foldl_keeps (P := fun acc : State × Nat => SameTurn s acc.1) (fun acc level h => h.trans ?_) _ (s, d.ptroot) (.refl s)
  dsimp only
  split <;> exact ⟨rfl, rfl⟩

/-- A translation for a fetch sets no bit of its leaf, so no write wakes a waiting group. -/
theorem useLeaf_fetch_sameTurn (s : State) (core : Nat) (d : CtxDesc) (va pte level addr : Nat) :
    SameTurn s (s.useLeaf core d .fetch va pte level addr) := by
  have sent := fabSend_sameTurn s (leafPa pte level va >>> 43)
  unfold State.useLeaf
  dsimp only
  split
  · exact sent
  · refine SameTurn.trans ?_ (wcFill_sameTurn _ _ _ _ _)
    exact (sent.trans (hbmTouch_sameTurn _ _ _ _)).trans ⟨rfl, rfl⟩

theorem fillCode_sameTurn (s : State) (x : Group) (pc : Nat) (segs : List Seg) : SameTurn s (s.fillCode x pc segs) := by
  unfold State.fillCode; split <;> exact ⟨rfl, rfl⟩

theorem fetched_sameTurn (s : State) (x : Group) (pc : Nat) (segs : List Seg) : SameTurn s (s.fetched x pc segs) :=
  foldl_keeps (P := SameTurn s) (fun _ _ h => h.trans (useLeaf_fetch_sameTurn _ _ _ _ _ _ _)) segs _ (fillCode_sameTurn s x pc segs)

/-! ### Groups and sketches issue (R79, R80, R312 to R316) -/

theorem fetchAndRun_goes {s : State} (h : HasEntry s) (g : Nat) (x : Group) (e : Ent) : Goes (s.fetchAndRun g x e) := by
  unfold State.fetchAndRun
  split
  · exact exec_goes h _
  split
  · exact exec_goes h _
  · exact goes_next _
  split
  · exact exec_goes ((fetched_sameTurn s x _ _).hasEntry h) _
  · exact exec_goes ((fetched_sameTurn s x _ _).hasEntry h) _
  · exact goes_next _

theorem issueHere_goes {s : State} {g : Nat} {x : Group} (hx : s.group? g = some x) : Goes (s.issueHere g x) := by
  unfold State.issueHere
  split
  · exact exec_goes_of_noWord rfl s
  split
  · exact goes_next s
  split
  next e he _ =>
    have turn : HasEntry { s with cur := g } := ⟨x, e, hx, he⟩
    exact goes_thenNote (fetchAndRun_goes turn g x e) _
  · exact goes_next s

theorem issueNow_goes (s : State) (g : Nat) : Goes (s.issueNow g) := by
  unfold State.issueNow
  split
  · exact goes_next s
  dsimp only
  split
  · exact goes_next _
  next hy => exact issueHere_goes hy

/-- The instruction that a sketch runs is one at its chosen entry. -/
theorem sketchNext_hasEntry {s t : State} {g : Nat} {x : Group} {k : Sketch} {i : Instr} (h : s.sketchNext g x k = some (t, i)) :
    HasEntry t := by
  obtain ⟨j, hj, ht⟩ := Option.bind_eq_some_iff.1 h
  split at ht
  · obtain ⟨rfl, -⟩ := Prod.mk.inj (Option.some.inj ht)
    have first : State.group? { s with groups := [(g, sketchGroup x k)], cur := g, caps := [], replays := [] } g = some (sketchGroup x k) :=
      if_pos rfl
    unfold State.nextInstr at hj
    split at hj
    · cases hj
    next e he => exact ⟨_, e, first, he⟩
  · cases ht

theorem sketchHere_goes (s : State) (g : Nat) (x : Group) : Goes (s.sketchHere g x) := by
  unfold State.sketchHere
  split
  · exact goes_next s
  split
  · exact exec_goes_of_noWord rfl s
  next hk => exact goes_thenNote (exec_goes (sketchNext_hasEntry hk) _) _

theorem sketchStep_goes (s : State) (g : Nat) : Goes (s.sketchStep g) := by
  unfold State.sketchStep
  split
  · exact goes_next s
  dsimp only
  split
  · exact goes_next _
  · exact sketchHere_goes _ g _

/-! ### Commands and the other steps of the agenda (R441) -/

theorem cmdOf_isCommand {bs : List Byte} {i : Instr} (h : cmdOf bs = some i) : isCommand i = true := by
  have all : (cmdOf bs).all isCommand = true := by
    simp only [cmdOf, apply_ite (Option.all isCommand), Option.all_some, Option.all_none, apply_ite isCommand]
    simp only [isCommand, ite_self]
  simpa [h] using all

theorem noWord_of_isCommand {i : Instr} (h : isCommand i = true) : i.parts = none := by
  cases i <;> cases h
  all_goals rfl

theorem commandStep_goes (s : State) : Goes s.commandStep := by
  unfold State.commandStep
  split
  · exact goes_next s
  dsimp only
  split
  · exact goes_next _
  next c _ =>
    obtain ⟨t, ht⟩ := exec_goes_of_noWord (i := .mreset c) rfl s
    rw [ht]
    exact goes_next _
  next i _ hi =>
    have noWord : i.parts = none := by
      split at hi
      · exact noWord_of_isCommand (cmdOf_isCommand hi)
      · cases hi
    obtain ⟨t, ht⟩ := exec_goes_of_noWord noWord s
    rw [ht]
    exact goes_next _

theorem eventStep_goes (s : State) (i : Instr) : Goes (s.eventStep i) := by
  unfold State.eventStep
  split
  · exact goes_next s
  next event =>
    have noWord : i.parts = none := by
      cases hp : i.parts with
      | none => rfl
      | some p => simp [hp] at event
    exact exec_goes_of_noWord noWord s

theorem agendaStep_goes (s : State) (a : Agenda) : Goes (s.agendaStep a) := by
  cases a with
  | issue g => exact issueNow_goes s g
  | sketch g => exact sketchStep_goes s g
  | event i => exact eventStep_goes s i
  | command => exact commandStep_goes s
  | tick _ | upset _ _ | snoop _ _ | returned _ _ => exact goes_next _

theorem idleStep_goes (s : State) : Goes s.idleStep := by
  unfold State.idleStep
  split
  · exact issueNow_goes s _
  split
  · exact sketchStep_goes s _
  split
  · exact exec_goes_of_noWord rfl s
  split
  · split
    · exact exec_goes_of_noWord rfl s
    · exact goes_next _
  · exact goes_next _

theorem step_goes (s : State) : SafeStep s := by
  change Goes (step s)
  unfold step
  split
  · exact idleStep_goes s
  · exact agendaStep_goes _ _

/-- Settles O56: every step from every state has a next state, so those of a run have one. -/
theorem runsForever : Obligations.RunsForever := fun _ t _ => step_goes t

end Sys2Proof.Proofs.Runs
end

section
/-! The layout of an instruction word (R78) and the codes of its fields (R32, R69, R79, R81): each field reads back from the word that holds it,
and a word is what its fields lay out. -/

namespace Sys2Proof.Proofs.Encoding

open Sys2Proof Sys2Proof.Machine

/-! ### The fields of a word (R78) -/

/-- The fields of an instruction word, as bits. -/
structure Fields where
  op : BitVec 10
  neg : Bool
  grd : BitVec 4
  ty : BitVec 5
  la : BitVec 4
  uni : Bool
  yld : Bool
  hint : BitVec 2
  mod : BitVec 4
  d : BitVec 20
  a : BitVec 20
  b : BitVec 20
  x : BitVec 4

/-- The fields that decode cuts out of a word. -/
def Fields.ofWord {n : Nat} (w : BitVec n) : Fields where
  op := w.extractLsb' 86 10
  neg := w.getLsbD 85
  grd := w.extractLsb' 81 4
  ty := w.extractLsb' 76 5
  la := w.extractLsb' 72 4
  uni := w.getLsbD 71
  yld := w.getLsbD 70
  hint := w.extractLsb' 68 2
  mod := w.extractLsb' 64 4
  d := w.extractLsb' 44 20
  a := w.extractLsb' 24 20
  b := w.extractLsb' 4 20
  x := w.extractLsb' 0 4

/-- The word that lays out fields. -/
def Fields.toWord (f : Fields) : BitVec (10 + 1 + 4 + 5 + 4 + 1 + 1 + 2 + 4 + 20 + 20 + 20 + 4) :=
  f.op ++ BitVec.ofBool f.neg ++ f.grd ++ f.ty ++ f.la ++ BitVec.ofBool f.uni ++ BitVec.ofBool f.yld
    ++ f.hint ++ f.mod ++ f.d ++ f.a ++ f.b ++ f.x

theorem ofBool_getLsbD {n : Nat} (w : BitVec n) (i : Nat) : BitVec.ofBool (w.getLsbD i) = w.extractLsb' i 1 := by
  ext j hj
  obtain rfl : j = 0 := by omega
  simp

theorem ofWord_toWord (f : Fields) : Fields.ofWord f.toWord = f := by
  simp (disch := decide) only [Fields.ofWord, Fields.toWord, BitVec.getLsbD_append, Nat.reduceLT, if_false, BitVec.extractLsb'_append_eq_of_le,
    BitVec.extractLsb'_append_eq_of_add_le, Nat.reduceSub, BitVec.extractLsb'_eq_self]
  simp

theorem toWord_ofWord (w : BitVec 96) : (Fields.ofWord w).toWord = w := by
  simp (disch := decide) only [Fields.ofWord, Fields.toWord, ofBool_getLsbD, BitVec.extractLsb'_append_extractLsb'_eq_extractLsb']
  exact BitVec.extractLsb'_eq_self

/-- The fields of an encoding. -/
def Fields.ofParts (op : Nat) (e : Enc) : Fields :=
  ⟨BitVec.ofNat 10 op, e.neg, e.grd, e.ty.code, e.la, e.uni, e.yld, 0, e.mod, encodeOpnd e.d, encodeOpnd e.a, encodeB e.a e.b, e.x⟩

theorem encodeParts_eq (op : Nat) (e : Enc) : encodeParts op e = (Fields.ofParts op e).toWord := rfl

/-! ### Types and system registers (R32, R69) -/

theorem tyOfCode_eq_some_iff (c : BitVec 5) (t : Ty) : tyOfCode c = some t ↔ t.code = c := by
  have read : ∀ c : BitVec 5, ∀ t, tyOfCode c = some t → t.code = c := by decide
  exact ⟨read c t, fun h => by subst h; cases t <;> rfl⟩

theorem sysRegOfIdx_eq_some_iff (i : BitVec 16) (r : SysReg) : sysRegOfIdx i = some r ↔ r.idx = i := by
  refine ⟨fun h => by simpa using List.find?_some h, fun h => ?_⟩
  subst h
  have vw : ∀ k, sysRegOfIdx (SysReg.vw k).idx = some (.vw k) := by decide
  have wp : ∀ k, sysRegOfIdx (SysReg.wp k).idx = some (.wp k) := by decide
  cases r with
  | vw k => exact vw k
  | wp k => exact wp k
  | _ => rfl

/-! ### Operand fields (R81) -/

theorem toNat_class_append (c : BitVec 4) (n : BitVec 16) : (c ++ n : BitVec 20).toNat = c.toNat * 2 ^ 16 + n.toNat := by
  rw [BitVec.toNat_append, ← Nat.shiftLeft_add_eq_or_of_lt n.isLt, Nat.shiftLeft_eq]

theorem class_of_append (c : BitVec 4) (n : BitVec 16) : ((c ++ n : BitVec 20) >>> 16).toNat = c.toNat := by
  rw [BitVec.toNat_ushiftRight, toNat_class_append, Nat.shiftRight_eq_div_pow]
  omega

theorem index_of_append (c : BitVec 4) (n : BitVec 16) : (c ++ n : BitVec 20).setWidth 16 = n := BitVec.setWidth_append_eq_right

/-- A field is its class before its index. -/
theorem append_of_class {f : BitVec 20} {c : BitVec 4} (h : (f >>> 16).toNat = c.toNat) : c ++ f.setWidth 16 = f := by
  rw [BitVec.toNat_ushiftRight, Nat.shiftRight_eq_div_pow] at h
  refine BitVec.eq_of_toNat_eq ?_
  rw [toNat_class_append, BitVec.toNat_setWidth]
  omega

/-- A short index is kept whole. -/
theorem setWidth_setWidth_of_lt {k : Nat} {n : BitVec 16} (h : n.toNat < 2 ^ k) : (n.setWidth k).setWidth 16 = n :=
  BitVec.eq_of_toNat_eq (by rw [BitVec.toNat_setWidth, BitVec.toNat_setWidth, Nat.mod_eq_of_lt h, Nat.mod_eq_of_lt n.isLt])

theorem readOpnd_encodeOpnd {o : Opnd} {c : Nat} (h : o.cls = some c) (hc : c ≠ 15) : readOpnd (encodeOpnd o) = .ok o := by
  cases o with
  | nil => cases h
  | raw f => cases h
  | wide q => exact absurd (Option.some.inj h).symm hc
  | view k n =>
    have := k.isLt
    have cls : (k.setWidth 4).toNat = k.toNat := by rw [BitVec.toNat_setWidth]; omega
    simp only [readOpnd, encodeOpnd, class_of_append, index_of_append, cls, BitVec.ofNat_toNat, BitVec.setWidth_eq]
    exact if_pos this
  | sys r =>
    simp only [readOpnd, encodeOpnd, class_of_append, index_of_append, (sysRegOfIdx_eq_some_iff _ r).2 rfl]
    rfl
  | imm n | rs n =>
    simp only [readOpnd, encodeOpnd, class_of_append, index_of_append]
    rfl
  | opf k | last k | scal k | pred k | port k =>
    have := k.isLt
    simp only [readOpnd, encodeOpnd, class_of_append, index_of_append]
    simp [BitVec.lt_def]
    omega

theorem append_of_class_of_lt {f : BitVec 20} {c : BitVec 4} {k : Nat} (h : (f >>> 16).toNat = c.toNat)
    (hk : (f.setWidth 16 : BitVec 16).toNat < 2 ^ k) : c ++ ((f.setWidth 16 : BitVec 16).setWidth k).setWidth 16 = f := by
  rw [setWidth_setWidth_of_lt hk, append_of_class h]

theorem encodeOpnd_of_readOpnd {f : BitVec 20} {o : Opnd} (h : readOpnd f = .ok o) : encodeOpnd o = f := by
  unfold readOpnd at h
  dsimp only at h
  split at h
  next cls =>
    cases h
    exact append_of_class (by rw [BitVec.toNat_setWidth, BitVec.toNat_ofNat]; omega)
  iterate 5
    split at h
    next cls =>
      split at h
      next short => cases h; exact append_of_class_of_lt cls short
      · cases h
  split at h
  next cls =>
    split at h
    next r hr =>
      cases h
      have := (sysRegOfIdx_eq_some_iff _ r).1 hr
      rw [encodeOpnd, this, append_of_class cls]
    · cases h
  iterate 2
    split at h
    next cls => cases h; exact append_of_class cls
  cases h

end Sys2Proof.Proofs.Encoding
end

section
/-! O53: decode of encode, and encode of decode (R78 to R89). -/

namespace Sys2Proof.Proofs.Encoding

open Sys2Proof Sys2Proof.Machine Sys2Proof.Claims Sys2Proof.Proofs

/-! ### Operands by their places (R81 to R83) -/

theorem class_encodeOpnd {o : Opnd} {c : Nat} (h : o.cls = some c) : (encodeOpnd o >>> 16).toNat = c := by
  cases o with
  | nil | raw _ => cases h
  | view k n =>
    cases h
    rw [encodeOpnd, class_of_append, BitVec.toNat_setWidth]
    omega
  | _ => cases h; exact class_of_append _ _

theorem fits_cls {ok : List Nat} {o : Opnd} (h : opndFits (.cls ok) o = true) : ∃ c ∈ ok, o.cls = some c ∧ c ≠ 15 := by
  have named := (Bool.and_eq_true_iff.1 h).1
  split at named
  next c hc => exact ⟨c, by simp_all⟩
  · cases named

theorem fits_opt {ok : List Nat} {o : Opnd} (h : opndFits (.opt ok) o = true) : o = .nil ∨ ∃ c ∈ ok, o.cls = some c ∧ c ≠ 15 := by
  refine (Bool.or_eq_true_iff.1 h).imp eq_of_beq fun named => ?_
  split at named
  next c hc => exact ⟨c, by simp_all⟩
  · cases named

/-- An operand that a field may leave out is never of class 0x0, whose view 0 and index 0 are all zeros too. -/
def optApart : FieldSpec → Bool
  | .opt ok => !ok.contains 0
  | _ => true

theorem readField_encodeOpnd {fs : FieldSpec} {o : Opnd} (h : opndFits fs o = true) (apart : optApart fs = true) :
    readField fs (encodeOpnd o) = .ok o := by
  cases fs with
  | unused =>
    obtain rfl := eq_of_beq h
    rfl
  | cls ok =>
    obtain ⟨c, -, hc, ne⟩ := fits_cls h
    exact readOpnd_encodeOpnd hc ne
  | opt ok =>
    rcases fits_opt h with rfl | ⟨c, mem, hc, ne⟩
    · rfl
    · have nonzero : encodeOpnd o ≠ 0 := by
        intro zero
        have cls := class_encodeOpnd hc
        rw [zero] at cls
        obtain rfl : 0 = c := cls
        simp [optApart, mem] at apart
      exact (if_neg nonzero).trans (readOpnd_encodeOpnd hc ne)
  | brOff | brPrio =>
    cases o with
    | raw f => rfl
    | _ => cases h
  | imm12 =>
    cases o with
    | imm k => exact readOpnd_encodeOpnd (c := 10) rfl (by decide)
    | _ => cases h

theorem encodeOpnd_of_readField {fs : FieldSpec} {f : BitVec 20} {o : Opnd} (h : readField fs f = .ok o) : encodeOpnd o = f := by
  cases fs with
  | unused =>
    unfold readField at h
    dsimp only at h
    split at h
    next zero => cases h; exact zero.symm
    · cases h
  | opt ok =>
    unfold readField at h
    dsimp only at h
    split at h
    next zero => cases h; exact zero.symm
    · exact encodeOpnd_of_readOpnd h
  | brOff | brPrio => cases h; rfl
  | cls _ | imm12 => exact encodeOpnd_of_readOpnd h

/-! ### The fields A and B (R82) -/

theorem isWide_iff (f : BitVec 20) : (f >>> 16 == 0xF) = true ↔ (f >>> 16).toNat = 15 := by
  rw [beq_iff_eq, ← BitVec.toNat_inj]
  rfl

theorem not_isWide_of_cls {o : Opnd} {c : Nat} (h : o.cls = some c) (ne : c ≠ 15) : (encodeOpnd o >>> 16 == 0xF) = false :=
  Bool.eq_false_iff.2 fun wide => ne ((class_encodeOpnd h).symm.trans ((isWide_iff _).1 wide))

/-- Of the operands only the wide pair is of class 0xF; a priority of the branch form is too short to look like one. -/
theorem not_isWide_of_fits {fs : FieldSpec} {o : Opnd} (h : opndFits fs o = true) (hf : fs ≠ .brOff) :
    (encodeOpnd o >>> 16 == 0xF) = false := by
  cases fs with
  | unused =>
    obtain rfl := eq_of_beq h
    rfl
  | cls ok =>
    obtain ⟨c, -, hc, ne⟩ := fits_cls h
    exact not_isWide_of_cls hc ne
  | opt ok =>
    rcases fits_opt h with rfl | ⟨c, -, hc, ne⟩
    · rfl
    · exact not_isWide_of_cls hc ne
  | brOff => exact absurd rfl hf
  | brPrio =>
    cases o with
    | raw f =>
      have short : f >>> 12 = 0 := eq_of_beq h
      have zero : encodeOpnd (.raw f) >>> 16 = 0 := by rw [encodeOpnd, BitVec.shiftRight_add f 12 4, short]; rfl
      rw [zero]
      rfl
    | _ => cases h
  | imm12 =>
    cases o with
    | imm k => exact not_isWide_of_cls (c := 10) rfl (by decide)
    | _ => cases h

theorem encodeB_of_narrow {a : Opnd} (h : ∀ q, a ≠ .wide q) (b : Opnd) : encodeB a b = encodeOpnd b := by
  cases a with
  | wide q => exact absurd rfl (h q)
  | _ => rfl

theorem encode_of_readAB {fa fb : FieldSpec} {a b : BitVec 20} {x y : Opnd} (h : readAB fa fb a b = (.ok x, .ok y)) :
    encodeOpnd x = a ∧ encodeB x y = b := by
  unfold readAB at h
  dsimp only at h
  split at h
  next =>
    split at h
    next both =>
      obtain ⟨isA, isB⟩ := Bool.and_eq_true_iff.1 both
      cases h
      constructor
      · rw [encodeOpnd, BitVec.extractLsb'_append_eq_left]
        exact append_of_class ((isWide_iff a).1 isA)
      · rw [encodeB, BitVec.extractLsb'_append_eq_right]
        exact append_of_class ((isWide_iff b).1 isB)
    · cases h
  next narrow =>
    obtain ⟨ha, hb⟩ := Prod.mk.inj h
    have hx := encodeOpnd_of_readField ha
    have noPair (q : Word32) : x ≠ .wide q := by
      rintro rfl
      by_cases branch : fa = .brPrio
      · rw [branch] at ha
        cases ha
      · have pair : a >>> 16 = 0xF := eq_of_beq ((isWide_iff a).2 (hx ▸ class_encodeOpnd rfl))
        simp [branch, pair] at narrow
    exact ⟨hx, (encodeB_of_narrow noPair y).trans (encodeOpnd_of_readField hb)⟩

theorem readAB_encode {r : OpRow} {fa fb : FieldSpec} {e : Enc} (hA : srcAFits r fa e = true) (hB : opndFits fb e.b = true)
    (optA : optApart fa = true) (optB : optApart fb = true) (offA : fa ≠ .brOff) (offB : fb ≠ .brOff)
    (branch : fa = .brPrio → r.spec.wide = false) : readAB fa fb (encodeOpnd e.a) (encodeB e.a e.b) = (.ok e.a, .ok e.b) := by
  by_cases pair : ∃ q, e.a = .wide q
  · obtain ⟨q, ha⟩ := pair
    simp only [srcAFits, ha, Bool.and_eq_true] at hA
    obtain ⟨wide, nob⟩ := hA
    have notBranch : fa ≠ .brPrio := fun h => by simp [branch h] at wide
    have hi : (encodeOpnd (.wide q) >>> 16 == 0xF) = true := (isWide_iff _).2 (class_encodeOpnd rfl)
    have lo : (encodeB (.wide q) .nil >>> 16 == 0xF) = true := (isWide_iff _).2 (class_of_append _ _)
    have whole : ((encodeOpnd (.wide q)).setWidth 16 ++ (encodeB (.wide q) .nil).setWidth 16 : Word32) = q := by
      rw [encodeOpnd, encodeB, index_of_append, index_of_append, BitVec.extractLsb'_append_extractLsb'_eq_extractLsb' (by decide)]
      exact BitVec.extractLsb'_eq_self
    rw [ha, eq_of_beq nob]
    simp only [readAB, hi, lo, whole, beq_eq_false_iff_ne.2 notBranch, Bool.not_false, Bool.and_self, Bool.or_self, if_true]
  · have narrow : ∀ q, e.a ≠ .wide q := fun q h => pair ⟨q, h⟩
    have fitsA : opndFits fa e.a = true := by
      unfold srcAFits at hA
      split at hA
      next q hq => exact absurd hq (narrow q)
      · exact hA
    simp only [readAB, encodeB_of_narrow narrow, not_isWide_of_fits fitsA offA, not_isWide_of_fits hB offB, Bool.or_self, Bool.and_false,
      Bool.false_eq_true, if_false, readField_encodeOpnd fitsA optA, readField_encodeOpnd hB optB]

/-! ### The rows of the opcode map (R91) -/

/-- The fields of every row tell apart what they may hold: left out or an operand, a branch or a wide pair. -/
theorem fields_apart : ∀ r ∈ opRows, ∀ m : BitVec 4, optApart (r.spec.dab m).1 = true ∧ optApart (r.spec.dab m).2.1 = true ∧
    optApart (r.spec.dab m).2.2 = true ∧ (r.spec.dab m).2.1 ≠ .brOff ∧ (r.spec.dab m).2.2 ≠ .brOff ∧
      ((r.spec.dab m).2.1 = .brPrio → r.spec.wide = false) := by decide +kernel

theorem op_lt_of_mem : ∀ r ∈ opRows, r.op < 0x3FF := by decide +kernel

theorem parts_ins_of_mem {r : OpRow} (h : r ∈ opRows) (e : Enc) : (r.ins e).parts = some (r.op, e) := by
  revert r
  simp only [opRows, ctlRows, intRows, fpRows, cvtRows, xlaneRows, memRows, copyRows, syncRows, matRows, List.cons_append, List.nil_append,
    List.forall_mem_cons, List.not_mem_nil, false_implies, implies_true, and_true]
  repeat' apply And.intro
  all_goals rfl

/-- The row of an encoded instruction's opcode makes it of its fields. -/
theorem map_ins_of_parts {i : Instr} {op : Nat} {e : Enc} (h : i.parts = some (op, e)) : (opRow op).map (fun r => r.ins e) = some i := by
  cases i <;> cases h
  all_goals rfl

theorem mem_of_opRow {op : Nat} {r : OpRow} (h : opRow op = some r) : r ∈ opRows ∧ r.op = op :=
  ⟨List.mem_of_find?_eq_some h, by simpa using List.find?_some h⟩

theorem wf_iff {i : Instr} {op : Nat} {e : Enc} (h : i.parts = some (op, e)) :
    i.wf = true ↔ ∃ r, opRow op = some r ∧ r.ins e = i ∧ encFits r e = true := by
  have row := map_ins_of_parts h
  simp only [Instr.wf, h]
  cases hr : opRow op with
  | none => simp
  | some r =>
    rw [hr] at row
    simp [Option.some.inj row]

/-! ### Decode of the fields of a word (R89) -/

/-- Decode reads an encoding of a row from fields: no reserved hint bit, a type that is one, and the operands of their places. -/
structure Fields.Reads (f : Fields) (r : OpRow) (e : Enc) : Prop where
  hint : f.hint = 0
  ty : tyOfCode f.ty = some e.ty
  d : readField (r.spec.dab f.mod).1 f.d = .ok e.d
  ab : readAB (r.spec.dab f.mod).2.1 (r.spec.dab f.mod).2.2 f.a f.b = (.ok e.a, .ok e.b)
  guard : f.neg = e.neg ∧ f.grd = e.grd
  hints : f.la = e.la ∧ f.uni = e.uni ∧ f.yld = e.yld
  mods : f.mod = e.mod ∧ f.x = e.x

/-- The encoding with a word's plain fields, a type and operands. -/
def Fields.enc (f : Fields) (ty : Ty) (d a b : Opnd) : Enc :=
  { neg := f.neg, grd := f.grd, ty := ty, la := f.la, uni := f.uni, yld := f.yld, mod := f.mod, d := d, a := a, b := b, x := f.x }

theorem hintFits_iff (r : OpRow) (e : Enc) :
    hintFits r e = true ↔ ¬((e.la ≠ 0 ∧ r.spec.laOk = false) ∨ (e.uni = true ∧ r.spec.uniOk = false)) := by
  grind [hintFits]

theorem operands_fit {r : OpRow} {e : Enc} (h : encFits r e = true) : opndFits (r.spec.dab e.mod).1 e.d = true ∧
    srcAFits r (r.spec.dab e.mod).2.1 e = true ∧ opndFits (r.spec.dab e.mod).2.2 e.b = true := by
  simp only [encFits, classFits, Bool.and_eq_true] at h
  obtain ⟨-, ⟨⟨⟨hd, ha⟩, hb⟩, -⟩, -⟩ := h
  exact ⟨hd, ha, hb⟩

theorem eq_ofParts_of_reads {f : Fields} {r : OpRow} {e : Enc} (h : f.Reads r e) (op : f.op.toNat = r.op) : f = Fields.ofParts r.op e := by
  obtain ⟨hint, ty, d, ab, ⟨neg, grd⟩, ⟨la, uni, yld⟩, ⟨mod, x⟩⟩ := h
  obtain ⟨ha, hb⟩ := encode_of_readAB ab
  have hop : BitVec.ofNat 10 r.op = f.op := by rw [← op, BitVec.ofNat_toNat, BitVec.setWidth_eq]
  simp only [Fields.ofParts, hop, ← neg, ← grd, (tyOfCode_eq_some_iff _ _).1 ty, ← la, ← uni, ← yld, ← hint, ← mod,
    encodeOpnd_of_readField d, ha, hb, ← x]

theorem reads_ofParts {r : OpRow} {e : Enc} (mem : r ∈ opRows) (fits : encFits r e = true) : (Fields.ofParts r.op e).Reads r e := by
  obtain ⟨fitsD, fitsA, fitsB⟩ := operands_fit fits
  obtain ⟨optD, optA, optB, offA, offB, branch⟩ := fields_apart r mem e.mod
  exact ⟨rfl, (tyOfCode_eq_some_iff _ _).2 rfl, readField_encodeOpnd fitsD optD, readAB_encode fitsA fitsB optA optB offA offB branch,
    ⟨rfl, rfl⟩, ⟨rfl, rfl, rfl⟩, ⟨rfl, rfl⟩⟩

theorem eq_ok_of_stand {x : FieldRead} {o : Opnd} (h : x.stand = some o) (known : x ≠ .badSys) : x = .ok o := by
  cases x with
  | ok _ => cases h; rfl
  | badSys => exact absurd rfl known
  | bad => cases h

theorem reads_of_decodeWord {w : BitVec 96} {i : Instr} (h : decodeWord w = .ok i) :
    ∃ r e, opRow (Fields.ofWord w).op.toNat = some r ∧ (Fields.ofWord w).Reads r e ∧ encFits r e = true ∧ r.ins e = i := by
  unfold decodeWord at h
  dsimp only at h
  split at h
  · cases h
  split at h
  · cases h
  next r hr =>
  split at h
  · cases h
  next hints =>
  split at h
  · cases h
  next ty hty =>
  split at h
  · cases h
  next tyFits =>
  split at h
  · cases h
  next rndFits =>
  split at h
  · cases h
  next modFits =>
  split at h
  next d a b hd ha hb =>
    split at h
    · cases h
    next clsFits =>
    split at h
    · cases h
    next known =>
      cases h
      simp only [Bool.or_eq_true, beq_iff_eq, not_or] at known
      obtain ⟨⟨knownD, knownA⟩, knownB⟩ := known
      have hint : (Fields.ofWord w).hint = 0 := not_not.1 fun h => hints (.inl h)
      have hintsFit := (hintFits_iff r ((Fields.ofWord w).enc ty d a b)).2 fun h => hints (.inr h)
      refine ⟨r, (Fields.ofWord w).enc ty d a b, hr, ⟨hint, hty, eq_ok_of_stand hd knownD,
        Prod.ext (eq_ok_of_stand ha knownA) (eq_ok_of_stand hb knownB), ⟨rfl, rfl⟩, ⟨rfl, rfl, rfl⟩, ⟨rfl, rfl⟩⟩, ?_, rfl⟩
      simp only [Bool.not_eq_true', Bool.not_eq_false] at tyFits rndFits modFits clsFits
      simp only [encFits, hintsFit, Bool.true_and, Bool.and_eq_true]
      exact ⟨⟨⟨tyFits, rndFits⟩, modFits⟩, clsFits⟩
  · cases h

theorem decodeWord_of_reads {w : BitVec 96} {r : OpRow} {e : Enc} (hop : (Fields.ofWord w).op.toNat ≠ 0x3FF)
    (hr : opRow (Fields.ofWord w).op.toNat = some r) (reads : (Fields.ofWord w).Reads r e) (fits : encFits r e = true) :
    decodeWord w = .ok (r.ins e) := by
  obtain ⟨hint, ty, d, ab, ⟨neg, grd⟩, ⟨la, uni, yld⟩, ⟨mod, x⟩⟩ := reads
  obtain ⟨neg', grd', ty', la', uni', yld', mod', d', a', b', x'⟩ := e
  dsimp only [Fields.ofWord] at *
  subst neg grd la uni yld mod x
  simp only [encFits, hintFits_iff, Bool.and_eq_true] at fits
  obtain ⟨⟨⟨⟨hints, tyFits⟩, rndFits⟩, modFits⟩, clsFits⟩ := fits
  unfold decodeWord
  simp only [hop, hr, hint, hints, ty, d, ab, if_false, ne_eq, not_true, false_or, FieldRead.stand]
  have pass {b : Bool} (h : b = true) : ¬(!b) = true := by simp [h]
  refine (if_neg (pass tyFits)).trans ((if_neg (pass rndFits)).trans ((if_neg (pass modFits)).trans ((if_neg (pass clsFits)).trans ?_)))
  exact if_neg (by simp)

/-! ### The bytes of a word (R79) -/

theorem bytesOfWord_eq (w : BitVec 96) : bytesOfWord w = leBytes 12 w.toNat := rfl

theorem wordOfBytes_bytesOfWord (w : BitVec 96) : wordOfBytes (bytesOfWord w) = w := by
  have bytes : leNat (leBytes 12 w.toNat) = w.toNat := Bits.leNat_leBytes w.isLt
  change BitVec.ofNat 96 (leNat (leBytes 12 w.toNat)) = w
  rw [bytes, BitVec.ofNat_toNat, BitVec.setWidth_eq]

theorem decodeBytes_append {w : BitVec 96} {i : Instr} (h : decodeWord w = .ok i) (rest : List Byte) :
    decodeBytes (bytesOfWord w ++ rest) = .ok i rest := by
  have len : (bytesOfWord w).length = 12 := rfl
  have long : ¬(bytesOfWord w ++ rest).length < 12 := by simp [len]
  rw [decodeBytes, if_neg long, List.take_left' len, List.drop_left' len, wordOfBytes_bytesOfWord, h]

/-! ### Both ways (R78, R81 to R89) -/

theorem decodeWord_encodeParts {r : OpRow} {e : Enc} (hr : opRow r.op = some r) (fits : encFits r e = true) :
    decodeWord (encodeParts r.op e) = .ok (r.ins e) := by
  have mem := (mem_of_opRow hr).1
  have lt := op_lt_of_mem r mem
  have fields : Fields.ofWord (encodeParts r.op e) = Fields.ofParts r.op e := ofWord_toWord (Fields.ofParts r.op e)
  have op : (Fields.ofParts r.op e).op.toNat = r.op :=
    (BitVec.toNat_ofNat r.op 10).trans (Nat.mod_eq_of_lt (Nat.lt_trans lt (by decide)))
  refine decodeWord_of_reads ?_ ?_ ?_ fits
  · rw [fields, op]
    exact Nat.ne_of_lt lt
  · rw [fields, op]
    exact hr
  · rw [fields]
    exact reads_ofParts mem fits

theorem decodeOfEncode : DecodeOfEncode := by
  intro i w rest wf enc
  cases hp : i.parts with
  | none => simp [encode, hp] at enc
  | some p =>
    obtain ⟨op, e⟩ := p
    obtain ⟨r, hr, rfl, fits⟩ := (wf_iff hp).1 wf
    obtain rfl := (mem_of_opRow hr).2
    obtain rfl : encodeParts r.op e = w := by simpa [encode, hp] using enc
    have decoded := decodeWord_encodeParts hr fits
    exact ⟨decoded, decodeBytes_append decoded rest⟩

theorem encodeOfDecode : EncodeOfDecode := by
  intro w i h
  obtain ⟨r, e, hr, reads, fits, rfl⟩ := reads_of_decodeWord h
  obtain ⟨mem, op⟩ := mem_of_opRow hr
  have hp := parts_ins_of_mem mem e
  rw [← op] at hr
  refine ⟨(wf_iff hp).2 ⟨r, hr, rfl, fits⟩, ?_⟩
  have word : encodeParts r.op e = w := by
    rw [encodeParts_eq, ← eq_ofParts_of_reads reads op.symm, toWord_ofWord]
  rw [encode, hp, Option.map_some, word]

/-- Settles O53: decode accepts exactly the words whose fields are those of an encoding that fits its row, and reads that encoding. -/
theorem encodingRoundTrip : Obligations.EncodingRoundTrip := ⟨decodeOfEncode, encodeOfDecode⟩

end Sys2Proof.Proofs.Encoding
end

section
/-! O54 and O55: words that the specification writes out, and the step that fetches, decodes and runs a word (R78 to R80, R89, R92, R308). -/

namespace Sys2Proof.Proofs.Encoding

open Sys2Proof Sys2Proof.Machine

/-! ### Words rejected by name (R89, R92) -/

theorem decodeWord_fill {w : BitVec 96} (h : w.extractLsb' 86 10 = 0x3FF) : decodeWord w = .error .fillOpcode :=
  if_pos (congrArg BitVec.toNat h)

section
variable {w : BitVec 96} (notFill : w.extractLsb' 86 10 ≠ 0x3FF)
include notFill

theorem op_ne_of_notFill : (w.extractLsb' 86 10).toNat ≠ 0x3FF := fun h => notFill (BitVec.eq_of_toNat_eq h)

theorem decodeWord_unassigned (h : opRow (w.extractLsb' 86 10).toNat = none) : decodeWord w = .error .illegalOpcode := by
  unfold decodeWord
  simp only [op_ne_of_notFill notFill, h, if_false]

theorem decodeWord_reservedHint (h : (opRow (w.extractLsb' 86 10).toNat).isSome = true) (hint : w.extractLsb' 68 2 ≠ 0) :
    decodeWord w = .error .illegalHint := by
  obtain ⟨r, hr⟩ := Option.isSome_iff_exists.1 h
  unfold decodeWord
  simp only [op_ne_of_notFill notFill, hr, hint, ne_eq, not_false_iff, true_or, if_true, if_false]

end

/-- Settles O54: the words of the specification by running decode on them, the rejections by the order of its checks. -/
theorem decodeOfWords : Obligations.DecodeOfWords := by
  refine ⟨?_, ?_, ?_, ?_, ?_, ?_, fun _ => decodeWord_fill, fun _ none notFill => decodeWord_unassigned notFill none,
    fun _ row hint notFill => decodeWord_reservedHint notFill row hint⟩
  all_goals decide +kernel

/-! ### The step of a group that issues (R79, R80, R308) -/

/-- Of a state only the ports taken in the cycle and the core's last issue change. -/
theorem noteIssue_frame (u : State) (g core num : Nat) (p : Option Nat) :
    let w := u.noteIssue g core num p
    { w with issued := u.issued, cores := u.cores } = u ∧ (w.issued = u.issued ∨ ∃ p, w.issued = u.issued ++ [(core, p, g)]) := by
  cases p with
  | none => exact ⟨rfl, .inl rfl⟩
  | some p =>
    simp only [State.noteIssue]
    split
    · exact ⟨rfl, .inl rfl⟩
    · exact ⟨rfl, .inr ⟨p, rfl⟩⟩

/-- A group that may issue in the cycle under way fetches and runs; then its port is taken. -/
theorem step_issue {s : State} {g : Nat} {rest : List Agenda} {x : Group} {ent : Ent} (ha : s.agenda = .issue g :: rest)
    (hx : State.group? { s with agenda := rest } g = some x) (sync : x.asyncNow = none) (he : x.chosen = some ent)
    (hi : x.issuable = true) (hr : State.mayRun { s with agenda := rest } x = true)
    (ht : State.cycleTakes { s with agenda := rest } g x = true) :
    step s = thenNote (State.fetchAndRun { s with agenda := rest, cur := g } g x ent)
      (fun t => t.noteIssue g x.core x.num (State.issuePort { s with agenda := rest } x)) := by
  simp only [step, ha, State.agendaStep, State.issueNow, hx, State.issueCycle, ht, if_true, State.issueHere, sync, he, hi, hr,
    Option.isSome_none, Bool.false_eq_true, if_false, Bool.and_self]

/-- Settles O55: the step is the fetch's run of what it decodes to, and what follows takes a port. -/
theorem stepRunsDecoded : Obligations.StepRunsDecoded := by
  intro s g rest x ent segs ha s0 s1 runs hx sync he hi hr ht
  have stepped := step_issue ha hx sync he hi hr ht
  have runs_of {i : Instr} {t : State} (h : s1.fetchAndRun g x ent = exec i t) : runs i t := by
    change step s = thenNote (s1.fetchAndRun g x ent) _ at stepped
    rw [h] at stepped
    refine ⟨fun u hu => ⟨_, ?_, noteIssue_frame u g x.core x.num (s0.issuePort x)⟩, fun f hf => ?_, fun f hf => ?_⟩
    · rw [stepped, hu]; rfl
    · rw [stepped, hf]; rfl
    · rw [stepped, hf]; rfl
  refine ⟨fun beyond => runs_of (if_pos beyond), fun within place => ?_⟩
  have fetch : s1.fetchAndRun g x ent = _ := if_neg (Nat.not_le.2 within)
  simp only [place] at fetch
  refine ⟨fun i r hd => runs_of ?_, fun why hd => runs_of ?_⟩
  · rw [fetch, hd]
  · rw [fetch, hd]

end Sys2Proof.Proofs.Encoding
end

section
/-! The values of the integer instructions: two's complement, fields, shifts and counts as the statements write them (R33, R109 to R118). -/

namespace Sys2Proof.Proofs.Integers

open Sys2Proof Sys2Proof.Machine Sys2Proof.Claims Sys2Proof.Laws Sys2Proof.Proofs.Bits Sys2Proof.Proofs.Predicates

/-! ### Codes of integers (R33, R48) -/

theorem code_eq (t : Ty) (i : Int) : code t i = wrapBits (Ty.bits t) i := rfl

theorem lo_eq (t : Ty) : lo t = intLo t := by simp only [lo, intLo]; push_cast; rfl

theorem hi_eq (t : Ty) : hi t = intHi t := by simp only [hi, intHi]; push_cast; rfl

theorem bits_pos (t : Ty) : 0 < Ty.bits t := by cases t <;> decide

theorem intLo_le_intHi (t : Ty) : intLo t ≤ intHi t := by
  have half : (0 : Int) < (2 ^ (Ty.bits t - 1) : Nat) := by exact_mod_cast Nat.two_pow_pos _
  have full : (0 : Int) < (2 ^ Ty.bits t : Nat) := by exact_mod_cast Nat.two_pow_pos _
  unfold intLo intHi
  split <;> omega

/-- Wrapping or clamping by the machine is that of the statements. -/
theorem clampTo_eq (sat : Bool) (t : Ty) (i : Int) :
    clampTo sat t i = if sat then satInt t i else (wrapBits (Ty.bits t) i, false) := by
  have order := intLo_le_intHi t
  simp only [clampTo, satInt, code_eq, lo_eq, hi_eq]
  by_cases low : i < intLo t
  · rw [min_eq_right (by omega), max_eq_left (by omega)]
    simp [low]
  by_cases high : intHi t < i
  · rw [min_eq_left (by omega), max_eq_right (by omega)]
    simp [low, high]
  · rw [min_eq_right (by omega), max_eq_right (by omega)]
    simp [low, high]

theorem wrapOrSat_eq (e : Enc) (i : Int) : wrapOrSat e i = clampTo (e.mod.getLsbD 0) e.ty i := (clampTo_eq _ _ _).symm

/-- Modulo 2^w a code and the integer that it stands for are the same. -/
theorem ofInt_intOf (t : Ty) (a : Nat) : BitVec.ofInt (Ty.bits t) (intOf t a) = BitVec.ofNat (Ty.bits t) a := by
  rw [← asInt_eq]
  unfold asInt
  split
  · exact BitVec.ofInt_toInt
  · rw [BitVec.ofInt_natCast, BitVec.ofNat_toNat, BitVec.setWidth_eq]

theorem wrapBits_eq_toNat (n : Nat) (i : Int) : wrapBits n i = (BitVec.ofInt n i).toNat := rfl

/-- The low half of a product. -/
theorem wrapBits_prod (t : Ty) (a b : Nat) :
    wrapBits (Ty.bits t) (prod t a b) = (BitVec.ofNat (Ty.bits t) a * BitVec.ofNat (Ty.bits t) b).toNat := by
  rw [wrapBits_eq_toNat, prod, BitVec.ofInt_mul, ofInt_intOf, ofInt_intOf]

theorem wrapBits_prod_add (t : Ty) (a b c : Nat) : wrapBits (Ty.bits t) (prod t a b + intOf t c) =
    (BitVec.ofNat (Ty.bits t) a * BitVec.ofNat (Ty.bits t) b + BitVec.ofNat (Ty.bits t) c).toNat := by
  rw [wrapBits_eq_toNat, prod, BitVec.ofInt_add, BitVec.ofInt_mul, ofInt_intOf, ofInt_intOf, ofInt_intOf]

/-- Dropping the low half of 2w bits is the quotient by 2^w, wrapped. -/
theorem highHalf_eq (t : Ty) (i : Int) : highHalf t i = code t (i / 2 ^ Ty.bits t) := by
  have pos : (0 : Int) < 2 ^ Ty.bits t := by positivity
  have split : i % (2 ^ Ty.bits t * 2 ^ Ty.bits t) / 2 ^ Ty.bits t = i / 2 ^ Ty.bits t % 2 ^ Ty.bits t := by
    have whole := Int.emod_add_mul_ediv i (2 ^ Ty.bits t * 2 ^ Ty.bits t)
    have quot := Int.emod_add_mul_ediv (i / 2 ^ Ty.bits t) (2 ^ Ty.bits t)
    rw [Int.ediv_ediv_of_nonneg pos.le] at quot
    have this : i % (2 ^ Ty.bits t * 2 ^ Ty.bits t) =
        i + 2 ^ Ty.bits t * -(2 ^ Ty.bits t * (i / (2 ^ Ty.bits t * 2 ^ Ty.bits t))) := by linarith
    rw [this, Int.add_mul_ediv_left _ _ pos.ne']
    linarith
  have nonneg : 0 ≤ i % (2 ^ Ty.bits t * 2 ^ Ty.bits t) := Int.emod_nonneg _ (by positivity)
  rw [highHalf, code_eq, Nat.shiftRight_eq_div_pow, wrapBits, wrapBits, two_mul, pow_add]
  push_cast
  rw [← split]
  zify
  rw [Int.toNat_of_nonneg nonneg, Int.toNat_of_nonneg (Int.ediv_nonneg nonneg pos.le)]

theorem wrapBits_neg_one (n : Nat) : wrapBits n (-1) = 2 ^ n - 1 := by
  have ones : BitVec.ofInt n (-1) = BitVec.allOnes n := by rw [← BitVec.neg_one_eq_allOnes, BitVec.ofInt_neg, BitVec.ofInt_ofNat]
  rw [wrapBits_eq_toNat, ones, BitVec.toNat_allOnes]

theorem divCode_eq (t : Ty) (a b : Nat) : divCode t a b =
    if asInt t b = 0 then 2 ^ Ty.bits t - 1 else code t (Int.tdiv (asInt t a) (asInt t b)) := by
  simp only [divCode, wrapBits_neg_one, asInt_eq, code_eq]

theorem remCode_eq (t : Ty) (a b : Nat) : remCode t a b =
    if asInt t b = 0 then a else code t (asInt t a - Int.tdiv (asInt t a) (asInt t b) * asInt t b) := by
  simp only [remCode, asInt_eq, code_eq, Int.tmod_def, mul_comm]

/-! ### Carry and borrow (R109) -/

theorem wrapBits_natCast (w n : Nat) : wrapBits w (n : Int) = n % 2 ^ w := by
  unfold wrapBits
  exact_mod_cast Int.toNat_natCast _

theorem wrapBits_borrow (w a b k : Nat) :
    wrapBits w ((a : Int) - b - k) = (BitVec.ofNat w a - BitVec.ofNat w b - BitVec.ofNat w k).toNat := by
  have cast (n : Nat) : BitVec.ofNat w n = BitVec.ofInt w n := by simp
  rw [wrapBits_eq_toNat, cast, cast, cast, sub_eq_add_neg, sub_eq_add_neg, BitVec.ofInt_add, BitVec.ofInt_add, BitVec.ofInt_neg,
    BitVec.ofInt_neg, BitVec.sub_eq_add_neg, BitVec.sub_eq_add_neg]

/-! ### Complements, shifts and the rotation (R114, R115) -/

theorem notBits_eq (w b : Nat) : notBits w b = (~~~(BitVec.ofNat w b)).toNat := by
  rw [notBits, BitVec.toNat_not, BitVec.toNat_ofNat]

theorem shl_eq (w a n : Nat) : (if n ≥ w then 0 else (a <<< n) % 2 ^ w) = (BitVec.ofNat w a <<< n).toNat := by
  rw [BitVec.toNat_shiftLeft, BitVec.toNat_ofNat, Nat.shiftLeft_eq, Nat.shiftLeft_eq, Nat.mod_mul_mod]
  split
  · next h => exact (Nat.mod_eq_zero_of_dvd (Dvd.dvd.mul_left (pow_dvd_pow 2 h) a)).symm
  · rfl

/-- A quotient by more than the magnitude is the sign alone. -/
theorem ediv_eq_sign {x d : Int} (low : -d ≤ x) (high : x < d) : x / d = if x < 0 then -1 else 0 := by
  split
  · exact ((Int.ediv_emod_unique (r := x + d) (by omega)).2 ⟨by omega, by omega, by omega⟩).1
  · exact Int.ediv_eq_zero_of_lt (by omega) high

theorem sar_eq (w a n : Nat) :
    wrapBits w (signedOf w a / (2 ^ min n w : Nat)) = ((BitVec.ofNat w a).sshiftRight n).toNat := by
  rw [BitVec.sshiftRight_eq, ← wrapBits_eq_toNat, Int.shiftRight_eq_div_pow, ← signedOf_eq_toInt]
  congr 1
  rcases le_total n w with h | h
  · rw [min_eq_left h]
  · have bound (k : Nat) (hk : w ≤ k) : -((2 ^ k : Nat) : Int) ≤ signedOf w a ∧ signedOf w a < (2 ^ k : Nat) := by
      have grow : ((2 ^ w : Nat) : Int) ≤ (2 ^ k : Nat) := by exact_mod_cast Nat.pow_le_pow_right two_pos hk
      have rest : ((a % 2 ^ w : Nat) : Int) < (2 ^ w : Nat) := by exact_mod_cast Nat.mod_lt _ (Nat.two_pow_pos w)
      push_cast at grow rest ⊢
      have nonneg : (0 : Int) ≤ (a : Int) % 2 ^ w := Int.emod_nonneg _ (by positivity)
      unfold signedOf
      split <;> push_cast <;> constructor <;> omega
    rw [min_eq_right h, ediv_eq_sign (bound w le_rfl).1 (bound w le_rfl).2, ediv_eq_sign (bound n h).1 (bound n h).2]

theorem rotl_eq {w : Nat} (hw : 0 < w) (a n : Nat) :
    (a <<< (n % w)) % 2 ^ w + (a % 2 ^ w) >>> (w - n % w) = ((BitVec.ofNat w a).rotateLeft n).toNat := by
  have hk : n % w ≤ w := (Nat.mod_lt n hw).le
  have high : (a <<< (n % w)) % 2 ^ w = (a % 2 ^ (w - n % w)) <<< (n % w) := by
    have full : 2 ^ w = 2 ^ (w - n % w) * 2 ^ (n % w) := by rw [← pow_add, Nat.sub_add_cancel hk]
    rw [Nat.shiftLeft_eq, Nat.shiftLeft_eq, full, Nat.mul_mod_mul_right]
  have low : (a % 2 ^ w) >>> (w - n % w) < 2 ^ (n % w) := by
    rw [Nat.shiftRight_eq_div_pow, Nat.div_lt_iff_lt_mul (Nat.two_pow_pos _), ← pow_add, Nat.add_sub_cancel' hk]
    exact Nat.mod_lt _ (Nat.two_pow_pos w)
  rw [BitVec.toNat_rotateLeft, BitVec.toNat_ofNat, high, Nat.shiftLeft_add_eq_or_of_lt low, ← high]
  congr 1
  rw [Nat.shiftLeft_eq, Nat.shiftLeft_eq, Nat.mod_mul_mod]

/-! ### Fields (R116) -/

theorem fieldAt_eq (b : Nat) : bitsOf b 7 0 = fieldAt b := rfl

theorem fieldLen_eq (w b : Nat) : min (bitsOf b 15 8) w = fieldLen w b := by
  rw [bitsOf, Nat.shiftRight_eq_div_pow]
  rfl

theorem bfeCode_eq (t : Ty) (a b : Nat) :
    bfeCode t a b =
      let f : BitVec (fieldLen (Ty.bits t) b) := (BitVec.ofNat (Ty.bits t) a >>> fieldAt b).setWidth _
      if Ty.signed t then (f.signExtend (Ty.bits t)).toNat else f.toNat := by
  unfold bfeCode
  simp only [fieldAt_eq, fieldLen_eq]
  generalize fieldLen (Ty.bits t) b = len
  have field : (BitVec.ofNat (Ty.bits t) a >>> fieldAt b).setWidth len =
      BitVec.ofNat len (((a % 2 ^ Ty.bits t) >>> fieldAt b) % 2 ^ len) := by
    apply BitVec.eq_of_toNat_eq
    simp
  rw [field]
  generalize ((a % 2 ^ Ty.bits t) >>> fieldAt b) = f
  rcases Nat.eq_zero_or_pos len with rfl | hlen
  · simp [BitVec.signExtend, BitVec.toInt_zero_length, Nat.mod_one]
  · rw [if_neg hlen.ne']
    split
    · rw [signedOf_eq_toInt]
      rfl
    · simp

theorem testBit_notBits (w m i : Nat) : (notBits w m).testBit i = (decide (i < w) && !m.testBit i) := by
  rw [notBits_eq, BitVec.testBit_toNat, BitVec.getLsbD_not, BitVec.getLsbD_ofNat]
  by_cases h : i < w <;> simp [h]

theorem bfiCode_eq (w a b c : Nat) : bfiCode w a b c = (BitVec.ofFnLE (fun i : Fin w =>
    if fieldAt b ≤ i ∧ i < fieldAt b + fieldLen w b then a.testBit (i - fieldAt b) else c.testBit i)).toNat := by
  apply Nat.eq_of_testBit_eq
  intro i
  simp only [bfiCode, fieldAt_eq, fieldLen_eq, BitVec.testBit_toNat, BitVec.getLsbD_ofFnLE, Nat.testBit_or, Nat.testBit_and,
    testBit_notBits, Nat.testBit_mod_two_pow, Nat.testBit_shiftLeft, Nat.testBit_two_pow_sub_one]
  by_cases hi : i < w
  · by_cases low : fieldAt b ≤ i
    · have len : i - fieldAt b < fieldLen w b ↔ i < fieldAt b + fieldLen w b := by omega
      by_cases high : i < fieldAt b + fieldLen w b <;> simp [hi, low, high, len]
    · simp [hi, low]
  · simp [hi]

/-! ### Counts and the reversal (R117) -/

theorem popCount_eq (w a : Nat) : popCount w a = ((Finset.range w).filter (fun i => a.testBit i = true)).card := by
  have nodup : ((List.range w).filter (fun i => a.testBit i)).Nodup := List.nodup_range.filter _
  rw [popCount, ← List.toFinset_card_of_nodup nodup]
  congr 1
  ext i
  simp

/-- A width is a number of its own bits. -/
theorem toNat_width (w : Nat) : ((w : Nat) : BitVec w).toNat = w := by
  change (BitVec.ofNat w w).toNat = w
  rw [BitVec.toNat_ofNat, Nat.mod_eq_of_lt Nat.lt_two_pow_self]

/-- The number of significant bits, by the powers of two on both sides. -/
theorem bitLen_bounds {n : Nat} (h : n ≠ 0) : 0 < bitLen n ∧ 2 ^ (bitLen n - 1) ≤ n ∧ n < 2 ^ bitLen n := by
  rw [bitLen, if_neg h]
  exact ⟨by omega, Nat.log2_self_le h, Nat.lt_log2_self⟩

theorem bitLen_eq {n k : Nat} (low : 2 ^ (k - 1) ≤ n) (high : n < 2 ^ k) : bitLen n = k := by
  have h : n ≠ 0 := ((Nat.two_pow_pos _).trans_le low).ne'
  obtain ⟨pos, low', high'⟩ := bitLen_bounds h
  have one := (Nat.pow_lt_pow_iff_right one_lt_two).1 (low.trans_lt high')
  have two := (Nat.pow_lt_pow_iff_right one_lt_two).1 (low'.trans_lt high)
  omega

theorem leadZeros_eq {w : Nat} (hw : 0 < w) (a : Nat) : leadZeros w a = (BitVec.ofNat w a).clz.toNat := by
  rw [leadZeros, ← BitVec.toNat_ofNat]
  generalize BitVec.ofNat w a = x
  by_cases hx : x = 0#w
  · rw [BitVec.clz_eq_iff_eq_zero.2 hx, hx, BitVec.toNat_ofNat, Nat.zero_mod, toNat_width]
    rfl
  · have low := BitVec.two_pow_sub_clz_le_toNat_of_ne_zero hw hx
    have high := BitVec.toNat_lt_two_pow_sub_clz (x := x)
    have less : x.clz.toNat < w := by
      have := BitVec.lt_def.1 (BitVec.clz_lt_iff_ne_zero.2 hx)
      rwa [toNat_width] at this
    rw [bitLen_eq (by rwa [Nat.sub_right_comm] at low) high]
    omega

/-- A search from 0 ends at the first place that stops it. -/
theorem length_takeWhile_range {p : Nat → Bool} {w k : Nat} (hk : k ≤ w) (before : ∀ i < k, p i = true) (stop : k < w → p k = false) :
    ((List.range w).takeWhile p).length = k := by
  obtain ⟨d, rfl⟩ := Nat.exists_eq_add_of_le hk
  rw [List.range_add, List.takeWhile_append_of_pos (fun i hi => before i (List.mem_range.1 hi)), List.length_append, List.length_range]
  cases d with
  | zero => simp
  | succ d => simp [List.range_succ_eq_map, stop (by omega)]

theorem trailZeros_eq (w a : Nat) : trailZeros w a = (BitVec.ofNat w a).ctz.toNat := by
  have bit {i : Nat} (hi : i < w) : (BitVec.ofNat w a).getLsbD i = a.testBit i := by
    rw [BitVec.getLsbD_ofNat, decide_eq_true hi, Bool.true_and]
  have most : (BitVec.ofNat w a).ctz.toNat ≤ w := by
    have := BitVec.le_def.1 (BitVec.clz_le (x := (BitVec.ofNat w a).reverse))
    rwa [toNat_width] at this
  refine length_takeWhile_range most (fun i hi => ?_) (fun hlt => ?_)
  · rw [← bit (by omega), BitVec.getLsbD_false_of_lt_ctz hi, Bool.not_false]
  · have nonzero : BitVec.ofNat w a ≠ 0#w := BitVec.ctz_lt_iff_ne_zero.1 (BitVec.lt_def.2 (by rwa [toNat_width]))
    rw [← bit hlt, BitVec.getLsbD_true_ctz_of_ne_zero nonzero, Bool.not_true]

/-- Adding some terms up is adding up those terms and zeros. -/
theorem foldl_add_if {α : Type} (l : List α) (p : α → Bool) (f : α → Nat) :
    l.foldl (fun r i => if p i then r + f i else r) 0 = (l.map (fun i => if p i then f i else 0)).sum := by
  have step (r : Nat) (i : α) : (if p i then r + f i else r) = r + if p i then f i else 0 := by split <;> rfl
  simp only [step, List.sum_eq_foldl, List.foldl_map]

/-- A sum of distinct powers of two has the bits that it names. -/
theorem testBit_sum_two_pow (p : Nat → Bool) (w i : Nat) :
    (∑ j ∈ Finset.range w, if p j then 2 ^ j else 0).testBit i = (decide (i < w) && p i) := by
  induction w generalizing p i with
  | zero => simp
  | succ w ih =>
    have halve : (∑ j ∈ Finset.range (w + 1), if p j then 2 ^ j else 0) =
        2 * (∑ j ∈ Finset.range w, if p (j + 1) then 2 ^ j else 0) + (p 0).toNat := by
      rw [Finset.sum_range_succ', Finset.mul_sum]
      congr 1
      · refine Finset.sum_congr rfl fun j _ => ?_
        split <;> simp [pow_succ, mul_comm]
      · cases p 0 <;> rfl
    rw [halve]
    cases i with
    | zero => cases p 0 <;> simp
    | succ i =>
      have half (n : Nat) (b : Bool) : (2 * n + b.toNat) / 2 = n := by have := b.toNat_lt; omega
      rw [Nat.testBit_succ, half, ih]
      simp

theorem testBit_foldl_two_pow (p : Nat → Bool) (w i : Nat) :
    ((List.range w).foldl (fun r j => if p j then r + 2 ^ j else r) 0).testBit i = (decide (i < w) && p i) := by
  rw [foldl_add_if, ← testBit_sum_two_pow]
  rfl

theorem revBits_eq (w a : Nat) : revBits w a = (BitVec.ofNat w a).reverse.toNat := by
  have mirror : revBits w a = ∑ j ∈ Finset.range w, if a.testBit (w - 1 - j) then 2 ^ j else 0 := by
    rw [revBits, foldl_add_if, ← Finset.sum_range_reflect]
    change ∑ j ∈ Finset.range w, _ = _
    refine Finset.sum_congr rfl fun j hj => ?_
    rw [show w - 1 - (w - 1 - j) = j by have := Finset.mem_range.1 hj; omega]
  apply Nat.eq_of_testBit_eq
  intro i
  rw [mirror, testBit_sum_two_pow (fun j => a.testBit (w - 1 - j)), BitVec.testBit_toNat, BitVec.getLsbD_reverse, BitVec.getMsbD,
    BitVec.getLsbD_ofNat]
  by_cases hi : i < w
  · simp [hi, show w - 1 - i < w by omega]
  · simp [hi]

end Sys2Proof.Proofs.Integers
end

section
/-! O1, O2, O3, O4 and O5: the integer and logic instructions, lane by lane (R107 to R112, R114 to R118). -/

namespace Sys2Proof.Proofs.Integers

open Sys2Proof Sys2Proof.Machine Sys2Proof.Claims Sys2Proof.Laws Sys2Proof.Proofs.Bits Sys2Proof.Proofs.Predicates
  Sys2Proof.Proofs.Issue

/-! ### The shapes of the integer instructions -/

/-- The meaning of an instruction. -/
abbrev Meaning := Enc → State → Host.Outcome State Fault Refusal

theorem binary_of {i : Enc → Instr} {e : Enc} (x : Meaning) {f g : Nat → Nat → Nat × Bool} (form : ∀ s, x e s = intOp2 e s f)
    (value : ∀ a b, f a b = g a b) (arm : ∀ s, exec (i e) s = x e s := by exact fun _ => rfl) : Binary i e g := by
  obtain rfl : f = g := funext₂ value
  exact computes_of (chk := none) fun s => (arm s).trans (form s)

theorem unary_of {i : Enc → Instr} {e : Enc} (x : Meaning) {f g : Nat → Nat × Bool} (form : ∀ s, x e s = intOp1 e s f)
    (value : ∀ a, f a = g a) (arm : ∀ s, exec (i e) s = x e s := by exact fun _ => rfl) : Unary i e g := by
  obtain rfl : f = g := funext value
  exact computes_of (chk := none) fun s => (arm s).trans (form s)

theorem ternary_of {i : Enc → Instr} {e : Enc} (x : Meaning) {f g : Nat → Nat → Nat → Nat} (form : ∀ s, x e s = intOp3 e s e.ty f)
    (value : ∀ a b c, f a b c = g a b c) (arm : ∀ s, exec (i e) s = x e s := by exact fun _ => rfl) : Ternary i e { o := e.b, ty := e.ty } g := by
  obtain rfl : f = g := funext fun a => funext₂ (value a)
  exact computes_of (chk := none) fun s => (arm s).trans ((form s).trans (intOp3_ty e s f))

/-- An addition or a subtraction that takes and gives a carry or a borrow. -/
theorem carry_of {i : Enc → Instr} {e : Enc} (x : Meaning) {f : Nat → Nat → Nat → Int} {out : Int → Bool} {v : Nat → Nat → Nat → Nat}
    {o : Nat → Nat → Nat → Bool} (form : ∀ s, x e s = carryOp e s f out)
    (hv : ∀ a b k, wrapBits (Ty.bits e.ty) (f a b k) = v a b k) (ho : ∀ a b k, out (f a b k) = o a b k)
    (arm : ∀ s, exec (i e) s = x e s := by exact fun _ => rfl) :
    ComputesWith (i e) e (ab e) (Ty.bytes e.ty) (Ty.bits e.ty) none false (some e.x.toNat) (fun c l vs rs =>
      let k := if (c.x.predMask e.x.toNat).getLsbD l then 1 else 0
      { v := v (srcVal vs 0) (srcVal vs 1) k, p := vs.any (fun v => v.2), rs := rs, pb := o (srcVal vs 0) (srcVal vs 1) k }) := by
  simp only [← hv, ← ho]
  exact computesWith_of (chk := none) fun s => (arm s).trans (form s)

/-! ### O1: sums, products, quotients, signs and extremes (R109 to R112) -/

theorem integerSums : IntegerSums := by
  intro e
  refine ⟨binary_of execIadd (fun _ => rfl) fun a b => ?_, binary_of execIsub (fun _ => rfl) fun a b => ?_,
    binary_of execImul (fun _ => rfl) fun a b => ?_, ternary_of execImad (fun _ => rfl) fun a b c => ?_⟩
  · rw [wrapOrSat_eq, asInt_eq, asInt_eq]
  · rw [wrapOrSat_eq, asInt_eq, asInt_eq]
  · rw [wrapBits_prod]
  · exact wrapBits_prod_add e.ty a b c

theorem integerHighHalves : IntegerHighHalves := by
  intro e
  refine ⟨binary_of execImulh (fun _ => rfl) fun a b => ?_, ternary_of execImadh (fun _ => rfl) fun a b c => ?_⟩
  · rw [highHalf_eq, prod, asInt_eq, asInt_eq]
  · rw [asInt_eq, asInt_eq, asInt_eq]
    exact highHalf_eq _ _

theorem integerCarry : IntegerCarry := by
  intro e
  refine ⟨carry_of execIaddc (v := fun a b k => (a + b + k) % 2 ^ Ty.bits e.ty) (o := fun a b k => decide (2 ^ Ty.bits e.ty ≤ a + b + k))
      (fun _ => rfl) (fun a b k => ?_) (fun a b k => ?_),
    carry_of execIsubb
      (v := fun a b k => (BitVec.ofNat (Ty.bits e.ty) a - BitVec.ofNat (Ty.bits e.ty) b - BitVec.ofNat (Ty.bits e.ty) k).toNat)
      (o := fun a b k => decide (a < b + k)) (fun _ => rfl) (wrapBits_borrow _) (fun a b k => ?_)⟩
  · exact_mod_cast wrapBits_natCast _ (a + b + k)
  · exact decide_eq_decide.2 (by norm_cast)
  · exact decide_eq_decide.2 (by omega)

theorem integerDivision : IntegerDivision := by
  intro e
  exact ⟨binary_of execIdiv (fun _ => rfl) fun a b => by rw [divCode_eq],
    binary_of execIrem (fun _ => rfl) fun a b => by rw [remCode_eq]⟩

theorem integerSigns : IntegerSigns := by
  intro e
  refine ⟨unary_of execIneg (fun _ => rfl) fun a => ?_,
    unary_of execIabs (fun _ => rfl) fun a => ?_,
    binary_of execImin (fun _ => rfl) fun a b => ?_,
    binary_of execImax (fun _ => rfl) fun a b => ?_⟩
  · rw [wrapOrSat_eq, asInt_eq]
  · rw [wrapOrSat_eq, asInt_eq, Int.natCast_natAbs]
  · rw [asInt_eq, asInt_eq]
  · rw [asInt_eq, asInt_eq]

/-- Settles O1: each instruction is the lane-by-lane form of its operation, whose value is that of the integers of its codes. -/
theorem integerArithmetic : Obligations.IntegerArithmetic :=
  ⟨integerSums, integerHighHalves, integerCarry, integerDivision, integerSigns⟩

/-! ### O2: the bitwise operations (R114) -/

/-- Settles O2: the operations are those of the codes; a complement is that of the bit vector. -/
theorem bitwiseLogic : Obligations.BitwiseLogic := by
  intro e
  exact ⟨binary_of execAnd (fun _ => rfl) fun a b => rfl,
    binary_of execOr (fun _ => rfl) fun a b => rfl,
    binary_of execXor (fun _ => rfl) fun a b => rfl,
    binary_of execAndn (fun _ => rfl) fun a b => by rw [notBits_eq],
    unary_of execNot (fun _ => rfl) fun a => by rw [notBits_eq]⟩

/-! ### O3: shifts and the rotation (R115) -/

/-- What SAR computes in a lane. -/
def sar (w a n : Nat) : Nat × Bool := (wrapBits w (signedOf w a / (2 ^ min n w : Nat)), false)

/-- What ROTL computes in a lane. -/
def rotl (w a n : Nat) : Nat × Bool := ((a <<< (n % w)) % 2 ^ w + (a % 2 ^ w) >>> (w - n % w), false)

/-- Settles O3: a shift or a rotation of a code is that of the bit vector, whatever the count. -/
theorem shifts : Obligations.Shifts := by
  intro e
  exact ⟨binary_of execShl (fun _ => rfl) fun a n => by rw [shl_eq],
    binary_of execShr (fun _ => rfl) fun a n => by rw [Nat.shiftRight_eq_div_pow],
    binary_of execSar (f := sar (Ty.bits e.ty)) (fun _ => rfl) fun a n => by rw [sar, sar_eq],
    binary_of execRotl (f := rotl (Ty.bits e.ty)) (fun _ => rfl) fun a n => by rw [rotl, rotl_eq (bits_pos _)]⟩

/-! ### O4: counts and the reversal (R117) -/

/-- Settles O4: the counts and the reversal of a code are those of the bit vector. -/
theorem bitCounts : Obligations.BitCounts := by
  intro e
  exact ⟨unary_of execPopc (fun _ => rfl) fun a => by rw [popCount_eq],
    unary_of execClz (fun _ => rfl) fun a => by rw [leadZeros_eq (bits_pos _)],
    unary_of execCtz (fun _ => rfl) fun a => by rw [trailZeros_eq],
    unary_of execBrev (fun _ => rfl) fun a => by rw [revBits_eq]⟩

/-! ### O5: fields and moves (R107, R108, R116, R118) -/

theorem bitFields : BitFields := by
  intro e
  simp only [Ternary, ← bfeCode_eq, ← bfiCode_eq]
  exact ⟨computes_of (chk := none) fun s => (rfl : exec (.bfe e) s = execBfe e s),
    computes_of (chk := none) fun s => (rfl : exec (.bfi e) s = execBfi e s)⟩

/-- RES is that of VALUE, and the flags stay (R42, R56). -/
theorem accElement_eq (t : Ty) (a : Nat) : accElement t a =
    a % 2 ^ 80 + (if t = .a80i then ((BitVec.ofNat 80 a).toInt % 255).toNat else 0) * 2 ^ 80 + a / 2 ^ 88 % 8 * 2 ^ 88 := by
  simp only [accElement, mod255, signedOf_mod, bitsOf, Nat.shiftRight_eq_div_pow, ← signedOf_eq_toInt]
  rfl

theorem mov_accumulator {e : Enc} (acc : (e.ty == .a80f || e.ty == .a80i) = true) (s : State) :
    execMov e s = runLanes e s [tySrc e e.a] (Ty.bytes e.ty) 96 none
      (fun _ vs rs => intOut vs rs (accElement e.ty (srcVal vs 0)) false) := by
  simp only [execMov, acc, if_true]

theorem mov_other {e : Enc} (acc : (e.ty == .a80f || e.ty == .a80i) = false) (s : State) :
    execMov e s = intOp1 e s (fun a => (a, false)) := by
  simp only [execMov, acc, Bool.false_eq_true, if_false]
  rfl

theorem lea_eq (a b k : Nat) (sx : Bool) :
    wrapBits 64 ((a : Int) + (if sx then signedOf 32 b else (b : Int)) * (2 ^ k : Nat)) =
      (BitVec.ofNat 64 a + (if sx then (BitVec.ofNat 32 b).signExtend 64 else BitVec.ofNat 64 b) <<< k).toNat := by
  have scale : BitVec.ofNat 64 (2 ^ k) = BitVec.twoPow 64 k := BitVec.eq_of_toNat_eq (by simp)
  have index : BitVec.ofInt 64 (if sx then signedOf 32 b else (b : Int)) =
      if sx then (BitVec.ofNat 32 b).signExtend 64 else BitVec.ofNat 64 b := by
    rw [signedOf_eq_toInt]
    cases sx
    · exact BitVec.ofInt_natCast _ _
    · rfl
  rw [wrapBits_eq_toNat, BitVec.ofInt_add, BitVec.ofInt_mul, index, BitVec.ofInt_natCast, BitVec.ofInt_natCast,
    BitVec.shiftLeft_eq_mul_twoPow, scale]

theorem moves : Moves := by
  intro e
  refine ⟨fun plainTy => ?_, fun acc => ?_,
    computesWith_of (chk := none) fun s => (rfl : exec (.sel e) s = execSel e s),
    binary_of execLea (fun _ => rfl) fun a b => ?_⟩
  · exact unary_of execMov (mov_other (by simpa using plainTy)) fun a => rfl
  · simp only [← accElement_eq]
    have bytes : Ty.bytes e.ty = 12 := by rcases acc with h | h <;> rw [h] <;> rfl
    have run := mov_accumulator (e := e) (by simpa using acc)
    rw [bytes] at run
    exact computes_of (chk := none) fun s => (rfl : exec (.mov e) s = execMov e s).trans (run s)
  · exact congrArg (·, false) (lea_eq a b _ _)

/-- Settles O5: fields bit by bit, MOV by the kind of its type, SEL and LEA as they stand. -/
theorem fieldsAndMoves : Obligations.FieldsAndMoves := ⟨bitFields, moves⟩

end Sys2Proof.Proofs.Integers
end

section
/-! O7 and O9: the floating-point instructions lane by lane, their special sources, and the order of values (R121 to R131). -/

namespace Sys2Proof.Proofs.Floats

open Sys2Proof Sys2Proof.Machine Sys2Proof.Claims Sys2Proof.Laws Sys2Proof.Proofs.Bits Sys2Proof.Proofs.Predicates
  Sys2Proof.Proofs.Rounding Sys2Proof.Proofs.Integers

/-! ### The shapes of the floating-point instructions -/

/-- The rounding modes in the order of their codes (R45). -/
theorem modeOf_eq (e : Enc) : modeOf e = rm e := by
  have code : e.mod.toNat % 8 < 8 := Nat.mod_lt _ (by decide)
  unfold modeOf rm
  generalize e.mod.toNat % 8 = k at code
  interval_cases k <;> rfl

/-- Elements of a pair of 16 bits each (R130). -/
theorem pairElem_eq (t : Ty) (w k : Nat) : pairElem t w k = half t w k := by rw [pairElem, Nat.shiftRight_eq_div_pow, half]

theorem funary_of {i : Enc → Instr} {e : Enc} (x : Meaning) {f : RMode → Word32 → Val → Rounded} (form : ∀ s, x e s = fpOp1 e s f)
    (arm : ∀ s, exec (i e) s = x e s := by exact fun _ => rfl) : FUnary i e (f (rm e)) := by
  rw [← modeOf_eq]
  exact computes_of (chk := none) fun s => (arm s).trans (form s)

/-! ### Sums and products (R121, R122, R130) -/

theorem floatSums : FloatSums := by
  intro e
  simp only [← modeOf_eq, ← pairElem_eq]
  exact ⟨computes_of (chk := some _) fun s => (rfl : exec (.fadd e) s = execFadd e s),
    computes_of (chk := some _) fun s => (rfl : exec (.fsub e) s = execFsub e s),
    computes_of (chk := some _) fun s => (rfl : exec (.fmul e) s = execFmul e s),
    computes_of (chk := some _) fun s => (rfl : exec (.ffma e) s = execFfma e s),
    computes_of (chk := some _) fun s => (rfl : exec (.fdot2 e) s = execFdot2 e s)⟩

/-! ### The functions of R126 to R129 -/

theorem floatFunctions : FloatFunctions := by
  intro e
  refine ⟨funary_of execFrnd (fun _ => rfl), funary_of execFsqrt (fun _ => rfl),
    funary_of (f := fun mode rs a => divVals e.ty mode rs (.fin false 1 0) a) execFrcp (fun _ => rfl), funary_of execFrsq (fun _ => rfl),
    funary_of execFexp2 (fun _ => rfl), funary_of execFlog2 (fun _ => rfl), funary_of execFsin (fun _ => rfl),
    funary_of execFcos (fun _ => rfl), ?_, ?_⟩
  · rw [← modeOf_eq]
    exact computes_of (chk := none) fun s => (rfl : exec (.fdiv e) s = execFdiv e s)
  · simp only [← modeOf_eq, ← signedOf_eq_toInt]
    exact computes_of (chk := none) fun s => (rfl : exec (.fscale e) s = execFscale e s)

theorem functionSpecials : FunctionSpecials := by
  intro t f mode rs n k m raw x i hf ht
  have inf := fun mode => round_inf hf ht mode rs
  refine ⟨rfl, inf .rne n, rfl, rfl, inf mode false, rfl, inf mode true, fun hm => ?_, rfl, inf mode false, rfl, rfl, fun hx => ?_, rfl, rfl,
    rfl, rfl, rfl⟩
  · simp [log2Val, hm]
  · simp [sinpiVal, hx]

/-! ### AADD (R131) -/

/-- The element and the rounding state of AADD, in either type. -/
theorem aaddElem_eq (t : Ty) (mode : RMode) (rs : Word32) (a b : Nat) (pois : Bool) :
    aaddElem t mode rs a b pois =
      let x := valOf .a80f (a % 2 ^ 80)
      let y := valOf .a80f (b % 2 ^ 80)
      let r := Machine.round .a80f mode rs (sumVals mode [x, y]).v
      let i := clampTo true .a80i (asInt .a80i a + asInt .a80i b)
      let isF := t == .a80f
      let v := if isF then r.code else i.1
      let ovf := if isF then (valOf .a80f r.code).isInf && !x.isInf && !y.isInf else i.2
      let bit := fun k (also : Bool) => if a.testBit k || b.testBit k || also then 2 ^ k else 0
      (v + (if isF then 0 else (asInt .a80i v % 255).toNat * 2 ^ 80) + bit 88 pois + bit 89 ovf + bit 90 false,
        if isF then r.rs else rs) := by
  have value (c : Nat) : signedOf 80 (c % 2 ^ 80) = asInt .a80i c := by rw [signedOf_mod, asInt_eq]; rfl
  have low (c : Nat) : mod255 (signedOf 80 c) = (asInt .a80i c % 255).toNat := by rw [asInt_eq]; rfl
  by_cases ht : t = .a80f
  · simp only [aaddElem, ht, if_true, beq_self_eq_true, Nat.add_zero]
  · simp only [aaddElem, if_neg ht, beq_false_of_ne ht, Bool.false_eq_true, if_false, value, low, clampTo_eq, if_true]

theorem accumulatorAdd : AccumulatorAdd := by
  intro e
  have run (s : State) : exec (.aadd e) s = execAadd e s := rfl
  unfold execAadd at run
  have shadow := computes_of run
  have checked {α : Type} (q : α) : (if e.ty = .a80f then some q else none).isSome = (e.ty == .a80f) := by
    by_cases h : e.ty = .a80f <;> simp [h]
  simp only [checked, aaddElem_eq, modeOf_eq] at shadow
  exact shadow

/-- Settles O9: every instruction is the lane-by-lane form of its function; the special sources are branches of the functions. -/
theorem floatArithmetic : Obligations.FloatArithmetic := ⟨floatSums, floatFunctions, functionSpecials, accumulatorAdd⟩

/-! ### FMIN, FMAX and FCLASS (R123, R125) -/

theorem fpPick_eq (t : Ty) (larger : Bool) (a b : Nat) : fpPick t larger a b = pick t larger a b := by
  simp only [fpPick, pick]
  cases (valOf t a).isNaN <;> cases (valOf t b).isNaN <;> cases larger <;> rfl

theorem floatExtremes : FloatExtremes := by
  intro e
  simp only [← fpPick_eq]
  exact ⟨computes_of (chk := none) fun s => (rfl : exec (.fmin e) s = execFmin e s),
    computes_of (chk := none) fun s => (rfl : exec (.fmax e) s = execFmax e s)⟩

/-- One class, and its bit (R125). -/
theorem fpClass_eq (t : Ty) (c : Nat) : fpClass t c = 2 ^ (match valOf t c with
    | .nan sig => if sig then 8 else 9
    | .inf neg => if neg then 0 else 7
    | .fin neg m _ =>
      if m = 0 then (if neg then 3 else 4)
      else if (Ty.fmt t).any (fun f => decide (m < 2 ^ f.fb)) then (if neg then 2 else 5)
      else (if neg then 1 else 6)) := by
  unfold fpClass
  cases valOf t c with
  | nan sig => cases sig <;> rfl
  | inf neg => cases neg <;> rfl
  | fin neg m _ =>
    cases Ty.fmt t <;> simp only [Option.any_none, Option.any_some] <;> cases neg <;> split_ifs <;> rfl

theorem floatClass : FloatClass := by
  intro e
  have run : ∀ s, exec (.fclass e) s = runLanes e s [tySrc e e.a] 4 32 none
      (fun _ vs rs => intOut vs rs (fpClass e.ty (srcVal vs 0)) false) := fun s => (rfl : exec (.fclass e) s = execFclass e s)
  simp only [fpClass_eq] at run
  exact computes_of (chk := none) run

/-! ### The order of values (R123, R124) -/

/-- In a unit at or below its last bit, a finite value is a whole number of units. -/
theorem units_fin {n : Bool} {m : Nat} {e e0 : Int} (h : e0 ≤ e) : ((Val.fin n m e).units e0 : ℚ) * 2 ^ e0 = rat (.fin n m e) := by
  by_cases hm : m = 0
  · subst hm
    cases n <;> simp [Val.units, rat]
  · exact units_mul_pow (by simpa [Val.expo, hm] using h) rfl

theorem rat_eq_zero {n : Bool} {m : Nat} {e : Int} : rat (.fin n m e) = 0 ↔ m = 0 := by
  have scale : (2 : ℚ) ^ e ≠ 0 := zpow_ne_zero e two_ne_zero
  cases n <;> simp [rat, scale]

/-- The order that FMIN and FMAX ask: that of the rationals, and −0 below +0. -/
theorem valLt_fin {n k : Bool} {m m' : Nat} {e e' : Int} : valLt (.fin n m e) (.fin k m' e') = true ↔
    rat (.fin n m e) < rat (.fin k m' e') ∨ m = 0 ∧ m' = 0 ∧ n = true ∧ k = false := by
  have pos : (0 : ℚ) < 2 ^ min e e' := by positivity
  have hx := units_fin (n := n) (m := m) (min_le_left e e')
  have hy := units_fin (n := k) (m := m') (min_le_right e e')
  rw [← rat_eq_zero (n := n) (e := e), ← rat_eq_zero (n := k) (e := e'), ← hx, ← hy, mul_lt_mul_iff_left₀ pos, mul_eq_zero, mul_eq_zero]
  simp only [valLt, pos.ne', or_false, Bool.or_eq_true, Bool.and_eq_true, decide_eq_true_eq, beq_iff_eq, Bool.not_eq_true', Int.cast_lt,
    Int.cast_eq_zero]
  generalize (Val.fin n m e).units (min e e') = x, (Val.fin k m' e').units (min e e') = y
  constructor
  · rintro (h | ⟨⟨⟨rfl, rfl⟩, hn⟩, hk⟩)
    · exact .inl h
    · exact .inr ⟨rfl, rfl, hn, hk⟩
  · rintro (h | ⟨rfl, rfl, hn, hk⟩)
    · exact .inl h
    · exact .inr ⟨⟨⟨rfl, rfl⟩, hn⟩, hk⟩

/-- FCMP compares the rationals. -/
theorem valCmp_fin {n k : Bool} {m m' : Nat} {e e' : Int} : valCmp (.fin n m e) (.fin k m' e') =
    if rat (.fin n m e) < rat (.fin k m' e') then .lt else if rat (.fin k m' e') < rat (.fin n m e) then .gt else .eq := by
  by_cases zero : m = 0 ∧ m' = 0
  · obtain ⟨rfl, rfl⟩ := zero
    simp [valCmp, rat]
  · have split : valCmp (.fin n m e) (.fin k m' e') = if valLt (.fin n m e) (.fin k m' e') then .lt
        else if valLt (.fin k m' e') (.fin n m e) then .gt else .eq := by
      unfold valCmp
      split
      · next h1 h2 => exact absurd ⟨(Val.fin.inj h1).2.1, (Val.fin.inj h2).2.1⟩ zero
      · rfl
    have drop (a b : Bool) : ¬(m = 0 ∧ m' = 0 ∧ a = true ∧ b = false) := fun h => zero ⟨h.1, h.2.1⟩
    have drop' (a b : Bool) : ¬(m' = 0 ∧ m = 0 ∧ a = true ∧ b = false) := fun h => zero ⟨h.2.1, h.1⟩
    simp only [split, valLt_fin, drop, drop', or_false]

/-- A three-way comparison tells each of its cases apart. -/
theorem compare_cases {x y : ℚ} {o : Ordering} (h : o = if x < y then .lt else if y < x then .gt else .eq) :
    (o = .lt ↔ x < y) ∧ (o = .gt ↔ y < x) ∧ (o = .eq ↔ x = y) := by
  subst h
  rcases lt_trichotomy x y with h | rfl | h
  · simp [h, h.not_gt, h.ne]
  · simp
  · simp [h, h.not_gt, h.ne']

theorem orderOfValues : OrderOfValues := by
  intro a b ha hb
  obtain ⟨n, m, e, rfl⟩ := (isFin_iff a).mp ha
  obtain ⟨k, m', e', rfl⟩ := (isFin_iff b).mp hb
  obtain ⟨lt, gt, eq⟩ := compare_cases (valCmp_fin (n := n) (m := m) (e := e) (k := k) (m' := m') (e' := e'))
  refine ⟨lt, gt, eq, fun h => valLt_fin.2 (.inl h), fun h => ?_, fun e e' => ?_⟩
  · rw [← Bool.not_eq_true, valLt_fin]
    rintro (h' | ⟨rfl, rfl, -⟩)
    · exact h.not_gt h'
    · simp [rat] at h
  · rw [← Bool.not_eq_true, valLt_fin, valLt_fin]
    simp [rat]

/-- Settles O7: FMIN, FMAX and FCLASS value by value; the orders compare whole numbers of a common unit. -/
theorem floatOrder : Obligations.FloatOrder := ⟨floatExtremes, orderOfValues, floatClass⟩

end Sys2Proof.Proofs.Floats
end

section
/-! O10: conversions, packing and block quantisation (R132 to R140). -/

namespace Sys2Proof.Proofs.Conversions

open Sys2Proof Sys2Proof.Machine Sys2Proof.Claims Sys2Proof.Laws Sys2Proof.Proofs.Bits Sys2Proof.Proofs.Predicates
  Sys2Proof.Proofs.Rounding Sys2Proof.Proofs.Integers Sys2Proof.Proofs.Floats

/-! ### Conversions of values (R133, R139, R140) -/

theorem convert_eq (t : Ty) (mode : RMode) (rs : Word32) (v : Val) : convert t mode rs v = conv t mode rs v := by
  unfold convert conv
  cases v.isSNaN
  · simp
  · rfl

/-- A finite value converts as it rounds. -/
theorem conv_fin (t : Ty) (mode : RMode) (rs : Word32) (n : Bool) (m : Nat) (x : Int) :
    conv t mode rs (.fin n m x) = Machine.round t mode rs (.fin n m x) := by
  rw [← convert_eq]
  rfl

/-- The lane of CVT. -/
theorem fpOut_poisoned (vs : List (Nat × Bool)) (r : Rounded) (acc : Bool) :
    (if acc && anyPoison vs then { fpOut vs r false with v := (fpOut vs r false).v + 2 ^ 88 } else fpOut vs r false) =
      { v := r.code + (if acc = true ∧ vs.any (fun v => v.2) = true then 2 ^ 88 else 0), p := vs.any (fun v => v.2), fl := r.fl, rs := r.rs } := by
  simp only [fpOut, anyPoison]
  by_cases hp : vs.any (fun v => v.2) = true <;> cases acc <;> simp [hp]

theorem cvt_computes (e : Enc) :
    let sty := tyAt (styCode e.mod e.x)
    Computes (.cvt e) e [{ o := e.a, ty := sty }] (Ty.bytes e.ty) (if e.ty = .a80f then 96 else Ty.bits e.ty) false (fun _ vs rs =>
      let r := conv e.ty (rm e) rs (valOf sty (if sty = .a80f then srcVal vs 0 % 2 ^ 80 else srcVal vs 0))
      let p := vs.any (fun v => v.2)
      { v := r.code + (if e.ty = .a80f ∧ p = true then 2 ^ 88 else 0), p := p, fl := r.fl, rs := r.rs }) := by
  have run (s : State) : exec (.cvt e) s = execCvt e s := rfl
  simp only [execCvt, fpOut_poisoned, beq_iff_eq, convert_eq, modeOf_eq] at run
  exact computes_of (chk := none) run

/-- The lane of DQBLK: the scaled value of a finite source, any other as it stands. -/
theorem dqblk_lane (e : Enc) (vs : List (Nat × Bool)) (rs : Word32) (sc : Nat) (a : Val) :
    (if sc = 255 then fpOut vs ⟨canonNaN .f32, if a.isNaN then flNV else 0, rs⟩ false
      else match a with
        | .fin n m x => fpOut vs (Machine.round .f32 (modeOf e) rs (.fin n m (x + sc - 127))) false
        | v => fpOut vs (convert .f32 (modeOf e) rs v) false) =
      rounded vs (if sc = 255 then ⟨canonNaN .f32, if a.isNaN then flNV else 0, rs⟩
        else conv .f32 (rm e) rs (timesPow a (sc - 127))) false := by
  split
  · rfl
  · cases a with
    | fin n m x => rw [timesPow, conv_fin, ← modeOf_eq, ← add_sub_assoc]; rfl
    | _ => simp only [convert_eq, modeOf_eq]; rfl

theorem dqblk_computes (e : Enc) :
    Computes (.dqblk e) e [{ o := e.a, ty := tyAt e.x.toNat }, { o := e.b, ty := .sx8 }] 4 32 false (fun _ vs rs =>
      let a := valOf (tyAt e.x.toNat) (srcVal vs 0)
      let sc := srcVal vs 1 % 256
      rounded vs (if sc = 255 then ⟨canonNaN .f32, if a.isNaN then flNV else 0, rs⟩
        else conv .f32 (rm e) rs (timesPow a (sc - 127))) false) := by
  simp only [← dqblk_lane]
  exact computes_of (chk := none) fun s => (rfl : exec (.dqblk e) s = execDqblk e s)

theorem resid_computes (e : Enc) :
    Computes (.resid e) e [{ o := e.a, ty := e.ty }] 4 32 false (plain (fun vs =>
      let a := srcVal vs 0
      let r := (asInt e.ty a % 255).toNat
      let res := a / 2 ^ 80 % 2 ^ 8
      (r + (if e.ty = .a80i ∧ (res ≠ r ∨ res = 255) then 256 else 0), false))) := by
  refine computes_of (chk := none) fun s => ?_
  change execResid e s = _
  unfold execResid plain
  congr 1
  funext _ vs rs
  by_cases h : e.ty = .a80i
  · have residue : mod255 (signedOf 80 (srcVal vs 0 % 2 ^ 80)) = (asInt e.ty (srcVal vs 0) % 255).toNat := by
      rw [signedOf_mod, asInt_eq, h]; rfl
    have stored : bitsOf (srcVal vs 0) 87 80 = srcVal vs 0 / 2 ^ 80 % 2 ^ 8 := by rw [bitsOf, Nat.shiftRight_eq_div_pow]
    simp only [residue, stored, h, true_and]
    rfl
  · simp only [h, false_and, if_false, asInt_eq]
    rfl

theorem conversionsOfValues : ConversionsOfValues := fun e => ⟨cvt_computes e, dqblk_computes e, resid_computes e⟩

/-! ### PACK and UNPK (R136, R137) -/

theorem smClean_eq (n v j : Nat) : smClean n (v >>> (n * j)) = smElem n v j := by
  simp only [smClean, smElem, Nat.shiftRight_eq_div_pow]

/-- Of a byte the low bits alone make the element. -/
theorem smClean_byte {n : Nat} (hn : n ≤ 8) (v : Nat) : smClean n (v % 256) = smElem n v 0 := by
  have low : v % 256 % 2 ^ n = v % 2 ^ n := Nat.mod_mod_of_dvd v (pow_dvd_pow 2 hn : 2 ^ n ∣ 2 ^ 8)
  simp [smClean, smElem, low]

theorem unpackElems_eq (n a : Nat) : unpackElems n a = ((List.range 8).map (fun j => smElem n a j * 2 ^ (8 * j))).sum := by
  simp only [unpackElems, smClean_eq, List.sum_eq_foldl, List.foldl_map]

theorem packElems_eq {n : Nat} (hn : n ≤ 8) (a b : Nat) : packElems n a b =
    ((List.range 8).map (fun j => smElem n (if j < 4 then a / 2 ^ (8 * j) else b / 2 ^ (8 * (j - 4))) 0 * 2 ^ (n * j))).sum := by
  have byte (j : Nat) : (if j < 4 then (a >>> (8 * j)) % 256 else (b >>> (8 * (j - 4))) % 256) =
      (if j < 4 then a / 2 ^ (8 * j) else b / 2 ^ (8 * (j - 4))) % 256 := by
    rw [Nat.shiftRight_eq_div_pow, Nat.shiftRight_eq_div_pow]
    split <;> rfl
  simp only [packElems, byte, smClean_byte hn, List.sum_eq_foldl, List.foldl_map]

theorem packingAndUnpacking : PackingAndUnpacking := by
  intro e n sm
  have narrow (h : sm) : n ≤ 8 := by
    simp only [n]
    rcases h with h | h <;> rw [h] <;> decide
  have pack (s : State) : exec (.pack e) s = execPack e s := rfl
  have unpk (s : State) : exec (.unpk e) s = execUnpk e s := rfl
  refine ⟨fun h => ?_, fun h => ?_, fun h => ?_, fun h => ?_⟩
  · simp only [← packElems_eq (narrow h)]
    exact computes_of (chk := none) fun s => (pack s).trans (if_pos h)
  · simp only [← convert_eq, ← modeOf_eq]
    exact computes_of (chk := none) fun s => (pack s).trans (if_neg h)
  · simp only [← unpackElems_eq]
    exact computes_of (chk := none) fun s => (unpk s).trans (if_pos h)
  · simp only [← convert_eq, ← pairElem_eq]
    exact computes_of (chk := none) fun s => (unpk s).trans (if_neg h)

/-! ### The scale of a block (R138) -/

/-- The rational of a magnitude m × 2^e. -/
def magRat (a : Nat × Int) : ℚ := a.1 * 2 ^ a.2

theorem magRat_eq_zero {a : Nat × Int} : magRat a = 0 ↔ a.1 = 0 := by
  have scale : (2 : ℚ) ^ a.2 ≠ 0 := zpow_ne_zero _ two_ne_zero
  simp [magRat, scale]

theorem magRat_magOf {v : Val} (h : isFin v = true) : magRat (magOf v) = |rat v| := by
  obtain ⟨n, m, e, rfl⟩ := (isFin_iff v).mp h
  cases n <;> simp [magRat, magOf, rat, abs_mul, abs_zpow]

/-- In a unit at or below its last bit, a magnitude is a whole number of units. -/
theorem shiftLeft_units (m : Nat) {e low : Int} (h : low ≤ e) : ((m <<< (e - low).toNat : Nat) : ℚ) * 2 ^ low = m * 2 ^ e := by
  have scale : (2 : ℚ) ^ (e - low).toNat * 2 ^ low = 2 ^ e := by
    rw [← zpow_natCast, ← zpow_add₀ two_ne_zero]
    congr 1
    omega
  rw [Nat.shiftLeft_eq, Nat.cast_mul, Nat.cast_pow, Nat.cast_ofNat, mul_assoc, scale]

theorem magLt_iff (a b : Nat × Int) : magLt a b = true ↔ magRat a < magRat b := by
  have pos : (0 : ℚ) < 2 ^ min a.2 b.2 := by positivity
  rw [magRat, magRat, ← shiftLeft_units a.1 (min_le_left a.2 b.2), ← shiftLeft_units b.1 (min_le_right a.2 b.2),
    mul_lt_mul_iff_left₀ pos, Nat.cast_lt]
  simp [magLt]

theorem scaleFits_iff (m : Nat) (e : Int) (f : Nat) (k : Int) : scaleFits m e f k = true ↔ (m : ℚ) * 2 ^ e ≤ f * 2 ^ k := by
  have pos : (0 : ℚ) < 2 ^ min e k := by positivity
  rw [← shiftLeft_units m (min_le_left e k), ← shiftLeft_units f (min_le_right e k), mul_le_mul_iff_left₀ pos, Nat.cast_le]
  simp [scaleFits]

/-- A magnitude lies between the powers of two that its length gives. -/
theorem bitLen_zpow {n : Nat} (h : n ≠ 0) : (2 : ℚ) ^ ((bitLen n : Int) - 1) ≤ n ∧ (n : ℚ) < 2 ^ (bitLen n : Int) := by
  obtain ⟨pos, low, high⟩ := bitLen_bounds h
  have index : (bitLen n : Int) - 1 = (bitLen n - 1 : Nat) := by omega
  rw [index, zpow_natCast, zpow_natCast]
  exact ⟨by exact_mod_cast low, by exact_mod_cast high⟩

/-- The least power of two whose multiple of F covers a magnitude. -/
theorem leastScale_spec {m f : Nat} (hm : m ≠ 0) (hf : f ≠ 0) (e : Int) :
    (m : ℚ) * 2 ^ e ≤ f * 2 ^ leastScale m e f ∧ (f : ℚ) * 2 ^ (leastScale m e f - 1) < m * 2 ^ e := by
  obtain ⟨mlow, mhigh⟩ := bitLen_zpow hm
  obtain ⟨flow, fhigh⟩ := bitLen_zpow hf
  have two : (2 : ℚ) ≠ 0 := two_ne_zero
  obtain ⟨k, hk⟩ : ∃ k : Int, k = bitLen m + e - bitLen f := ⟨_, rfl⟩
  have enough : (m : ℚ) * 2 ^ e ≤ f * 2 ^ (k + 1) := by
    calc (m : ℚ) * 2 ^ e ≤ 2 ^ (bitLen m : Int) * 2 ^ e := by gcongr
      _ = 2 ^ ((bitLen f : Int) - 1) * 2 ^ (k + 1) := by rw [← zpow_add₀ two, ← zpow_add₀ two]; congr 1; omega
      _ ≤ f * 2 ^ (k + 1) := by gcongr
  have short : (f : ℚ) * 2 ^ (k - 1) < m * 2 ^ e := by
    calc (f : ℚ) * 2 ^ (k - 1) < 2 ^ (bitLen f : Int) * 2 ^ (k - 1) := by gcongr
      _ = 2 ^ ((bitLen m : Int) - 1) * 2 ^ e := by rw [← zpow_add₀ two, ← zpow_add₀ two]; congr 1; omega
      _ ≤ m * 2 ^ e := by gcongr
  have never : scaleFits m e f (k - 1) = false := by
    rw [← Bool.not_eq_true, scaleFits_iff]
    exact short.not_ge
  simp only [leastScale, ← hk, never, Bool.false_eq_true, if_false]
  split
  · next fits => exact ⟨(scaleFits_iff _ _ _ _).1 fits, short⟩
  · next fits =>
    rw [scaleFits_iff, not_le] at fits
    exact ⟨enough, by rwa [add_sub_cancel_right]⟩

/-- The larger of a magnitude and a value's, as `blockScale` takes it. -/
def larger (a : Nat × Int) (v : Val) : Nat × Int := if magLt a (magOf v) then magOf v else a

theorem larger_spec (a : Nat × Int) (v : Val) :
    (larger a v = a ∨ larger a v = magOf v) ∧ magRat a ≤ magRat (larger a v) ∧ magRat (magOf v) ≤ magRat (larger a v) := by
  unfold larger
  split
  · next h => exact ⟨.inr rfl, ((magLt_iff _ _).1 h).le, le_rfl⟩
  · next h => exact ⟨.inl rfl, le_rfl, not_lt.1 (mt (magLt_iff _ _).2 h)⟩

/-- The largest magnitude of a list, or the start where none is larger. -/
theorem foldl_larger (vs : List Val) (a : Nat × Int) :
    (vs.foldl larger a = a ∨ ∃ v ∈ vs, vs.foldl larger a = magOf v) ∧ magRat a ≤ magRat (vs.foldl larger a) ∧
      ∀ v ∈ vs, magRat (magOf v) ≤ magRat (vs.foldl larger a) := by
  induction vs generalizing a with
  | nil => simp
  | cons v vs ih =>
    obtain ⟨one, start, new⟩ := larger_spec a v
    obtain ⟨mem, ge, all⟩ := ih (larger a v)
    refine ⟨?_, start.trans ge, List.forall_mem_cons.2 ⟨new.trans ge, all⟩⟩
    rcases mem with h | ⟨w, hw, h⟩
    · rw [List.foldl_cons, h]
      exact one.imp id fun h => ⟨v, by simp, h⟩
    · exact .inr ⟨w, by simp [hw], h⟩

theorem qblkMax_ne_zero (t : Ty) : qblkMax t ≠ 0 := by cases t <;> decide

/-- The code of a block's scale exponent, clamped (R138). -/
theorem clampScale_eq (e : Int) : (if e < 0 then (0, true) else if e > 254 then (254, true) else (e.toNat, false)) =
    ((max 0 (min 254 e)).toNat, decide (e < 0 ∨ 254 < e)) := by
  rcases lt_or_ge e 0 with low | low
  · simp [low, low.le]
  · rcases lt_or_ge 254 e with high | high
    · simp [high, high.le, low.not_gt]
    · simp [low, high, high.not_gt, low.not_gt]

theorem blockScale_finite (t : Ty) {vs : List Val} (h : vs.all isFin = true) :
    let top := vs.foldl larger (0, 0)
    blockScale t vs = if top.1 = 0 then (127, false)
      else let e := 127 + leastScale top.1 top.2 (qblkMax t)
        ((max 0 (min 254 e)).toNat, decide (e < 0 ∨ 254 < e)) := by
  have noNaN := any_false_of_isFin (p := Val.isNaN) (fun _ _ _ => rfl) h
  have noInf := any_false_of_isFin (p := Val.isInf) (fun _ _ _ => rfl) h
  simp only [blockScale, noNaN, noInf, Bool.false_eq_true, if_false, clampScale_eq]
  rfl

theorem blockScale_isLeast : BlockScale := by
  intro t vs
  obtain ⟨mem, -, all⟩ := foldl_larger vs (0, 0)
  have finite := blockScale_finite t (vs := vs)
  generalize vs.foldl larger (0, 0) = top at mem all finite
  have isAbs (h : vs.all isFin = true) {v : Val} (hv : v ∈ vs) : magRat (magOf v) = |rat v| := magRat_magOf (List.all_eq_true.1 h v hv)
  refine ⟨fun nan => by simp [blockScale, nan], fun nan inf => by simp [blockScale, nan, inf], fun h zeros => ?_, fun h some => ?_⟩
  · have zero : top.1 = 0 := by
      rcases mem with rfl | ⟨v, hv, rfl⟩
      · rfl
      · rw [← magRat_eq_zero, isAbs h hv, abs_eq_zero]
        simpa using List.any_eq_false.1 zeros v hv
    rw [finite h, if_pos zero]
  · obtain ⟨w, hw, nonzero⟩ := List.any_eq_true.1 some
    have large : top.1 ≠ 0 := by
      rw [Ne, ← magRat_eq_zero]
      have pos : 0 < |rat w| := abs_pos.2 (by simpa using nonzero)
      exact (pos.trans_le (isAbs h hw ▸ all w hw)).ne'
    obtain ⟨fits, least⟩ := leastScale_spec large (qblkMax_ne_zero t) top.2
    refine ⟨leastScale top.1 top.2 (qblkMax t), fun v hv => ?_, ?_, ?_⟩
    · rw [← isAbs h hv]
      exact (all v hv).trans fits
    · rcases mem with rfl | ⟨v, hv, rfl⟩
      · exact absurd rfl large
      · exact ⟨v, hv, by rw [← isAbs h hv]; exact least⟩
    · rw [finite h, if_neg large]

/-! ### The lanes of a block (R138) -/

/-- The element of a lane under its block's scale. -/
theorem quantise_eq (t : Ty) (mode : RMode) (rs : Word32) (sc : Nat) (a : Val) : quantise t mode rs sc a =
    if sc = 255 then conv t mode rs (if a.isNaN then a else .nan false) else conv t mode rs (timesPow a (127 - sc)) := by
  unfold quantise
  split
  · rw [convert_eq]
  · cases a with
    | fin n m x => rw [timesPow, conv_fin, ← add_sub_assoc]
    | _ => exact convert_eq _ _ _ _

theorem blockOf_eq (e : Enc) (l k : Nat) : (blockOf (e.x != 0) k == blockOf (e.x != 0) l) = sameBlock e l k := by
  unfold blockOf sameBlock
  cases e.x != 0 <;> simp

/-- The lanes of a scalar D: the lowest of `act` (R68). -/
theorem filter_head_eq (d : Opnd) (act : Mask) :
    (lanesOf act).filter (fun l => !isScalOp d || some l == (lanesOf act).head?) = computeLanes d act := by
  have nodup : (lanesOf act).Nodup := List.nodup_range.filter _
  unfold computeLanes
  cases isScalOp d
  · simp
  · generalize lanesOf act = ls at nodup
    cases ls with
    | nil => rfl
    | cons l ls =>
      have others : ∀ k ∈ ls, k ≠ l := fun k hk h => (List.nodup_cons.1 nodup).1 (h ▸ hk)
      simpa using others

/-- The state after the flags and the rounding states of QBLK. -/
def qblkFlags (e : Enc) (st : State) (c : Iss) (pop : Popped) : State :=
  let ls := computeLanes e.d c.act
  let q := qblkLane e st c pop
  let fl := (ls.filter (fun l => isScalOp e.d || (c.x.lane l).st != .helper)).foldl
    (fun a l => a ||| (q l).1.fl ||| (if (q l).2.2.2 then flST else 0)) 0
  st.modGroup c.g (fun x => ((x.skip ((lanesOf c.act).foldl (fun a l => a + (st.readSrc c.x pop { o := e.a, ty := .f32 } l).2.2) 0)).addFlags
    fl).setStates (ls.map (fun l => (l, (q l).1.rs))))

/-- The effect of QBLK: the sources popped, and each lane's pair of results put. -/
def qblkPuts (e : Enc) (s : State) (c : Iss) (t : State) : Prop :=
  ∃ st pop, s.popAll c (portsOf [{ o := e.a, ty := .f32 }]) = .ok (st, pop) ∧
    (qblkFlags e st c pop).putPairs c e.d e.b (Ty.bits e.ty) ((computeLanes e.d c.act).map (fun l =>
      let q := qblkLane e st c pop l
      ({ lane := l, v := q.1.code, p := q.2.1 }, { lane := l, v := q.2.2.1, p := q.2.1 }))) = .ok t

theorem qblk_acts (e : Enc) : Acts (.qblk e) false (qblkUses e) false e (qblkPuts e) := by
  refine acts_of _ (fun s => rfl) fun s c t h => ?_
  obtain ⟨st, pop, hpop, hput⟩ := h
  simp only [hpop]
  have block (l : Nat) : (lanesOf c.act).filter (fun k => sameBlock e l k && (c.x.lane k).st != .helper) =
      (lanesOf c.act).filter (fun k => (c.x.lane k).st != .helper && sameBlock e l k) := by simp only [Bool.and_comm]
  simp only [← hput, qblkFlags, qblkLane, List.filter_map, List.map_map, List.foldl_map, Function.comp_def, List.any_map, List.any_filter,
    List.filter_filter, Bool.and_assoc, quantise_eq, blockOf_eq, modeOf_eq, block, filter_head_eq]

theorem blockQuantisation : BlockQuantisation :=
  fun e s c st t pop hc hn hpop hput => qblk_acts e s c t hc (by simp) hn ⟨st, pop, hpop, hput⟩

/-- Settles O10: conversions by their lanes, packing by its digits, QBLK lane by lane with the least scale that covers its block. -/
theorem conversions : Obligations.Conversions := ⟨conversionsOfValues, packingAndUnpacking, blockQuantisation, blockScale_isLeast⟩

end Sys2Proof.Proofs.Conversions
end

section
/-! O11 and O12: reductions over sets of lanes, shuffles, votes, MATCH and CMPK (R141 to R150). -/

namespace Sys2Proof.Proofs.Lanes

open Sys2Proof Sys2Proof.Machine Sys2Proof.Claims Sys2Proof.Laws Sys2Proof.Proofs.Bits Sys2Proof.Proofs.Predicates
  Sys2Proof.Proofs.Integers

/-! ### Integer reductions (R147) -/

theorem fmt_none {t : Ty} (h : Ty.isFloat t = false) : Ty.fmt t = none := by simpa [Ty.isFloat] using h

/-- A code below 2^w is that of its own integer. -/
theorem wrapBits_intOf {t : Ty} {v : Nat} (h : v < 2 ^ Ty.bits t) : wrapBits (Ty.bits t) (intOf t v) = v := by
  rw [wrapBits_eq_toNat, ofInt_intOf, BitVec.toNat_ofNat, Nat.mod_eq_of_lt h]

theorem intOf_bounds (t : Ty) (v : Nat) : intLo t ≤ intOf t v ∧ intOf t v ≤ intHi t := by
  have bound : ((BitVec.ofNat (Ty.bits t) v).toNat : Int) < (2 ^ Ty.bits t : Nat) := by exact_mod_cast (BitVec.ofNat (Ty.bits t) v).isLt
  have low := BitVec.le_toInt (BitVec.ofNat (Ty.bits t) v)
  have high := BitVec.toInt_lt (x := BitVec.ofNat (Ty.bits t) v)
  rw [← asInt_eq]
  unfold asInt intLo intHi
  push_cast at *
  split <;> constructor <;> omega

/-- The least value of a list whose start bounds it. -/
theorem foldl_min_spec {α : Type} [LinearOrder α] {l : List α} (ne : l ≠ []) {a : α} (bound : ∀ x ∈ l, x ≤ a) :
    l.foldl min a ∈ l ∧ ∀ x ∈ l, l.foldl min a ≤ x := by
  obtain ⟨m, hm⟩ := Option.isSome_iff_exists.1 (List.isSome_min?_of_ne_nil ne)
  obtain ⟨mem, least⟩ := List.min?_eq_some_iff.1 hm
  rw [List.foldl_min, hm, Option.getD_some, min_eq_right (bound m mem)]
  exact ⟨mem, least⟩

/-- The code of an integer that some code of a list stands for is that code. -/
theorem wrapBits_mem {t : Ty} {vs : List Nat} (hv : ∀ v ∈ vs, v < 2 ^ Ty.bits t) {i : Int} (hi : i ∈ vs.map (intOf t)) :
    wrapBits (Ty.bits t) i ∈ vs ∧ intOf t (wrapBits (Ty.bits t) i) = i := by
  obtain ⟨w, hw, rfl⟩ := List.mem_map.1 hi
  rw [wrapBits_intOf (hv w hw)]
  exact ⟨hw, rfl⟩

theorem reduce_min {t : Ty} (ht : Ty.isFloat t = false) {vs : List Nat} (hv : ∀ v ∈ vs, v < 2 ^ Ty.bits t) (ne : vs ≠ []) :
    (reduce t 1 vs).1 ∈ vs ∧ ∀ v ∈ vs, intOf t (reduce t 1 vs).1 ≤ intOf t v := by
  have run : reduce t 1 vs = (wrapBits (Ty.bits t) ((vs.map (intOf t)).foldl min (intHi t)), 0) := by simp [reduce, ht, ne]
  obtain ⟨mem, least⟩ := foldl_min_spec (mt List.map_eq_nil_iff.1 ne) (List.forall_mem_map.2 fun v _ => (intOf_bounds t v).2)
  obtain ⟨code, value⟩ := wrapBits_mem hv mem
  rw [run]
  exact ⟨code, fun v h => value.le.trans (least _ (List.mem_map_of_mem h))⟩

theorem reduce_max {t : Ty} (ht : Ty.isFloat t = false) {vs : List Nat} (hv : ∀ v ∈ vs, v < 2 ^ Ty.bits t) (ne : vs ≠ []) :
    (reduce t 2 vs).1 ∈ vs ∧ ∀ v ∈ vs, intOf t v ≤ intOf t (reduce t 2 vs).1 := by
  have run : reduce t 2 vs = (wrapBits (Ty.bits t) ((vs.map (intOf t)).foldl max (intLo t)), 0) := by simp [reduce, ht, ne]
  obtain ⟨mem, most⟩ := foldl_min_spec (α := Intᵒᵈ) (a := intLo t) (mt List.map_eq_nil_iff.1 ne)
    (List.forall_mem_map.2 fun v _ => (intOf_bounds t v).1)
  obtain ⟨code, value⟩ := wrapBits_mem hv mem
  rw [run]
  exact ⟨code, fun v h => le_trans (α := Int) (most _ (List.mem_map_of_mem h)) value.ge⟩

theorem reduce_sum {t : Ty} (ht : Ty.isFloat t = false) (vs : List Nat) :
    reduce t 0 vs = (code t (vs.map (asInt t)).sum, 0) := by
  have sum : vs.map (asInt t) = vs.map (intOf t) := List.map_congr_left fun v _ => asInt_eq t v
  cases vs with
  | nil => simp [reduce, redIdentity, code]
  | cons v vs => rw [sum, List.sum_eq_foldl]; simp [reduce, ht, code_eq]

theorem testBit_foldl_and (vs : List Nat) (r i : Nat) :
    (vs.foldl (· &&& ·) r).testBit i = (r.testBit i && vs.all (fun v => v.testBit i)) := by
  induction vs generalizing r with
  | nil => simp
  | cons v vs ih => rw [List.foldl_cons, ih, Nat.testBit_and, List.all_cons, Bool.and_assoc]

theorem reduce_and (t : Ty) (vs : List Nat) : reduce t 3 vs =
    ((List.range (Ty.bits t)).foldl (fun r i => if vs.all (fun v => v.testBit i) then r + 2 ^ i else r) 0, 0) := by
  have run : reduce t 3 vs = (vs.foldl (· &&& ·) (2 ^ Ty.bits t - 1), 0) := by cases vs <;> rfl
  rw [run]
  congr 1
  refine Nat.eq_of_testBit_eq fun i => ?_
  rw [testBit_foldl_and, Nat.testBit_two_pow_sub_one, testBit_foldl_two_pow (fun i => vs.all (fun v => v.testBit i))]

/-- Settles O11: each operation's fold over the codes is the integer's; the extremes are codes of the list. -/
theorem integerReductions : Obligations.IntegerReductions := by
  intro t vs ht hv
  have none := fmt_none ht
  simp only [asInt_eq]
  refine ⟨reduce_sum ht vs, reduce_and t vs, by cases vs <;> rfl, by cases vs <;> rfl, fun v h => ?_, fun ne => ?_, ?_, ?_⟩
  · have ne : vs ≠ [] := List.ne_nil_of_mem h
    exact ⟨(reduce_min ht hv ne).2 v h, (reduce_max ht hv ne).2 v h⟩
  · exact ⟨(reduce_min ht hv ne).1, (reduce_max ht hv ne).1⟩
  · simp [reduce, redIdentity, none, code_eq, hi_eq]
  · simp [reduce, redIdentity, none, code_eq, lo_eq]

/-! ### Shuffles (R144, R145) -/

/-- The lane that a pick names: none where the index is out of range, or the lane is not of the group. -/
def srcOf (p : Int × Bool) : Option Nat := if p.2 && decide (0 ≤ p.1) && decide (p.1 < 32) then some p.1.toNat else none

theorem srcOf_inGroup (i : Int) (b : Bool) : srcOf (i, b) = if b then inGroup i else none := by
  cases b <;> simp [srcOf, inGroup]

theorem zeroCode_eq (t : Ty) : zeroCode t = if t = .ts8 then 0x77 else 0 := by cases t <;> rfl

theorem laneRead_eq (s : State) (c : Iss) (pop : Popped) (q : Src) (reader : Nat) (p : Int × Bool) :
    s.laneRead c pop q reader p.1 p.2 = fromLane s c pop q reader (srcOf p) := by
  simp only [State.laneRead, srcOf, zeroCode_eq, beq_iff_eq]
  split <;> rfl

theorem pickedLanes_eq (c : Iss) (pick : Nat → Nat → Int × Bool) (idx : Nat → Nat) :
    pickedLanes c pick idx = accessed c (fun l i => srcOf (pick l i)) idx := rfl

/-- With the elements that a port's index names in the window, the shuffle goes on. -/
theorem shuffleStop_none {s : State} {c : Iss} {e : Enc} {pick : Nat → Nat → Int × Bool}
    (h : indexInWindow s c e (fun l i => srcOf (pick l i))) : s.shuffleStop c e (Ty.bytes e.ty) (indexSrc e) pick = none := by
  unfold State.shuffleStop
  split
  · next k hk =>
    split
    · rfl
    · next st pop hpop =>
      obtain ⟨inside, free⟩ := h k st pop hk hpop
      simp only [pickedLanes_eq, inside, free, Bool.false_eq_true, if_false]
  · rfl

theorem shuffles_of {i : Enc → Instr} {e : Enc} (x : Meaning) {pick : Nat → Nat → Int × Bool} {src : Nat → Nat → Option Nat}
    (form : ∀ s, x e s = shuffle e s pick) (lanes : ∀ l i, srcOf (pick l i) = src l i)
    (arm : ∀ s, exec (i e) s = x e s := by exact fun _ => rfl) : Shuffles i e src := by
  obtain rfl : (fun l i => srcOf (pick l i)) = src := funext₂ lanes
  have index (c : Iss) : (if e.b = .nil then [] else [indexSrc e]).map
      (fun q => ({ o := q.o, n := Ty.bytes q.ty, lanes := c.act } : Use)) =
      (if e.b = .nil then [] else [indexSrc e]).map (fun q => { o := q.o, n := Ty.bytes e.ty, lanes := c.act }) := by
    split <;> rfl
  have fold : ({ o := e.b, ty := e.ty, raw := true } : Src) = indexSrc e := rfl
  have run (s : State) := (arm s).trans (form s)
  simp only [shuffle, laneRead_eq, beq_iff_eq, fold, index] at run
  unfold Shuffles
  refine computesAcross_of _ run fun s c ok => ?_
  simp only [shuffleStop_none ok]
  rfl

theorem shuffleSources : ShuffleSources := by
  intro e
  refine ⟨shuffles_of execShfi (fun _ => rfl) fun l i => srcOf_inGroup _ _, shuffles_of execShfx (fun _ => rfl) fun l i => ?_,
    shuffles_of execShfn (fun _ => rfl) fun l i => ?_, shuffles_of execQswp (fun _ => rfl) fun l i => srcOf_inGroup _ _,
    shuffles_of execQbc (fun _ => rfl) fun l i => ?_⟩
  · simp only [srcOf_inGroup, decide_eq_true_eq]
  · simp only [srcOf_inGroup, if_true, signedOf_eq_toInt]
  · simp only [srcOf_inGroup, decide_eq_true_eq]

/-! ### Segments and reductions over lanes (R142, R145, R147, R148) -/

theorem segStart_le (pk : Mask) (l : Nat) : segStart pk l ≤ l := by
  induction l with
  | zero => rfl
  | succ l ih =>
    unfold segStart
    split <;> omega

/-- Two lanes have the same first lane of their segment where none starts above the lower one up to the higher one. -/
theorem segStart_eq_iff (pk : Mask) (a d : Nat) :
    segStart pk a = segStart pk (a + d) ↔ ∀ k, a < k → k ≤ a + d → pk.getLsbD k = false := by
  induction d with
  | zero => simp; omega
  | succ d ih =>
    rw [← Nat.add_assoc, segStart]
    have low := segStart_le pk a
    split
    · next start =>
      refine iff_of_false (by omega) fun h => ?_
      rw [h (a + d + 1) (by omega) le_rfl] at start
      exact Bool.noConfusion start
    · next noStart =>
      rw [ih]
      refine ⟨fun h k hk hk' => ?_, fun h k hk hk' => h k hk (by omega)⟩
      rcases Nat.le_succ_iff.1 hk' with le | rfl
      · exact h k hk le
      · simpa using noStart

theorem sameSeg_eq (e : Enc) (c : Iss) (a b : Nat) : sameSeg (segOf e c) a b = oneSegment e c a b := by
  unfold sameSeg segOf oneSegment
  cases e.mod.getLsbD 3
  · simp
  · have starts : segStart (c.x.predMask e.x.toNat) a = segStart (c.x.predMask e.x.toNat) b ↔
        ∀ k, min a b < k → k ≤ max a b → (c.x.predMask e.x.toNat).getLsbD k = false := by
      rcases le_total a b with h | h
      · obtain ⟨d, rfl⟩ := Nat.exists_eq_add_of_le h
        rw [segStart_eq_iff, min_eq_left h, max_eq_right h]
      · obtain ⟨d, rfl⟩ := Nat.exists_eq_add_of_le h
        rw [eq_comm, segStart_eq_iff, min_eq_right h, max_eq_left h]
    rw [Bool.eq_iff_iff]
    simp only [if_true, beq_iff_eq, starts, predBit, Bool.not_true, Bool.false_or, List.all_eq_true, List.mem_range, Bool.not_eq_true',
      Bool.and_eq_false_imp, Bool.and_eq_true, decide_eq_true_eq, and_imp]
    refine ⟨fun h k _ => h k, fun h k low high => ?_⟩
    rcases lt_or_ge k 32 with lane | beyond
    · exact h k lane low high
    · exact BitVec.getLsbD_of_ge _ _ beyond

theorem reduceLanes_eq (s : State) (c : Iss) (pop : Popped) (e : Enc) (op : Nat) (ls : List Nat) :
    s.reduceLanes c pop (tySrc e e.a) op ls = reduced e s c pop op ls := by
  simp only [State.reduceLanes, reduced, List.map_map, List.any_map]
  rfl

/-- A reduction over the lanes that a function names. -/
theorem reduces_of {i : Enc → Instr} {e : Enc} {op : Nat} {f : State → Iss → Popped → Nat → Nat × Bool × Flags}
    {ls : Iss → Nat → List Nat} (arm : ∀ s, exec (i e) s = runInstr false (opUses [tySrc e e.a] e.d (Ty.bytes e.ty)) false e s
      (xlaneBody e.d [tySrc e e.a] (Ty.bytes e.ty) (Ty.bits e.ty) (ownSkips [tySrc e e.a]) f))
    (value : ∀ s c pop l, f s c pop l = reduced e s c pop op (ls c l)) : Reduces i e op ls := by
  obtain rfl : f = fun s c pop l => reduced e s c pop op (ls c l) := by
    funext s c pop l
    exact value s c pop l
  exact computesAcross_of _ arm fun _ _ _ => rfl

theorem reductions : Reductions := by
  intro e
  refine ⟨reduces_of (fun s => (rfl : exec (.qred e) s = execQred e s)) fun s c pop l => reduceLanes_eq _ _ _ _ _ _,
    reduces_of (fun s => (rfl : exec (.gred e) s = execGred e s)) fun s c pop l => ?_,
    reduces_of (fun s => (rfl : exec (.gscan e) s = execGscan e s)) fun s c pop l => ?_⟩
  · rw [reduceLanes_eq]
    simp only [sameSeg_eq]
    rfl
  · have order (k : Nat) : (decide (k < l) || (k == l && e.mod.toNat % 8 != 6)) =
        if e.mod.toNat % 8 = 6 then decide (k < l) else decide (k ≤ l) := by
      by_cases h : e.mod.toNat % 8 = 6
      · simp [h]
      · have inclusive : (e.mod.toNat % 8 != 6) = true := bne_iff_ne.2 h
        rw [inclusive, Bool.and_true, if_neg h, Bool.eq_iff_iff]
        simp [Nat.le_iff_lt_or_eq]
    rw [reduceLanes_eq]
    simp only [sameSeg_eq, order]
    rfl

/-! ### Votes (R146) -/

theorem mem_lanesOf {m : Mask} {l : Nat} : l ∈ lanesOf m ↔ l < 32 ∧ m.getLsbD l = true := by
  rw [lanesOf, List.mem_filter, List.mem_range]

/-- A mask is empty where no lane of the group has a bit. -/
theorem eq_zero_iff (m : Mask) : m = 0 ↔ ∀ l < 32, m.getLsbD l = false := by
  constructor
  · rintro rfl l _
    exact BitVec.getLsbD_zero
  · exact fun h => BitVec.eq_of_getLsbD_eq fun l hl => (h l hl).trans BitVec.getLsbD_zero.symm

/-- No lane of a mask has its bit in another. -/
theorem and_eq_zero (m p : Mask) : (m &&& p == 0) = (lanesOf m).all (fun l => !p.getLsbD l) := by
  rw [Bool.eq_iff_iff, beq_iff_eq, eq_zero_iff, List.all_eq_true]
  simp only [BitVec.getLsbD_and, Bool.and_eq_false_imp, mem_lanesOf, and_imp, Bool.not_eq_true']

/-- Every lane of a mask has its bit in another. -/
theorem and_not_eq_zero (m p : Mask) : (m &&& ~~~p == 0) = (lanesOf m).all (fun l => p.getLsbD l) := by
  rw [and_eq_zero, Bool.eq_iff_iff, List.all_eq_true, List.all_eq_true]
  refine forall₂_congr fun l hl => ?_
  simp [(mem_lanesOf.1 hl).1]

theorem voteOf_eq {form : Nat} (h : form ≠ 3) (hf : form < 4) (m p : Mask) : voteOf form m p =
    if form = 0 then (lanesOf m).all (fun l => p.getLsbD l) else if form = 1 then (lanesOf m).any (fun l => p.getLsbD l)
      else (lanesOf m).all (fun l => p.getLsbD l) || (lanesOf m).all (fun l => !p.getLsbD l) := by
  have any : (m &&& p != 0) = (lanesOf m).any (fun l => p.getLsbD l) := by
    rw [bne, and_eq_zero, List.not_all_eq_any_not]
    simp only [Bool.not_not]
  interval_cases form
  · exact and_not_eq_zero m p
  · exact any
  · exact congrArg₂ (· || ·) (and_not_eq_zero m p) (and_eq_zero m p)
  · exact absurd rfl h

theorem votes : Votes := by
  intro e
  have run (s : State) : exec (.vote e) s = execVote e s := rfl
  refine ⟨fun h => ?_, fun h => ?_⟩
  · refine performs_of _ (fun s => (run s).trans (if_neg h)) fun s c _ => ?_
    simp only [voteOf_eq h (Nat.mod_lt _ (by decide))]
    rfl
  · have ballot (c : Iss) : c.contributors &&& c.x.predMask (predIdxOf e.a).toNat =
        maskWith (fun l => (c.act &&& ~~~c.x.helpers).getLsbD l && predBit c (predIdxOf e.a).toNat l) :=
      (maskWith_eq fun l _ => BitVec.getLsbD_and.symm).symm
    simp only [← ballot]
    exact computesAcross_of _ (fun s => (run s).trans (if_pos h)) fun s c _ => rfl

/-! ### MATCH and CMPK (R149, R150) -/

theorem lanesOf_and (m p : Mask) : lanesOf (m &&& p) = (lanesOf m).filter (fun l => p.getLsbD l) := by
  simp only [lanesOf, List.filter_filter, BitVec.getLsbD_and, Bool.and_comm]

theorem matchAndCompact : MatchAndCompact := by
  intro e q
  refine ⟨?_, ?_⟩
  · refine computesAcross_of _ (fun s => (rfl : exec (.matchL e) s = execMatch e s)) fun s c _ => ?_
    simp only [maskWhere, List.filter_map, List.map_map, List.any_map, Function.comp_def, List.map_id']
    rfl
  · refine computesAcross_of _ (fun s => (rfl : exec (.cmpk e) s = execCmpk e s)) fun s c _ => ?_
    simp only [lanesOf_and, zeroCode_eq]
    rfl

/-- Settles O12: each form by the lanes that it reads; a segment is what no start divides. -/
theorem crossLane : Obligations.CrossLane := ⟨votes, shuffleSources, reductions, matchAndCompact⟩

end Sys2Proof.Proofs.Lanes
end

section
/-! O17: trap entry does not leave the whole group as the completion of its instructions left it: the log entry of a captured group is a write, and a
write wakes the MWAIT that watches its line (R190, R432). -/

namespace Sys2Proof.Proofs.TrapEntry

open Sys2Proof Sys2Proof.Machine Sys2Proof.Claims

/-- A wait of MWAIT on the line of an address, at the group's entry. -/
def watching (pa : Nat) : Wait :=
  { kind := .mwait 0 pa 4 1 0 0 65536 none (lineOf pa) none false, m := ~~~0, pc := 0, prio := 0x800 }

/-- The machine with one resident group, captured into a log that begins on the line that the group's MWAIT watches. -/
def watchedLog : State :=
  { State.reset.probe.modGroup 1 (fun x => { x with wait := some (watching 4096) }) with
    caps := [{ base := 4096, size := 4096, launch := some 1 }] }

/-- The entry of the probe's group. -/
def probeEntry : Ent := { pc := 0, prio := 0x800, mask := ~~~0 }

theorem watchedLog_trappable :
    trappable watchedLog 1 { probeGroup with wait := some (watching 4096) } probeEntry (~~~0) := by
  decide +kernel

/-- The wait of group 1 in the state that an outcome gives. -/
def waitLeft : Host.Outcome State Fault Refusal → Option Wait
  | .next t => (t.group? 1).bind Group.wait
  | _ => none

/-- Trap entry leaves the group's MWAIT woken: the entry of the log was written to the line that it watches. -/
theorem trapEntry_wakes : waitLeft (exec (.trapEntry 1 0x012 (~~~0) 0) watchedLog) = some (watching 4096).wake := by decide +kernel

/-- Refutes O17: a captured group that waits in an MWAIT on the line of its log's next entry takes TRAP, and its wait is woken. -/
theorem not_trapEntry : ¬Obligations.TrapEntry := by
  rintro ⟨entry, -, -⟩
  obtain ⟨t, y, issues, group, ⟨fields, -, -, -⟩, -⟩ := entry watchedLog 1 { probeGroup with wait := some (watching 4096) } probeEntry 0x012
    (~~~0) 0 watchedLog_trappable (by decide) rfl
  have kept : y.wait = some (watching 4096) := congrArg Group.wait fields
  have woken := trapEntry_wakes
  simp only [issues, waitLeft, group, Option.bind_some, kept, Option.some.injEq] at woken
  exact absurd woken (by decide)

end Sys2Proof.Proofs.TrapEntry
end

section
/-! Facts about the lanes of a group: a lane's record once some lanes have been changed, and the masks of lanes in a state (R157, R159). -/

namespace Sys2Proof.Proofs.Flow

open Sys2Proof Sys2Proof.Machine Sys2Proof.Laws Sys2Proof.Proofs.Bits Sys2Proof.Proofs.Lanes

theorem lane_modLane (x : Group) (k l : Nat) (f : Lane → Lane) : (x.modLane k f).lane l = if l = k then f (x.lane k) else x.lane l := by
  split
  next h => subst h; exact cget_cput_self _ _ _ _
  next h => exact cget_cput_ne _ _ h _

/-- A change that says all it has to say the first time, made to every lane of a list. -/
theorem lane_foldl_modLane {f : Lane → Lane} (again : ∀ r, f (f r) = f r) (ls : List Nat) (x : Group) (l : Nat) :
    (ls.foldl (fun x l => x.modLane l f) x).lane l = if l ∈ ls then f (x.lane l) else x.lane l := by
  induction ls generalizing x with
  | nil => simp
  | cons k ls ih =>
    rw [List.foldl_cons, ih, lane_modLane]
    by_cases h : l = k
    · subst h
      simp [again]
    · simp [h]

/-- Changes to lanes change nothing but lanes. -/
theorem foldl_modLane_eq (f : Lane → Lane) (ls : List Nat) (x : Group) :
    ls.foldl (fun x l => x.modLane l f) x = { x with lanes := (ls.foldl (fun x l => x.modLane l f) x).lanes } := by
  induction ls generalizing x with
  | nil => rfl
  | cons k ls ih => rw [List.foldl_cons, ih]; rfl

theorem getLsbD_lanesIn (x : Group) (p : LaneSt → Bool) (l : Nat) :
    (x.lanesIn p).getLsbD l = (decide (l < 32) && p (x.lane l).st) := by
  simp only [Group.lanesIn, getLsbD_maskOf, List.mem_filter, List.mem_range, Bool.decide_and, Bool.decide_eq_true]
  cases decide (l < 32) <;> rfl

/-- A mask is that of the list of its lanes. -/
theorem maskOf_lanesOf (m : Mask) : maskOf (lanesOf m) = m := by
  refine BitVec.eq_of_getLsbD_eq fun l hl => ?_
  rw [getLsbD_maskOf]
  simp [mem_lanesOf, hl]

theorem lanesOf_nodup (m : Mask) : (lanesOf m).Nodup := List.nodup_range.filter _

end Sys2Proof.Proofs.Flow
end

section
/-! O16: NOP, YIELD, SLEEP, HBEAT and EXIT (R152, R159 to R163, R205). -/

namespace Sys2Proof.Proofs.Flow

open Sys2Proof Sys2Proof.Machine Sys2Proof.Claims Sys2Proof.Laws Sys2Proof.Proofs.Bits Sys2Proof.Proofs.Lanes

/-! ### The lanes of an EXIT -/

/-- Lanes take items: each the one that it is paired with, counted from `next`. -/
def refillAll (x : Group) (next : Nat) (ps : List (Nat × Nat)) : Group := ps.foldl (fun x p => x.refill p.1 (next + p.2)) x

theorem lane_refill (x : Group) (k item l : Nat) : (x.refill k item).lane l =
    if l = k then { x.lane k with item := BitVec.ofNat 32 item, age := (x.lane k).age + 1, rstk := [] } else x.lane l :=
  lane_modLane x k l (fun r => { r with item := BitVec.ofNat 32 item, age := r.age + 1, rstk := [] })

theorem getLsbD_eos_refill (x : Group) (k item : Nat) {l : Nat} (hl : l < 32) :
    (x.refill k item).sr.eos.getLsbD l = (x.sr.eos.getLsbD l && decide (l ≠ k)) := by
  simp [Group.refill, Group.modLane, hl, Nat.sub_eq_zero_iff_le]
  grind

/-- A lane that takes no item keeps its record. -/
theorem lane_refillAll_of_notMem (x : Group) (next : Nat) (ps : List (Nat × Nat)) {l : Nat} (h : l ∉ ps.map Prod.fst) :
    (refillAll x next ps).lane l = x.lane l := by
  induction ps generalizing x with
  | nil => rfl
  | cons p ps ih =>
    simp only [List.map_cons, List.mem_cons, not_or] at h
    rw [refillAll, List.foldl_cons, ← refillAll, ih _ h.2, lane_refill, if_neg h.1]

/-- A lane's `%eos` bit stays clear while lanes take items. -/
theorem eos_refillAll_of_clear (x : Group) (next : Nat) (ps : List (Nat × Nat)) {l : Nat} (hl : l < 32) (h : x.sr.eos.getLsbD l = false) :
    (refillAll x next ps).sr.eos.getLsbD l = false := by
  induction ps generalizing x with
  | nil => exact h
  | cons p ps ih => exact ih _ (by rw [getLsbD_eos_refill _ _ _ hl, h, Bool.false_and])

/-- A lane takes the item that it is paired with. -/
theorem refillAll_of_mem (x : Group) (next : Nat) (ps : List (Nat × Nat)) (once : (ps.map Prod.fst).Nodup) {l i : Nat} (hl : l < 32)
    (h : (l, i) ∈ ps) : (refillAll x next ps).lane l =
      { x.lane l with item := BitVec.ofNat 32 (next + i), age := (x.lane l).age + 1, rstk := [] } ∧
      (refillAll x next ps).sr.eos.getLsbD l = false := by
  induction ps generalizing x with
  | nil => cases h
  | cons p ps ih =>
    rw [List.map_cons, List.nodup_cons] at once
    obtain ⟨absent, once⟩ := once
    rw [refillAll, List.foldl_cons, ← refillAll]
    rcases List.mem_cons.1 h with rfl | h
    · exact ⟨by rw [lane_refillAll_of_notMem _ _ _ absent, lane_refill, if_pos rfl],
        eos_refillAll_of_clear _ _ _ hl (by rw [getLsbD_eos_refill _ _ _ hl, decide_eq_false (by simp), Bool.and_false])⟩
    · have other : l ≠ p.1 := fun e => absent (e ▸ List.mem_map_of_mem h)
      obtain ⟨lane, eos⟩ := ih (x.refill p.1 (next + p.2)) once h
      exact ⟨by rw [lane, lane_refill, if_neg other], eos⟩

/-- Taking items changes no lane's state. -/
theorem lane_refillAll_st (x : Group) (next : Nat) (ps : List (Nat × Nat)) (l : Nat) :
    ((refillAll x next ps).lane l).st = (x.lane l).st := by
  induction ps generalizing x with
  | nil => rfl
  | cons p ps ih =>
    rw [refillAll, List.foldl_cons, ← refillAll, ih, lane_refill]
    split
    next h => subst h; rfl
    next => rfl

theorem getLsbD_quadsOf (m : Mask) {l : Nat} (hl : l < 32) :
    (quadsOf m).getLsbD l = (List.range 4).any (fun k => m.getLsbD (4 * (l / 4) + k)) := by
  rw [quadsOf, getLsbD_maskOf, Bool.eq_iff_iff]
  simp [hl, Nat.mul_comm 4]

/-- The lanes of `act` that take no item while their quad keeps a live lane: those that become helpers. -/
def toHelpers (x : Group) (act fill : Mask) : Mask := act &&& ~~~fill &&& quadsOf ((x.live &&& ~~~act) ||| fill)

/-- The lanes of `act` that take no item, and the helpers, of quads without a live lane: those that become empty. -/
def toEmpties (x : Group) (act fill : Mask) : Mask :=
  (act &&& ~~~fill &&& ~~~quadsOf ((x.live &&& ~~~act) ||| fill)) ||| (x.helpers &&& ~~~quadsOf ((x.live &&& ~~~act) ||| fill))

/-- What becomes of the record of a lane that exits and stays in a live quad. -/
def asHelper (r : Lane) : Lane := { r with st := .helper, item := 0xFFFFFFFF, rstk := [] }

/-- What becomes of the record of a lane that becomes empty. -/
def asEmpty (r : Lane) : Lane := { r with st := .empty }

/-- The lanes of `act` that take the next items at an EXIT. -/
def filled (x : Group) (act : Mask) (avail : Nat) : List Nat := (lanesOf (act &&& x.live)).take avail

/-- The group when they have taken them. -/
def refilled (x : Group) (act : Mask) (next avail : Nat) : Group :=
  refillAll x next ((filled x act avail).zip (List.range (filled x act avail).length))

theorem lanesIn_refilled (x : Group) (act : Mask) (next avail : Nat) (p : LaneSt → Bool) :
    (refilled x act next avail).lanesIn p = x.lanesIn p := by
  simp only [Group.lanesIn, refilled, lane_refillAll_st]

/-- A lane after EXIT: it has taken an item, exited to be a helper or empty, or been a helper of a quad without a live lane. -/
theorem lane_exitLanes (x : Group) (act m : Mask) (next avail : Nat) (pc rpc : BitVec 24) (prio rprio : BitVec 12) (l : Nat) :
    let y := refilled x act next avail
    let fill := maskOf (filled x act avail)
    let helped := if l ∈ lanesOf (toHelpers y act fill) then asHelper (y.lane l) else y.lane l
    (x.exitLanes act m next avail pc prio rpc rprio).lane l = if l ∈ lanesOf (toEmpties y act fill) then asEmpty helped else helped := by
  intro y fill helped
  change ((lanesOf (toEmpties y act fill)).foldl (fun x l => x.modLane l asEmpty)
    ((lanesOf (toHelpers y act fill)).foldl (fun x l => x.modLane l asHelper) y)).lane l = _
  rw [lane_foldl_modLane (f := asEmpty) (fun _ => rfl), lane_foldl_modLane (f := asHelper) (fun _ => rfl)]

theorem sr_exitLanes (x : Group) (act m : Mask) (next avail : Nat) (pc rpc : BitVec 24) (prio rprio : BitVec 12) :
    (x.exitLanes act m next avail pc prio rpc rprio).sr = (refilled x act next avail).sr := by
  change ((lanesOf _).foldl (fun x l => Group.modLane x l asEmpty) ((lanesOf _).foldl (fun x l => Group.modLane x l asHelper) _)).sr = _
  rw [foldl_modLane_eq, foldl_modLane_eq]
  rfl

/-- The record and the `%eos` bit of a lane that has taken an item. -/
theorem refilled_of_mem {x : Group} {act : Mask} {avail l : Nat} (next : Nat) (h : l ∈ filled x act avail) :
    (refilled x act next avail).lane l = { x.lane l with
      item := BitVec.ofNat 32 (next + (filled x act avail).idxOf l), age := (x.lane l).age + 1, rstk := [] } ∧
    (refilled x act next avail).sr.eos.getLsbD l = false := by
  refine refillAll_of_mem x next _ ?_ (mem_lanesOf.1 (List.mem_of_mem_take h)).1 ?_
  · simp only [List.map_fst_zip, List.length_range, le_refl]
    exact (lanesOf_nodup _).sublist (List.take_sublist _ _)
  · rw [List.mem_iff_getElem]
    have at_ := List.idxOf_lt_length_of_mem h
    exact ⟨(filled x act avail).idxOf l, by simpa using at_, by simp [List.getElem_idxOf]⟩

theorem lane_refilled_of_notMem {x : Group} {act : Mask} {avail l : Nat} (next : Nat) (h : l ∉ filled x act avail) :
    (refilled x act next avail).lane l = x.lane l := by
  refine lane_refillAll_of_notMem x next _ ?_
  simpa only [List.map_fst_zip, List.length_range, le_refl] using h

/-- A lane's quad keeps a live lane: one that takes an item, or lives and is not of `act`. -/
theorem getLsbD_quadsOf_stays (x : Group) (act : Mask) (next avail : Nat) {l : Nat} (hl : l < 32) :
    (quadsOf (((refilled x act next avail).live &&& ~~~act) ||| maskOf (filled x act avail))).getLsbD l =
      (List.range 4).any (fun k => (filled x act avail).contains (4 * (l / 4) + k) ||
        ((x.lane (4 * (l / 4) + k)).st == .live && !act.getLsbD (4 * (l / 4) + k))) := by
  rw [getLsbD_quadsOf _ hl, Group.live, lanesIn_refilled, Bool.eq_iff_iff, List.any_eq_true, List.any_eq_true]
  refine exists_congr fun k => and_congr_right fun hk => ?_
  have hk : 4 * (l / 4) + k < 32 := by
    have := List.mem_range.1 hk
    omega
  simp only [BitVec.getLsbD_or, BitVec.getLsbD_and, BitVec.getLsbD_not, getLsbD_lanesIn, getLsbD_maskOf, hk, decide_true, Bool.true_and,
    List.contains_eq_mem, Bool.or_comm]

theorem mem_toHelpers (x : Group) (act : Mask) (next avail : Nat) {l : Nat} (hl : l < 32) :
    l ∈ lanesOf (toHelpers (refilled x act next avail) act (maskOf (filled x act avail))) ↔
      act.getLsbD l = true ∧ l ∉ filled x act avail ∧
      (quadsOf (((refilled x act next avail).live &&& ~~~act) ||| maskOf (filled x act avail))).getLsbD l = true := by
  simp only [toHelpers, mem_lanesOf, hl, BitVec.getLsbD_and, BitVec.getLsbD_not, getLsbD_maskOf]
  simp [and_assoc]

theorem mem_toEmpties (x : Group) (act : Mask) (next avail : Nat) {l : Nat} (hl : l < 32) :
    l ∈ lanesOf (toEmpties (refilled x act next avail) act (maskOf (filled x act avail))) ↔
      ((act.getLsbD l = true ∧ l ∉ filled x act avail) ∨ (x.lane l).st = .helper) ∧
      (quadsOf (((refilled x act next avail).live &&& ~~~act) ||| maskOf (filled x act avail))).getLsbD l = false := by
  simp only [toEmpties, mem_lanesOf, hl, BitVec.getLsbD_and, BitVec.getLsbD_or, BitVec.getLsbD_not, getLsbD_maskOf, Group.helpers, lanesIn_refilled,
    getLsbD_lanesIn]
  simp
  tauto

theorem exitLanes_lanes : ExitLanes := by
  intro x act m next avail pc rpc prio rprio l hl y live refill stays quadLive
  have lane := lane_exitLanes x act m next avail pc rpc prio rprio l
  simp only [mem_toHelpers x act next avail hl, mem_toEmpties x act next avail hl, getLsbD_quadsOf_stays x act next avail hl] at lane
  change y.lane l = if ((act.getLsbD l = true ∧ l ∉ refill) ∨ (x.lane l).st = .helper) ∧ quadLive = false then
    asEmpty (if act.getLsbD l = true ∧ l ∉ refill ∧ quadLive = true then asHelper ((refilled x act next avail).lane l)
      else (refilled x act next avail).lane l)
    else (if act.getLsbD l = true ∧ l ∉ refill ∧ quadLive = true then asHelper ((refilled x act next avail).lane l)
      else (refilled x act next avail).lane l) at lane
  have ofAct (h : l ∈ refill) : act.getLsbD l = true ∧ (x.lane l).st = .live := by
    have both := (mem_lanesOf.1 (List.mem_of_mem_take h)).2
    rw [BitVec.getLsbD_and, Group.live, getLsbD_lanesIn] at both
    simpa [hl] using both
  refine ⟨fun h => ?_, fun ha hn hq => ?_, fun ha hn hq => ?_, fun ha => ?_⟩
  · obtain ⟨taken, eos⟩ := refilled_of_mem next h
    have : y.lane l = (refilled x act next avail).lane l := by simpa [h, (ofAct h).2] using lane
    rw [this, taken, show y.sr = _ from sr_exitLanes x act m next avail pc rpc prio rprio]
    exact ⟨(ofAct h).2, rfl, rfl, rfl, eos, rfl⟩
  · rw [lane]
    simp [ha, hn, hq, asHelper]
  · rw [lane]
    simp [ha, hn, hq, asEmpty]
  · have hn : l ∉ refill := fun h => by simp [(ofAct h).1] at ha
    rw [lane, lane_refilled_of_notMem next hn]
    simp only [ha, Bool.false_eq_true, false_and, false_or, if_false, apply_ite Lane.st, asEmpty]

/-! ### What EXIT issues -/

/-- Without a capture and a replay, what a group reads is what it reads. -/
theorem capRead_unlogged {s : State} (h : Unlogged s) (t : State) (g kind pc n : Nat) (vals : List (Nat × Nat × Bool)) :
    State.capRead s t g kind pc n vals = (t, vals) := by
  obtain ⟨caps, replays⟩ := h
  unfold State.capRead
  split
  next => rfl
  next x _ => simp [State.replaysTeam, State.capOf, caps, replays]

/-- Sealing a batch observes nothing. -/
theorem seal_unlogged {s : State} (h : Unlogged s) (g l : Nat) : Unlogged (s.seal g l) := by
  unfold State.seal
  split
  next => exact h
  next => simpa [Unlogged, State.mapCopies] using h

theorem any_outstanding_iff (c : Iss) :
    (sealing c).any (fun l => decide (8 ≤ (c.x.lane l).outstanding)) = true ↔ ∃ l ∈ sealing c, 8 ≤ (c.x.lane l).outstanding := by
  simp

/-- The first of the items that lanes take is the next item of the team. -/
theorem headItem (ls : List Nat) (n next : Nat) :
    (((((ls.take n).zip ((List.range n).map (fun i => next + i))).map (fun p => (p.1, p.2, false))).head?.map
      (fun (v : Nat × Nat × Bool) => v.2.1)).getD next) = next := by
  cases ls with
  | nil => simp
  | cons l ls =>
    cases n with
    | zero => rfl
    | succ n => simp [List.range_succ_eq_map]

theorem exitIssues : ExitIssues := by
  refine fun e => ⟨?_, ?_, ?_⟩
  · refine performs_of _ (fun s => (rfl : exec (.exit e) s = execExit e s)) fun s c ⟨outside, free, room, unlogged⟩ => ?_
    have go : (s.portLocked c.g c.x.core || (sealing c).any (fun l => decide (8 ≤ (c.x.lane l).outstanding))) = false := by
      rw [free, Bool.false_or, Bool.eq_false_iff, Ne, any_outstanding_iff]
      exact fun ⟨l, hl, full⟩ => absurd (room l hl) (by omega)
    have sealed : Unlogged (((lanesOf c.real).filter (fun l => decide (0 < (c.x.lane l).openN))).foldl (fun s l => s.seal c.g l) s) :=
      foldl_keeps (P := Unlogged) (fun _ l h => seal_unlogged h c.g l) _ _ unlogged
    simp only [outside, Bool.false_eq_true, if_false]
    change (if s.portLocked c.g c.x.core || (sealing c).any (fun l => decide (8 ≤ (c.x.lane l).outstanding)) then _ else _) = _
    rw [go, if_neg (by decide)]
    rw [capRead_unlogged sealed, headItem]
    rfl
  · refine heldBack_of _ (fun s => (rfl : exec (.exit e) s = execExit e s)) fun s c ⟨outside, wait⟩ => ?_
    have held : (s.portLocked c.g c.x.core || (sealing c).any (fun l => decide (8 ≤ (c.x.lane l).outstanding))) = true := by
      rwa [Bool.or_eq_true, any_outstanding_iff]
    simp only [outside, Bool.false_eq_true, if_false]
    exact if_pos held
  · refine stops_of _ (fun s => (rfl : exec (.exit e) s = execExit e s)) (fun _ _ => ?_) fun s c inside => ?_
    · simp [Stop.plain]
    · exact if_pos inside

/-- YIELD acts as the YLD hint, unless its guard is `!p15`. -/
theorem yield_performs (e : Enc) : Performs (.yield e) false (fun _ _ => []) false { e with yld := true } (fun _ _ => True)
    (fun s c => upd s c (fun x => { x with yieldEnd := some (s.cycle + 64) })) := by
  cases never : guardNever e with
  | true =>
    rintro s c ⟨⟨-, -, -, -, hg⟩, -⟩
    exact absurd (never.symm.trans hg) (by decide)
  | false =>
    have hint : ({ e with yld := e.yld || !guardNever e } : Enc) = { e with yld := true } := by rw [never, Bool.not_false, Bool.or_true]
    refine performs_of _ (fun s => ?_) fun _ _ _ => rfl
    rw [← hint]
    rfl

theorem sleep_performs (e : Enc) : Performs (.sleep e) false (uniChecks [e.a]) false e (fun s c => c.act = 0 ∨ (uni s c e.a .b32).2 = false)
    (fun s c => if c.act = 0 ∨ (uni s c e.a .b32).1 = 0 then s
      else upd s c (fun x => { x with sleepEnd := some (s.cycle + min (uni s c e.a .b32).1 (2 ^ 24)) })) := by
  refine performs_of _ (fun s => (rfl : exec (.sleep e) s = execSleep e s)) fun s c clean => ?_
  change (if c.act = 0 then Except.ok s else if (uni s c e.a .b32).2 = true then _ else if (uni s c e.a .b32).1 = 0 then Except.ok s else _) = _
  by_cases none : c.act = 0
  · simp [none]
  · have clean := clean.resolve_left none
    by_cases zero : (uni s c e.a .b32).1 = 0
    · simp [clean, zero]
    · simp only [none, clean, zero, Bool.false_eq_true, or_self, if_false]
      rfl

theorem yieldSleepHeartbeat : YieldSleepHeartbeat := by
  refine fun e => ⟨?_, yield_performs e, sleep_performs e, ?_,
    fun s g x t hg => ⟨fun at_ due => ?_, fun at_ due here => ?_, fun at_ early => ?_⟩⟩
  · exact performs_of _ (fun s => (rfl : exec (.nop e) s = execNop e s)) fun _ _ _ => rfl
  · exact performs_of _ (fun s => (rfl : exec (.hbeat e) s = execHbeat e s)) fun _ _ _ => rfl
  · refine congrArg Host.Outcome.next ((modGroup_eq _ _ _ _ hg).trans ?_)
    simp only [at_, due, if_true]
  · refine congrArg Host.Outcome.next ((modGroup_eq _ _ _ _ hg).trans ?_)
    simp only [at_, due, here, ne_eq, not_false_eq_true, and_self, if_true]
  · refine congrArg Host.Outcome.next ((modGroup_eq _ _ _ _ hg).trans ?_)
    simp only [at_, Nat.not_le.2 early, false_and, if_false]

/-- Settles O16: the lanes of an EXIT by what becomes of each; the rest by what each instruction's effect does. -/
theorem exitYieldSleep : Obligations.ExitYieldSleep := ⟨yieldSleepHeartbeat, exitIssues, exitLanes_lanes⟩

end Sys2Proof.Proofs.Flow
end

section
/-! O13 and O15: branches, calls and returns, and what stops them (R153 to R158). -/

namespace Sys2Proof.Proofs.Flow

open Sys2Proof Sys2Proof.Machine Sys2Proof.Claims Sys2Proof.Laws Sys2Proof.Proofs.Bits Sys2Proof.Proofs.Lanes

/-! ### Lanes leave their entry -/

@[simp] theorem front_setFront (x : Group) (f : List Ent) : (x.setFront f).front = f := by
  unfold Group.setFront Group.front
  cases x.handler <;> simp

@[simp] theorem setFront_setFront (x : Group) (f g : List Ent) : (x.setFront f).setFront g = x.setFront g := by
  unfold Group.setFront
  cases x.handler <;> simp

theorem insertMoves_setFront (x : Group) (f : List Ent) (ms : List Move) : (x.setFront f).insertMoves ms =
    x.setFront (ms.foldl (fun f v => insertLanes f (BitVec.ofInt 24 v.pc) v.prio ((1#32) <<< v.lane)) f) := by
  induction ms generalizing f with
  | nil => rfl
  | cons v ms ih =>
    change ((x.setFront f).setFront _).insertMoves ms = _
    rw [front_setFront, setFront_setFront, ih]
    rfl

/-- The moves of the lanes of a mask to their destinations. -/
def movesTo (taken : Mask) (dest : Nat → Int × BitVec 12) : List Move :=
  (lanesOf taken).map (fun l => { lane := l, pc := (dest l).1, prio := (dest l).2 })

/-- The group after its lanes have moved: what `branch` makes of the moves of a mask. -/
theorem moved_eq_jump (c : Iss) (taken : Mask) (dest : Nat → Int × BitVec 12) (fall : BitVec 12) (x : Group) :
    (let y := (x.setFront (removeLanes x.front c.m)).insertMoves (movesTo taken dest)
     y.setFront (insertLanes y.front (c.ent.pc + 1) fall (c.m &&& ~~~taken))) = jump c taken dest fall x := by
  simp only [insertMoves_setFront, front_setFront, setFront_setFront, jump, movesTo, List.foldl_map]

theorem maskOf_filter_eq_zero_iff (m : Mask) (p : Nat → Bool) :
    maskOf ((lanesOf m).filter p) = 0 ↔ ∀ l ∈ lanesOf m, p l = false := by
  simp only [eq_zero_iff, getLsbD_maskOf, List.mem_filter, mem_lanesOf]
  grind

/-- The lanes of a mask whose targets are no PC. -/
def offCode (taken : Mask) (dest : Nat → Int) : Mask :=
  maskOf ((lanesOf taken).filter (fun l => decide (dest l < 0 ∨ 2 ^ 24 ≤ dest l)))

theorem offCode_eq_zero_iff (taken : Mask) (dest : Nat → Int) : offCode taken dest = 0 ↔ onCode taken dest := by
  simp only [offCode, maskOf_filter_eq_zero_iff, onCode, decide_eq_false_iff_not]
  exact forall₂_congr fun l _ => by omega

theorem branch_movesTo (s : State) (c : Iss) (taken : Mask) (dest : Nat → Int × BitVec 12) (fall : BitVec 12) :
    s.branch c (movesTo taken dest) (c.m &&& ~~~taken) fall =
      if offCode taken (fun l => (dest l).1) ≠ 0 then .error (.plain cFETCH_BOUNDS (offCode taken (fun l => (dest l).1)))
      else .ok (s.modGroup c.g (jump c taken dest fall)) := by
  have bad : maskWhere (movesTo taken dest) (fun v => v.lane) (fun v => decide (v.pc < 0) || decide ((2 ^ 24 : Int) ≤ v.pc)) =
      offCode taken (fun l => (dest l).1) := by
    simp only [maskWhere, movesTo, offCode, List.filter_map, List.map_map, Function.comp_def, List.map_id', Bool.decide_or]
  have moved : (fun x : Group => (let y := (x.setFront (removeLanes x.front c.m)).insertMoves (movesTo taken dest)
     y.setFront (insertLanes y.front (c.ent.pc + 1) fall (c.m &&& ~~~taken)))) = jump c taken dest fall :=
    funext (moved_eq_jump c taken dest fall)
  simp only [State.branch, bad]
  rw [← moved]

theorem branch_onCode {s : State} {c : Iss} {taken : Mask} {dest : Nat → Int × BitVec 12} (fall : BitVec 12)
    (h : onCode taken (fun l => (dest l).1)) :
    s.branch c (movesTo taken dest) (c.m &&& ~~~taken) fall = .ok (s.modGroup c.g (jump c taken dest fall)) := by
  rw [branch_movesTo, if_neg (not_not.2 ((offCode_eq_zero_iff taken _).2 h))]

theorem branch_offCode {s : State} {c : Iss} {taken : Mask} {dest : Nat → Int × BitVec 12} (fall : BitVec 12)
    (h : ¬onCode taken (fun l => (dest l).1)) : s.branch c (movesTo taken dest) (c.m &&& ~~~taken) fall =
      .error (.plain cFETCH_BOUNDS (offCode taken (fun l => (dest l).1))) := by
  rw [branch_movesTo, if_pos ((offCode_eq_zero_iff taken _).not.2 h)]

/-! ### Uniform branches and stacks -/

theorem uniform_iff (e : Enc) (c : Iss) (dest : Nat → Int) :
    uniform e c ((lanesOf c.act).map dest) = true ↔ Claims.isUniform e c dest := by
  have one (ls : List Nat) : (ls.map dest).all (fun d => some d == (ls.map dest).head?) = true ↔ ∀ l ∈ ls, ∀ k ∈ ls, dest l = dest k := by
    cases ls with
    | nil => simp
    | cons a ls =>
      have first (l : Nat) : (some (dest l) == ((a :: ls).map dest).head?) = true ↔ dest l = dest a := by simp
      rw [List.all_eq_true, List.forall_mem_map]
      simp only [first]
      exact ⟨fun h l hl k hk => (h l hl).trans (h k hk).symm, fun h l hl => h l hl a (by simp)⟩
  simp only [uniform, Bool.or_eq_true, Bool.not_eq_true', beq_iff_eq, Bool.and_eq_true, one, Claims.isUniform, or_assoc]

theorem stackFull_iff (c : Iss) : c.stackFull = true ↔ ¬roomToCall c := by
  have room : roomToCall c ↔ ∀ l ∈ lanesOf c.act, (c.x.stack l).length < c.x.stackLimit := Iff.rfl
  simp [Iss.stackFull, room]

theorem poisoned_eq (s : State) (c : Iss) (q : Src) :
    maskWhere ((lanesOf c.act).map (fun l => (l, s.readSrc c.x [] q l))) (fun v => v.1) (fun v => v.2.2.1) =
      maskOf ((lanesOf c.act).filter (fun l => (s.readSrc c.x [] q l).2.1)) := by
  simp only [maskWhere, List.filter_map, List.map_map, Function.comp_def, List.map_id']

theorem poisoned_eq_zero_iff (s : State) (c : Iss) (q : Src) :
    maskOf ((lanesOf c.act).filter (fun l => (s.readSrc c.x [] q l).2.1)) = 0 ↔ unpoisoned s c q :=
  maskOf_filter_eq_zero_iff _ _

theorem signedOf_32 (v : Nat) : signedOf 32 v = (BitVec.ofNat 32 v).toInt := by
  simp only [signedOf, BitVec.toInt_eq_toNat_cond, BitVec.toNat_ofNat]
  split <;> split <;> omega

/-! ### What the instructions' own effects answer -/

/-- What a branch's effect answers once its own operands are good: lanes that disagree, targets off the code, or the lanes moved and what
follows. -/
def branchThen (e : Enc) (c : Iss) (dest : Nat → Int) (taken : Mask) (goes : Nat → Int × BitVec 12) (fall : BitVec 12) (after : State → State)
    (s : State) : Except Stop State :=
  if !uniform e c ((lanesOf c.act).map dest) then .error (notUniform c)
  else match s.branch c (movesTo taken goes) (c.m &&& ~~~taken) fall with
    | .error x => .error x
    | .ok s => .ok (after s)

section
variable {e : Enc} {c : Iss} {dest : Nat → Int} (taken : Mask) {goes : Nat → Int × BitVec 12} (fall : BitVec 12) (after : State → State)
  (s : State)

theorem branchThen_ok (same : Claims.isUniform e c dest) (code : onCode taken (fun l => (goes l).1)) :
    branchThen e c dest taken goes fall after s = .ok (after (s.modGroup c.g (jump c taken goes fall))) := by
  rw [branchThen, (uniform_iff e c dest).2 same, branch_onCode fall code]
  rfl

theorem branchThen_notUniform (differ : ¬Claims.isUniform e c dest) :
    branchThen e c dest taken goes fall after s = .error (.plain cUNIFORMITY c.m) := by
  rw [branchThen, Bool.eq_false_iff.2 (mt (uniform_iff e c dest).1 differ)]
  rfl

theorem branchThen_offCode (same : Claims.isUniform e c dest) (off : ¬onCode taken (fun l => (goes l).1)) :
    branchThen e c dest taken goes fall after s = .error (.plain cFETCH_BOUNDS (offCode taken (fun l => (goes l).1))) := by
  rw [branchThen, (uniform_iff e c dest).2 same, branch_offCode fall off]
  rfl

end

theorem branchThen_id (e : Enc) (c : Iss) (dest : Nat → Int) (taken : Mask) (goes : Nat → Int × BitVec 12) (fall : BitVec 12) (s : State) :
    branchThen e c dest taken goes fall id s = if !uniform e c ((lanesOf c.act).map dest) then .error (notUniform c)
      else s.branch c (movesTo taken goes) (c.m &&& ~~~taken) fall := by
  rw [branchThen]
  cases s.branch c (movesTo taken goes) (c.m &&& ~~~taken) fall <;> rfl

/-- The own effect of BRA. -/
def braBody (e : Enc) (s : State) (c : Iss) : Except Stop State :=
  branchThen e c (fun _ => target e c) c.act (fun _ => (target e c, takenPrio e)) (fallPrio e) id s

theorem exec_bra (e : Enc) (s : State) : exec (.bra e) s = runInstr false (fun _ _ => []) true e s (braBody e) := by
  change runInstr _ _ _ _ _ _ = _
  congr 1
  funext s c
  rw [braBody, branchThen_id]
  rfl

/-- The own effect of BRI. -/
def briBody (e : Enc) (s : State) (c : Iss) : Except Stop State :=
  let bad := maskOf ((lanesOf c.act).filter (fun l => (s.readSrc c.x [] (briSrc e) l).2.1))
  if bad ≠ 0 then .error (.plain cPOISON_CONSUMED bad)
  else branchThen e c (briTarget e s c) c.act (fun l => (briTarget e s c l, takenPrio e)) (fallPrio e) id s

theorem exec_bri (e : Enc) (s : State) : exec (.bri e) s = runInstr false (perLane (.opf (e.x.setWidth 3))) true e s (briBody e) := by
  change runInstr _ _ _ _ _ _ = _
  congr 1
  funext s c
  simp only [poisoned_eq, List.map_map, Function.comp_def, signedOf_32, briBody, branchThen_id]
  rfl

/-- The own effect of BEOS. -/
def beosBody (e : Enc) (s : State) (c : Iss) : Except Stop State :=
  branchThen e c (fun l => if (c.act &&& c.x.sr.eos).getLsbD l then target e c else c.ent.pc.toNat + 1) (c.act &&& c.x.sr.eos)
    (fun _ => (target e c, takenPrio e)) (fallPrio e)
    (fun s => if e.mod.getLsbD 0 then s.modGroup c.g (fun x => { x with sr := { x.sr with eos := x.sr.eos &&& ~~~(c.act &&& c.x.sr.eos) } }) else s)
    s

theorem exec_beos (e : Enc) (s : State) : exec (.beos e) s = runInstr false (fun _ _ => []) true e s (beosBody e) := rfl

/-- The own effect of CALL. -/
def callBody (e : Enc) (s : State) (c : Iss) : Except Stop State :=
  if c.stackFull then .error (.plain cCALL_DEPTH c.act)
  else branchThen e c (fun _ => target e c) c.act (fun _ => (target e c, takenPrio e)) (fallPrio e)
    (pushAll c { pc := c.ent.pc + 1, prio := fallPrio e }) s

theorem exec_call (e : Enc) (s : State) : exec (.call e) s = runInstr false (fun _ _ => []) true e s (callBody e) := rfl

/-- The own effect of CALLI. -/
def calliBody (e : Enc) (s : State) (c : Iss) : Except Stop State :=
  let bad := maskOf ((lanesOf c.act).filter (fun l => (s.readSrc c.x [] (calliSrc e) l).2.1))
  if bad ≠ 0 then .error (.plain cPOISON_CONSUMED bad)
  else if c.stackFull then .error (.plain cCALL_DEPTH c.act)
  else branchThen e c (fun l => ((s.readSrc c.x [] (calliSrc e) l).1 : Int)) c.act
    (fun l => (((s.readSrc c.x [] (calliSrc e) l).1 % 2 ^ 24 : Nat), calliPrio e)) c.ent.prio
    (pushAll c { pc := c.ent.pc + 1, prio := c.ent.prio })
    (s.modGroup c.g (fun x => x.skip ((lanesOf c.act).foldl (fun n l => n + (s.readSrc c.x [] (calliSrc e) l).2.2) 0)))

theorem exec_calli (e : Enc) (s : State) : exec (.calli e) s = runInstr false (perLane e.a) true e s (calliBody e) := by
  change runInstr _ _ _ _ _ _ = _
  congr 1
  funext s c
  simp only [poisoned_eq, List.map_map, Function.comp_def, List.foldl_map]
  rfl

/-- The own effect of RET. -/
def retBody (e : Enc) (s : State) (c : Iss) : Except Stop State :=
  if (lanesOf c.act).any (fun l => (c.x.stack l).isEmpty) then .error (.plain cRET_EMPTY c.act)
  else branchThen e c (fun l => (top c l).pc.toNat * 4096 + (top c l).prio.toNat) c.act (fun l => ((top c l).pc.toNat, (top c l).prio)) c.ent.prio
    (fun s => s.modGroup c.g (fun x => (lanesOf c.act).foldl (fun x l => x.setStack l (x.stack l).tail) x)) s

/-- Where each lane returns to, when no stack is empty. -/
theorem returns_eq {c : Iss} (full : ∀ l ∈ lanesOf c.act, c.x.stack l ≠ []) :
    ((lanesOf c.act).map (fun l => (l, (c.x.stack l).head?))).filterMap
      (fun t => t.2.map (fun r => ({ lane := t.1, pc := (r.pc.toNat : Int), prio := r.prio } : Move))) =
    movesTo c.act (fun l => ((top c l).pc.toNat, (top c l).prio)) := by
  rw [List.filterMap_map, movesTo, ← List.filterMap_eq_map]
  refine List.filterMap_congr fun l hl => ?_
  obtain ⟨r, rs, hr⟩ := List.exists_cons_of_ne_nil (full l hl)
  simp [top, hr]

theorem exec_ret (e : Enc) (s : State) : exec (.ret e) s = runInstr false (fun _ _ => []) true e s (retBody e) := by
  change runInstr _ _ _ _ _ _ = _
  congr 1
  funext s c
  have empty : ((lanesOf c.act).map (fun l => (l, (c.x.stack l).head?))).any (fun t => t.2.isNone) =
      (lanesOf c.act).any (fun l => (c.x.stack l).isEmpty) := by
    rw [List.any_map]
    exact congrArg _ (funext fun l => by simp only [Function.comp_apply]; cases c.x.stack l <;> rfl)
  simp only [empty, retBody]
  split
  next => rfl
  next some_ =>
    have full : ∀ l ∈ lanesOf c.act, c.x.stack l ≠ [] := by simpa using some_
    have dests : (movesTo c.act (fun l => ((top c l).pc.toNat, (top c l).prio))).map (fun v : Move => v.pc * 4096 + (v.prio.toNat : Int)) =
        (lanesOf c.act).map (fun l => ((top c l).pc.toNat : Int) * 4096 + ((top c l).prio.toNat : Int)) := by
      rw [movesTo, List.map_map]
      rfl
    rw [returns_eq full, dests]
    rfl

/-! ### The branches move their lanes -/

theorem branchesMove : BranchesMove := by
  refine fun e => ⟨performs_of _ (exec_bra e) ?_, performs_of _ (exec_bri e) ?_, performs_of _ (exec_beos e) ?_⟩
  · exact fun s c ⟨same, code⟩ => branchThen_ok _ _ _ s same code
  · intro s c ⟨clean, same, code⟩
    rw [briBody, (poisoned_eq_zero_iff s c _).2 clean]
    exact branchThen_ok _ _ _ s same code
  · exact fun s c ⟨same, code⟩ => branchThen_ok _ _ _ s same code

theorem roomToCall_notFull {c : Iss} (room : roomToCall c) : c.stackFull = false :=
  Bool.eq_false_iff.2 fun full => (stackFull_iff c).1 full room

theorem callsAndReturns : CallsAndReturns := by
  refine fun e => ⟨performs_of _ (exec_call e) ?_, performs_of _ (exec_calli e) ?_, performs_of _ (exec_ret e) ?_⟩
  · intro s c ⟨room, same, code⟩
    rw [callBody, roomToCall_notFull room]
    exact branchThen_ok _ _ _ s same code
  · intro s c ⟨clean, room, same⟩
    rw [calliBody, (poisoned_eq_zero_iff s c _).2 clean, roomToCall_notFull room]
    exact branchThen_ok _ _ _ _ same fun l _ => by dsimp only; omega
  · intro s c ⟨full, same⟩
    have some_ : (lanesOf c.act).any (fun l => (c.x.stack l).isEmpty) = false := by simpa using full
    rw [retBody, some_]
    exact branchThen_ok _ _ _ _ same fun l _ => by
      have := (top c l).pc.isLt
      dsimp only
      omega

/-- Settles O13: each instruction's effect is a branch of a mask's lanes, and what follows it. -/
theorem branches : Obligations.Branches := ⟨branchesMove, callsAndReturns⟩

/-! ### What stops them -/

theorem plain_stops (cause : Cause) (m : Mask) : Stop.plain cause m ≠ .hold ∧ Stop.plain cause m ≠ .pause ∧
    (∀ f, Stop.plain cause m ≠ .holdAnd f) ∧ ∀ ks, Stop.plain cause m ≠ .park ks := by
  simp [Stop.plain]

/-- One target that is no PC is none for every lane that would go to it. -/
theorem offCode_const {taken : Mask} {t : Int} (some_ : taken ≠ 0) (off : t < 0 ∨ 2 ^ 24 ≤ t) :
    ¬onCode taken (fun _ => t) ∧ offCode taken (fun _ => t) = taken := by
  have all : offCode taken (fun _ => t) = taken := by
    rw [offCode, List.filter_eq_self.2 fun _ _ => decide_eq_true off, maskOf_lanesOf]
  exact ⟨fun code => some_ (all.symm.trans ((offCode_eq_zero_iff taken _).2 code)), all⟩

/-- Settles O15: what each instruction's effect answers before a lane moves. -/
theorem branchStops : Obligations.BranchStops := by
  refine fun e => ⟨stops_of _ (exec_bra e) (fun _ _ => plain_stops _ _) ?_, stops_of _ (exec_bra e) (fun _ _ => plain_stops _ _) ?_,
    stops_of _ (exec_bri e) (fun _ _ => plain_stops _ _) ?_, stops_of _ (exec_bri e) (fun _ _ => plain_stops _ _) ?_,
    stops_of _ (exec_call e) (fun _ _ => plain_stops _ _) ?_, stops_of _ (exec_calli e) (fun _ _ => plain_stops _ _) ?_,
    stops_of _ (exec_ret e) (fun _ _ => plain_stops _ _) ?_⟩
  · exact fun s c differ => branchThen_notUniform _ _ _ s differ
  · intro s c ⟨same, some_, off⟩
    obtain ⟨out, all⟩ := offCode_const some_ off
    rw [braBody, branchThen_offCode _ _ _ s same out, all]
  · intro s c ⟨clean, same, out⟩
    rw [briBody, (poisoned_eq_zero_iff s c _).2 clean]
    exact branchThen_offCode _ _ _ s same out
  · intro s c poisoned
    exact if_pos ((poisoned_eq_zero_iff s c _).not.2 poisoned)
  · exact fun s c full => if_pos ((stackFull_iff c).2 full)
  · intro s c ⟨clean, full⟩
    rw [calliBody, (poisoned_eq_zero_iff s c _).2 clean]
    exact if_pos ((stackFull_iff c).2 full)
  · intro s c empty
    exact if_pos (by simpa using empty)

end Sys2Proof.Proofs.Flow
end

section
/-! O18: TRAP, BRK, RFT and ENDG (R164, R166, R167). -/

namespace Sys2Proof.Proofs.Flow

open Sys2Proof Sys2Proof.Machine Sys2Proof.Claims Sys2Proof.Laws Sys2Proof.Proofs.Scheduler

/-! ### TRAP, BRK and RFT -/

theorem trapAndBreak : TrapAndBreak := by
  refine fun e => ⟨?_, ?_, ?_, ?_, ?_⟩
  · refine stops_of _ (fun s => (rfl : exec (.trap e) s = execTrap e s)) (fun _ _ => by simp) fun s c some_ => ?_
    refine (if_neg some_).trans ?_
    rcases e with ⟨_, _, _, _, _, _, _, _, a, _, _⟩
    cases a <;> rfl
  · exact performs_of _ (fun s => (rfl : exec (.trap e) s = execTrap e s)) fun s c none_ => if_pos none_
  · refine stops_of _ (fun s => (rfl : exec (.brk e) s = execBrk e s)) (fun _ _ => plain_stops _ _) fun s c ⟨some_, off⟩ => ?_
    exact (if_neg some_).trans (if_neg (by simp [off]))
  · exact performs_of _ (fun s => (rfl : exec (.brk e) s = execBrk e s)) fun s c none_ => if_pos none_
  · exact ends_of _ (fun s => (rfl : exec (.brk e) s = execBrk e s)) fun s c ⟨some_, on⟩ => (if_neg some_).trans (if_pos on)

/-- The lanes of a group whose lanes change one after the other. -/
theorem lanes_foldl_modLane (f : Lane → Lane) (ls : List Nat) (x : Group) :
    (ls.foldl (fun x l => x.modLane l f) x).lanes = ls.foldl (fun t l => cput {} t l (f (cget {} t l))) x.lanes := by
  induction ls generalizing x with
  | nil => rfl
  | cons k ls ih => rw [List.foldl_cons, ih]; rfl

/-- A change that says all it has to say the first time, made to every lane's record. -/
theorem cget_foldl_lanes {f : Lane → Lane} (again : ∀ r, f (f r) = f r) (x : Group) (l : Nat) :
    cget {} ((List.range 32).foldl (fun (t : Cells Lane) l => cput {} t l (f (cget {} t l))) x.lanes) l =
      if l < 32 then f (x.lane l) else x.lane l := by
  rw [← lanes_foldl_modLane]
  exact (lane_foldl_modLane again (List.range 32) x l).trans (by simp only [List.mem_range])

/-- A lane's record with its handler stack empty. -/
def withoutHstk (r : Lane) : Lane := { r with hstk := [] }

theorem cget_clearHandlerStacks (x : Group) (l : Nat) :
    cget {} (clearHandlerStacks x.lanes) l = if l < 32 then withoutHstk (x.lane l) else x.lane l := by
  unfold clearHandlerStacks
  exact cget_foldl_lanes (f := withoutHstk) (fun _ => rfl) x l

theorem returnFromTrap_clears : ReturnFromTrap := by
  refine ⟨fun e => ⟨?_, ?_⟩, fun x skip => ⟨rfl, rfl, rfl, rfl, rfl, fun l => ?_, rfl, rfl, fun s l r hr => ?_⟩⟩
  · exact performs_of _ (fun s => (rfl : exec (.rft e) s = execRft e s)) fun s c some_ => if_neg some_
  · exact performs_of _ (fun s => (rfl : exec (.rft e) s = execRft e s)) fun s c none_ => if_pos none_
  · have lane : (x.returnFromTrap skip).lane l = cget {} (clearHandlerStacks x.lanes) l := by
      simp only [Group.returnFromTrap, Group.lane]
    simp only [lane, cget_clearHandlerStacks]
    split <;> rfl
  · simp only [List.mem_cons, List.not_mem_nil, or_false] at hr
    rcases hr with rfl | rfl | rfl | rfl | rfl <;> rfl

/-! ### A group that waits for nothing

What ends the barrier waits of other groups, writes the logs of their captures and writes records leaves a group that waits for nothing, and
every team, as they were. -/

/-- From `s` to `t` a group keeps its record, if it has it, and every team is as it was. -/
def StillFrame (g : Nat) (x : Group) (s t : State) : Prop := s.group? g = some x → t.group? g = some x ∧ t.teams = s.teams

section
variable {g : Nat} {x : Group}

namespace StillFrame

theorem of_eq {s t : State} (hg : t.groups = s.groups) (ht : t.teams = s.teams) : StillFrame g x s t :=
  fun h => ⟨by rw [State.group?, hg]; exact h, ht⟩

theorem refl (s : State) : StillFrame g x s s := of_eq rfl rfl

theorem trans {s t u : State} (h : StillFrame g x s t) (k : StillFrame g x t u) : StillFrame g x s u := fun hx =>
  ⟨(k (h hx).1).1, (k (h hx).1).2.trans (h hx).2⟩

theorem before {s t u : State} (k : StillFrame g x t u) (hg : t.groups = s.groups) (ht : t.teams = s.teams) : StillFrame g x s u :=
  (of_eq hg ht).trans k

theorem after {s t u : State} (h : StillFrame g x s t) (hg : u.groups = t.groups) (ht : u.teams = t.teams) : StillFrame g x s u :=
  h.trans (of_eq hg ht)

theorem foldl {α : Type} {f : State → α → State} (hf : ∀ s a, StillFrame g x s (f s a)) (l : List α) (s : State) :
    StillFrame g x s (l.foldl f s) :=
  foldl_keeps (P := StillFrame g x s) (fun _ a h => h.trans (hf _ a)) l s (refl s)

end StillFrame

theorem modGroup_still_ne {k : Nat} (hk : k ≠ g) (s : State) (f : Group → Group) : StillFrame g x s (s.modGroup k f) :=
  fun h => ⟨(modGroup_group?_ne s hk.symm f).trans h, modGroup_teams s k f⟩

/-- A change that leaves the record as it is, of whichever group. -/
theorem modGroup_still {f : Group → Group} (hf : f x = x) (s : State) (k : Nat) : StillFrame g x s (s.modGroup k f) := by
  by_cases hk : k = g
  · subst hk
    exact fun h => ⟨by rw [modGroup_group?_self, h, Option.map_some, hf], modGroup_teams s k f⟩
  · exact modGroup_still_ne hk s f

theorem hbmTouch_still (s : State) (pa n : Nat) (w : Bool) : StillFrame g x s (s.hbmTouch pa n w) := by
  unfold State.hbmTouch
  split <;> exact .of_eq rfl rfl

theorem recallLine_still (s : State) (ln : Nat) : StillFrame g x s (s.recallLine ln) := by
  have out : StillFrame g x s (s.dirtyOut ln) := by
    unfold State.dirtyOut
    split
    · exact hbmTouch_still _ _ _ _
    · exact .refl s
  exact out.after rfl rfl

theorem notify_still (s : State) : StillFrame g x s s.notify := by
  unfold State.notify State.putEvent
  dsimp only
  split
  · exact .of_eq rfl rfl
  · split <;> exact .of_eq rfl rfl

theorem signalErr_still (s : State) (sev : Nat) : StillFrame g x s (s.signalErr sev) := by
  have stamped : StillFrame g x s { s.notify with advTime := some s.timebase.toNat } := (notify_still s).after rfl rfl
  unfold State.signalErr
  split
  · exact .refl s
  · split
    · split
      · split
        · exact .refl s
        · exact stamped
      · exact stamped
    · exact notify_still s

theorem acquire_still {k : Nat} (hk : k ≠ g) (s : State) : StillFrame g x s (s.acquire k scTeam) := by
  unfold State.acquire
  split
  · exact .refl s
  · exact modGroup_still_ne hk _ _

/-- A table whose records change reads the changed record. -/
theorem tget?_map_snd {α : Type} (f : α → α) (t : List (Nat × α)) (k : Nat) :
    tget? (t.map (fun p => (p.1, f p.2))) k = (tget? t k).map f := by
  induction t with
  | nil => rfl
  | cons p r ih =>
    simp only [List.map_cons, tget?]
    split
    · rfl
    · exact ih

variable (hw : x.wait = none)
include hw

/-- A write wakes waits. -/
theorem noteWrite_still (s : State) (scr : Option Nat) (a n : Nat) (die : Option Nat) : StillFrame g x s (s.noteWrite scr a n die) := by
  intro h
  refine ⟨?_, rfl⟩
  have woken := tget?_map_snd (fun y : Group => { y with wait := y.wait.map (fun w =>
      if (List.range ((a + n - 1) / 128 + 1 - a / 128)).any (fun i => w.wokenBy scr (a / 128 + i) die) then w.wake else w) }) s.groups g
  refine woken.trans ?_
  rw [show tget? s.groups g = some x from h, Option.map_some, hw, Option.map_none, ← hw]

theorem homeWrite_still (s : State) (pa : Nat) (bs : List Byte) (p : Bool) : StillFrame g x s (s.homeWrite pa bs p) :=
  ((noteWrite_still hw s none pa bs.length none).trans (.foldl recallLine_still (linesOf pa bs.length) _)).trans
    (.before ((hbmTouch_still _ pa bs.length true).after rfl rfl) rfl rfl)

theorem appendErr_still (s : State) (q : ErrQ) (cap base : Nat) (r : ErrRec) (step : Word64) :
    StillFrame g x s (s.appendErr q cap base r step).1 := by
  unfold State.appendErr
  split
  · exact .refl s
  · exact homeWrite_still hw s _ _ _

theorem writeErr_still (s : State) (r : ErrRec) : StillFrame g x s (s.writeErr r) := by
  unfold State.writeErr
  dsimp only
  split
  · exact .of_eq rfl rfl
  · refine StillFrame.trans ?_ (signalErr_still _ _)
    split
    · exact .before (.after (appendErr_still hw _ _ _ _ _ _) rfl rfl) (by split <;> rfl) (by split <;> rfl)
    · exact .before (.after (appendErr_still hw _ _ _ _ _ _) rfl rfl) (by split <;> rfl) (by split <;> rfl)

theorem capAppend_still {k : Nat} (hk : k ≠ g) (s : State) (kind pc : Nat) (mask : Mask) (pay : List Byte) :
    StillFrame g x s (s.capAppend k kind pc mask pay) := by
  unfold State.capAppend
  split
  · exact .refl s
  split
  · exact .refl s
  split
  · exact .refl s
  split
  · exact .before (writeErr_still hw _ _) rfl rfl
  · exact ((homeWrite_still hw s _ _ _).trans (modGroup_still_ne hk _ _)).after rfl rfl

theorem replayDiffers_still (s : State) (y : Group) : StillFrame g x s (s.replayDiffers y) := .before (writeErr_still hw _ _) rfl rfl

theorem capRead_still {k : Nat} (hk : k ≠ g) (s : State) (kind pc n : Nat) (vals : List (Nat × Nat × Bool)) :
    StillFrame g x s (s.capRead s k kind pc n vals).1 := by
  unfold State.capRead
  dsimp only
  split
  · exact .refl s
  split
  · exact .refl s
  split
  · split
    · split
      · exact modGroup_still_ne hk s _
      · exact replayDiffers_still hw s _
    · exact replayDiffers_still hw s _
  split
  · exact capAppend_still hw hk s _ _ _ _
  · exact .refl s

theorem endBarrier_still {k : Nat} (hk : k ≠ g) (s : State) (w : Wait) (pd : BitVec 4) (act : Mask) (fail : Bool) :
    StillFrame g x s (s.endBarrier k w pd act fail) := by
  have moved := (capRead_still hw hk s 5 w.pc.toNat 8 [(lowLane act, if fail then 1 else 0, false)]).trans (modGroup_still_ne hk _
    (fun x => (x.setPred pd.toNat act (if fail then act else 0)).endWait w))
  cases fail with
  | true => exact moved
  | false => exact moved.trans (acquire_still hk _)

theorem resumeWait_still (s : State) (k : Nat) : StillFrame g x s (s.resumeWait k) := by
  intro h
  by_cases hk : k = g
  · subst hk
    have same : s.resumeWait k = s := by simp only [State.resumeWait, h, hw]
    rw [same]
    exact ⟨h, rfl⟩
  · revert h
    change StillFrame g x s (s.resumeWait k)
    unfold State.resumeWait
    split
    · exact .refl s
    split
    · split
      · split
        · exact endBarrier_still hw hk s _ _ _ _
        · exact .refl s
      · exact .refl s
    · exact .refl s

theorem releaseWaiters_still (hh : x.waitHeld = none) (s : State) (t b : Nat) (fail : Bool) : StillFrame g x s (s.releaseWaiters t b fail) := by
  refine StillFrame.foldl (fun s p => ?_) (s.teamGroups t) s
  have marked (hit hold : Bool) : StillFrame g x s (s.modGroup p.1 (fun x => { x with
      wait := if hit then x.wait.map (fun w => w.released fail) else x.wait,
      waitHeld := if hold then x.waitHeld.map (fun w => w.released fail) else x.waitHeld })) := by
    refine modGroup_still ?_ s p.1
    rcases x with ⟨⟩
    simp only at hw hh
    simp only [hw, hh, Option.map_none, ite_self]
  dsimp only
  split
  · exact (marked true _).trans (resumeWait_still hw _ _)
  · exact marked false _

theorem breakTeam_still (hh : x.waitHeld = none) {s : State} (hx : s.group? g = some x) {t : Nat} {q : Team} (hq : s.team? t = some q) :
    (s.breakTeam t).group? g = some x ∧ (s.breakTeam t).team? t = some { q with broken := true } := by
  have marked : (s.modTeam t (fun q => { q with broken := true })).group? g = some x := by
    rw [State.group?, modTeam_groups]
    exact hx
  have team : (s.modTeam t (fun q => { q with broken := true })).team? t = some { q with broken := true } := by
    simp only [State.modTeam, hq, setTeam_team?_self]
  simp only [State.breakTeam, hq]
  split
  · exact ⟨marked, team⟩
  · obtain ⟨group, teams⟩ := StillFrame.foldl (g := g) (x := x) (fun s b => releaseWaiters_still hw hh s t b true)
      (q.bars.map (fun p => p.1)) _ marked
    exact ⟨group, by rw [State.team?, teams]; exact team⟩

end

/-! ### The end of a group -/

theorem seal_spec {s : State} {g : Nat} {x : Group} (hx : s.group? g = some x) (l : Nat) :
    ∃ k out, (s.seal g l).group? g = some (x.modLane l (fun r => r.sealAs k out)) ∧ (s.seal g l).teams = s.teams := by
  refine ⟨s.nextId, s.copies.any (fun y => y.g == g && y.lane == l && y.batch.isNone), ?_⟩
  simp only [State.seal, hx]
  refine ⟨?_, by rw [modGroup_teams]; rfl⟩
  rw [modGroup_group?_self]
  exact congrArg (Option.map _) hx

/-- Sealing leaves no open copies in the lanes that are sealed. -/
theorem seals_spec (ls : List Nat) {s : State} {g : Nat} {x : Group} (hx : s.group? g = some x) :
    ∃ z, (ls.foldl (fun s l => s.seal g l) s).group? g = some z ∧ (ls.foldl (fun s l => s.seal g l) s).teams = s.teams ∧ z.pend = x.pend ∧
      ∀ l, (z.lane l).openN = if l ∈ ls then 0 else (x.lane l).openN := by
  induction ls generalizing s x with
  | nil => exact ⟨x, hx, rfl, rfl, fun l => by simp⟩
  | cons k ls ih =>
    obtain ⟨n, out, group, teams⟩ := seal_spec hx k
    obtain ⟨z, hz, same, pend, opens⟩ := ih group
    refine ⟨z, hz, same.trans teams, pend, fun l => ?_⟩
    rw [opens, lane_modLane]
    by_cases h : l = k
    · simp [h, Lane.sealAs]
    · simp [h]

theorem requeueMatrix_still {g : Nat} {x : Group} (hm : x.mats = []) (s : State) (k core : Nat) : StillFrame g x s (s.requeueMatrix k core) := by
  intro h
  by_cases hk : k = g
  · subst hk
    have same : s.requeueMatrix k core = s := by simp [State.requeueMatrix, h, hm]
    rw [same]
    exact ⟨h, rfl⟩
  · revert h
    change StillFrame g x s (s.requeueMatrix k core)
    unfold State.requeueMatrix
    split
    · exact .refl s
    split
    · exact .refl s
    · exact .before (modGroup_still_ne hk _ _) rfl rfl

/-- Giving up a group's matrix operations leaves its outstanding instructions and its lanes as they were. -/
theorem dropMatrix_spec {s : State} {g : Nat} {x : Group} (hx : s.group? g = some x) (core : Nat) :
    ∃ z, (s.dropMatrix g core).group? g = some z ∧ (s.dropMatrix g core).teams = s.teams ∧ z.pend = x.pend ∧ z.lanes = x.lanes := by
  let t := s.modCore core (fun c => { c with mq := c.mq.filter (fun o => o.g != g || (o.running && decide (3 ≤ o.kind))) })
  let kept := ((s.core core).mq.filter (fun o => o.g == g && (o.running && decide (3 ≤ o.kind)))).map (fun o => o.id)
  let z : Group := { x with mats := [], asyncMat := none, cvts := x.cvts.filter (fun q => kept.contains q.op) }
  let u := t.modGroup g (fun x => { x with mats := [], asyncMat := none, cvts := x.cvts.filter (fun q => kept.contains q.op) })
  have dropped : u.group? g = some z := by
    rw [modGroup_group?_self]
    exact congrArg (Option.map _) hx
  obtain ⟨group, teams⟩ := StillFrame.foldl (g := g) (x := z) (fun (s : State) (p : Nat × Group) => requeueMatrix_still rfl s p.1 core)
    (u.groups.filter (fun p => p.2.core == core && p.2.slot.isSome && p.2.st != .frozen && !p.2.mats.isEmpty)) u dropped
  exact ⟨z, group, teams.trans (modGroup_teams _ _ _), rfl, rfl⟩

theorem completeAll_lanes (x : Group) : x.completeAll.lanes = x.lanes :=
  foldl_keeps (P := fun y : Group => y.lanes = x.lanes) (fun y p h => (complete_frame y p).2.2.trans h) x.pend x rfl

theorem countLate_teams (s : State) (x : Group) : (s.countLate x).teams = s.teams := by
  unfold State.countLate
  split
  · rfl
  · simp

/-- The record of a group that has been ended. -/
def ended (x : Group) : Group :=
  { x with
      lanes := (List.range 32).foldl (fun (ls : Cells Lane) l => cput ({} : Lane) ls l { cget ({} : Lane) ls l with st := .empty }) x.lanes,
      frontier := [], hfrontier := [], handler := false, sketch := none, wait := none, waitHeld := none, held := false,
      sleepEnd := none, asyncMat := none, asyncWd := none,
      rf := { x.rf with lf := if x.handler then x.rf.lsave else x.rf.lf },
      sr := { x.sr with trap := {} },
      st := .draining }

theorem lane_ended (x : Group) (l : Nat) : (ended x).lane l = if l < 32 then asEmpty (x.lane l) else x.lane l := by
  have emptied := cget_foldl_lanes (f := asEmpty) (fun _ => rfl) x l
  simpa only [ended, Group.lane, asEmpty] using emptied

/-- The state in which a group has been ended, before its team is marked and its record is written. -/
def endedIn (s : State) (g : Nat) (x : Group) : State :=
  ((((List.range 32).filter (fun l => decide (0 < (x.lane l).openN))).foldl (fun s l => s.seal g l)
    ((s.countLate x).setGroup g x.completeAll)).dropMatrix g x.core).modGroup g ended

theorem endedIn_spec (s : State) (g : Nat) (x : Group) : ∃ z, (endedIn s g x).group? g = some (ended z) ∧ (endedIn s g x).teams = s.teams ∧
    z.pend = [] ∧ ∀ l, l < 32 → (z.lane l).openN = 0 := by
  obtain ⟨y, hy, teams, pend, opens⟩ := seals_spec ((List.range 32).filter (fun l => decide (0 < (x.lane l).openN)))
    (setGroup_group?_self (s.countLate x) g x.completeAll)
  obtain ⟨z, hz, teams', pend', lanes⟩ := dropMatrix_spec hy x.core
  refine ⟨z, ?_, ?_, pend'.trans pend, fun l hl => ?_⟩
  · rw [endedIn, modGroup_group?_self, hz]
    rfl
  · rw [endedIn, modGroup_teams, teams', teams, setGroup_teams, countLate_teams]
  · rw [Group.lane, lanes, ← Group.lane, opens, Group.lane, completeAll_lanes, ← Group.lane]
    simp only [List.mem_filter, List.mem_range, hl, true_and, decide_eq_true_eq, ite_eq_left_iff]
    omega

theorem endGroup_ends : EndGroup := by
  refine ⟨fun e => ⟨?_, ?_⟩, fun s g x q hx hq => ?_⟩
  · exact performs_of _ (fun s => (rfl : exec (.endg e) s = execEndg e s)) fun s c some_ => if_neg some_
  · exact performs_of _ (fun s => (rfl : exec (.endg e) s = execEndg e s)) fun s c none_ => if_pos none_
  obtain ⟨z, group, teams, pend, opens⟩ := endedIn_spec s g x
  have team : (endedIn s g x).team? x.team = some q := by
    rw [State.team?, teams]
    exact hq
  obtain ⟨group, team⟩ := breakTeam_still (x := ended z) rfl rfl group team
  let r : ErrRec := { s.groupRec x cGROUP_ENDED (if x.handler then x.sr.trap.mask else 0) (if x.handler then x.sr.trap.pc else 0) with
    scause := if x.handler then x.sr.trap.cause else 0 }
  have eq : s.endGroup g = ((endedIn s g x).breakTeam x.team).writeErr r := by
    simp only [State.endGroup, hx]
    rfl
  obtain ⟨group, same⟩ := writeErr_still (x := ended z) rfl _ r group
  rw [eq]
  refine ⟨⟨ended z, group, rfl, rfl, rfl, rfl, fun l hl => ?_, rfl, pend⟩,
    ⟨{ q with broken := true }, by rw [State.team?, same]; exact team, rfl, rfl⟩,
    _, r, rfl, rfl, (by decide : severity cGROUP_ENDED = 2), rfl, rfl, rfl⟩
  rw [lane_ended, if_pos hl]
  exact ⟨rfl, opens l hl⟩

/-- Settles O18: the end of a group by what each of its steps leaves of the group and its team; the rest by each instruction's effect. -/
theorem trapsAndReturns : Obligations.TrapsAndReturns := ⟨trapAndBreak, returnFromTrap_clears, endGroup_ends⟩

end Sys2Proof.Proofs.Flow
end

section
/-! O20: TLBI, RPLY, ERRD, WDSET, TIME and PMCRD (R171 to R176). -/

namespace Sys2Proof.Proofs.Flow

open Sys2Proof Sys2Proof.Machine Sys2Proof.Claims Sys2Proof.Laws

/-- The entries that a form of TLBI names: all, those of an address space, or those of a page of one. -/
theorem tlbiHit_eq (form : Nat) (asid : BitVec 16) (va : Nat) (t : TlbEnt) : tlbiHit form asid va t =
    (form == 0 || (t.asid == asid && (form == 1 || (t.unit != 4 && t.tag == va >>> lvlShift t.level)))) := by
  unfold tlbiHit
  split
  next h => simp [h]
  next h0 =>
    split
    next h => simp [h]
    next h1 => rw [beq_false_of_ne h0, beq_false_of_ne h1, Bool.false_or, Bool.false_or, Bool.and_assoc]

theorem tlbi_ends (e : Enc) : Ends (.tlbi e) true (uniChecks [e.a, e.b]) e
    (fun s c => c.act ≠ 0 ∧ (uni s c e.a .b64).2 = false ∧ (uni s c e.b .b64).2 = false)
    (fun s c => (s.tlbi (if e.x.toNat % 8 = 3 then some (dieOf c.x.core) else none)
      (tlbiHit (e.mod.toNat % 4) (BitVec.ofNat 16 (uni s c e.a .b64).1) ((uni s c e.b .b64).1 % 2 ^ 55))).waitOn c e .tlbi) := by
  refine ends_of _ (fun s => (rfl : exec (.tlbi e) s = execTlbi e s)) fun s c ⟨some_, cleanA, cleanB⟩ => (if_neg some_).trans (if_neg ?_)
  change ¬((uni s c e.a .b64).2 || (uni s c e.b .b64).2) = true
  simp [cleanA, cleanB]

theorem rply_performs (e : Enc) : Performs (.rply e) true (fun s c => { o := e.d, n := 8, lanes := c.act, dest := true } :: uniChecks [e.a, e.b] s c)
    false e (fun _ _ => True) (fun s c =>
      let a := (uni s c e.a .b64).1
      let r := s.reply (dieOf c.x.core)
        (if e.mod.getLsbD 0 then .token a else .page (BitVec.ofNat 16 a) ((uni s c e.b .b64).1 % 2 ^ 55 / 2 ^ 16))
      if c.act = 0 then s else scalTo r.1.resumeAll c e.d r.2) := by
  refine performs_of _ (fun s => (rfl : exec (.rply e) s = execRply e s)) fun s c _ => ?_
  dsimp only [ifAct]
  rw [Nat.shiftRight_eq_div_pow]
  split <;> rfl

theorem errd_performs (e : Enc) (a : BitVec 16) (hd : e.d = .rs a) :
    Performs (.errd e) true (fun _ c => [{ o := e.d, n := 64, lanes := c.act, dest := true }]) false e (fun _ _ => True) (fun s c =>
      let q := s.ctx c.x.ctx
      let bytes := if q.errq.count = 0 then List.replicate 64 0 else s.memBytes (q.desc.errqb + 64 * (q.errq.head % q.desc.errqn)) 64
      let t := upd s c (fun x => x.rswrite a.toNat 64 (leNat bytes) false)
      if c.act = 0 then s
      else if e.mod.getLsbD 0 then t.modCtx c.x.ctx (fun q => { q with errq := if q.errq.count = 0 then q.errq else
        { q.errq with head := (q.errq.head + 1) % q.desc.errqn, count := q.errq.count - 1 } })
      else t) := by
  refine performs_of _ (fun s => (rfl : exec (.errd e) s = execErrd e s)) fun s c _ => ?_
  simp only [ifAct, hd]
  split <;> rfl

theorem wdset_performs (e : Enc) : Performs (.wdset e) true (uniChecks [e.a]) false e (fun s c => c.act = 0 ∨ (uni s c e.a .b64).2 = false)
    (fun s c =>
      let a := (uni s c e.a .b64).1
      if c.act = 0 then s
      else upd s c (fun x => { x with wd := { x.wd with
        armed := a != 0, w := 0, interval := min a (2 ^ 20) * 1024, expired := false,
        second := if e.mod.getLsbD 0 then none else x.wd.second } })) := by
  refine performs_of _ (fun s => (rfl : exec (.wdset e) s = execWdset e s)) fun s c clean => ?_
  by_cases none_ : c.act = 0
  · simp [none_, ifAct]
  · refine (if_neg none_).trans ((if_neg ?_).trans ?_)
    · exact Bool.eq_false_iff.1 (clean.resolve_left none_)
    · simp only [none_, if_false]
      rfl

theorem privilegedInstructions : PrivilegedInstructions := by
  refine fun e => ⟨?_, rply_performs e, errd_performs e, wdset_performs e, fun s g x w hg hw hk => ?_⟩
  · have ends := tlbi_ends e
    simp only [State.tlbi, tlbiHit_eq] at ends
    exact ends
  · refine congrArg Host.Outcome.next ((modGroup_eq _ _ _ _ hg).trans ?_)
    simp only [hw, hk, if_true]

/-- Without a capture and a replay, a value that a group observes is that value. -/
theorem observed_unlogged {s : State} (h : Unlogged s) (c : Iss) (v : Nat) : s.observed c v = (s, v) := by
  simp only [State.observed, capRead_unlogged h, List.head?_cons, Option.map_some, Option.getD_some]

theorem timeAndCounters : TimeAndCounters := by
  refine fun e => ⟨?_, ?_⟩
  · refine performs_of _ (fun s => (rfl : exec (.timeI e) s = execTime e s)) fun s c unlogged => ?_
    simp only [ifAct, observed_unlogged unlogged]
    split <;> rfl
  · refine performs_of _ (fun s => (rfl : exec (.pmcrd e) s = execPmcrd e s)) fun s c ⟨unlogged, clean⟩ => ?_
    by_cases none_ : c.act = 0
    · simp [none_, ifAct]
    · refine (if_neg none_).trans ((if_neg ?_).trans ?_)
      · exact Bool.eq_false_iff.1 (clean.resolve_left none_)
      · simp only [observed_unlogged unlogged, none_, if_false]
        rfl

/-- Settles O20: each instruction by its own effect. -/
theorem privilegedOperations : Obligations.PrivilegedOperations := ⟨privilegedInstructions, timeAndCounters⟩

end Sys2Proof.Proofs.Flow
end

section
/-! How a command of the ring is carried out in a READY module with room in its completion ring (R440, R441). -/

namespace Sys2Proof.Proofs.Commands

open Sys2Proof Sys2Proof.Machine Sys2Proof.Claims

theorem perform_ready {s : State} (room : s.ringUsed < s.ringSize) (ready : s.mstate = 6) (c : Cmd) (early : Bool)
    (f : State → Option (State × Nat × Nat)) : s.perform c early f = match f s with
      | some (t, status, result) => t.complete c.tag status result
      | none => s :=
  (if_neg (Nat.not_le.2 room)).trans (if_neg fun h => h.1 ready)

/-- A command whose body answers a state with a status and a result. -/
theorem does_of {i : Cmd → Instr} {ok : Cmd → State → Prop} {f : Cmd → State → State} {status : Nat} {result : Cmd → State → Nat}
    (early : State → Bool) (body : Cmd → State → Option (State × Nat × Nat))
    (hi : ∀ c s, exec (i c) s = .next (s.perform c (early s) (body c)))
    (hb : ∀ c s, ok c s → body c s = some (f c s, status, result c s)) : Does i ok f status result := by
  intro c s room ready h
  rw [hi, perform_ready room ready, hb c s h]

/-- A command that is done at once. -/
theorem does_of_run {i : Cmd → Instr} {ok : Cmd → State → Prop} {f : Cmd → State → State} {status : Nat} {result : Cmd → State → Nat}
    (body : Cmd → State → State × Nat × Nat) (hi : ∀ c s, exec (i c) s = runCmd c s (body c))
    (hb : ∀ c s, ok c s → body c s = (f c s, status, result c s)) : Does i ok f status result :=
  does_of (fun _ => false) (fun c s => some (body c s)) hi fun c s h => congrArg some (hb c s h)

/-- A command whose body answers nothing waits. -/
theorem waits_of {i : Cmd → Instr} {early : State → Bool} {body : Cmd → State → Option (State × Nat × Nat)}
    (hi : ∀ c s, exec (i c) s = .next (s.perform c (early s) (body c))) {c : Cmd} {s : State} (room : s.ringUsed < s.ringSize)
    (ready : s.mstate = 6) (h : body c s = none) : exec (i c) s = .next s := by
  rw [hi, perform_ready room ready, h]

theorem argOf_eq (c : Cmd) (k : Nat) : argOf c k = arg c k := rfl

theorem live_eq_true {x : CtxSt} (h : x ≠ .free ∧ x ≠ .draining) : x.live = true := by simp [CtxSt.live, h]

end Sys2Proof.Proofs.Commands
end

section
/-! O43: LTRAIN, RSTEP, SGJOIN, CAPSET, REPLAY, DBGRD, DBGWR, DBGRES and MRESET (R164, R274, R320, R387, R407, R415, R432, R433, R441, R442). -/

namespace Sys2Proof.Proofs.Commands

open Sys2Proof Sys2Proof.Machine Sys2Proof.Claims

/-- The one member of a list of members whose modules differ. -/
theorem find?_member {ms : List (Nat × Nat)} (once : (ms.map (fun m => m.1)).Nodup) {m k : Nat} (h : (m, k) ∈ ms) :
    ms.find? (fun q => q.1 == m) = some (m, k) := by
  induction ms with
  | nil => cases h
  | cons q ms ih =>
    rw [List.map_cons, List.nodup_cons] at once
    obtain ⟨absent, once⟩ := once
    rcases List.mem_cons.1 h with rfl | h
    · simp
    · have other : (q.1 == m) = false := beq_false_of_ne fun e => absent (e ▸ List.mem_map_of_mem (f := fun m => m.1) h)
      rw [List.find?_cons, other]
      exact ih once h

theorem sgjoin_does (k : Nat) : Succeeds .sgjoin (fun c s => arg c 0 < 2 ^ 16 ∧ arg c 1 ≤ 432 ∧ populated (arg c 2) (4 * arg c 1) = true ∧
      liveCtx s k ∧ (s.ctx k).stepGroup = none ∧ ((s.sgMembers (arg c 2) (arg c 1)).map (fun m => m.1)).Nodup ∧
      (s.modnum.toNat, k) ∈ s.sgMembers (arg c 2) (arg c 1))
    (fun c s =>
      let ms := s.sgMembers (arg c 2) (arg c 1)
      let t : State := { s with
        stepGroups := cput {} s.stepGroups (arg c 0) { members := ms, base := (s.ctx k).step.toNat },
        recov := { s.recov with beacons := ms.foldl (fun t m => cput 0 t m.1 s.timebase.toNat) s.recov.beacons } }
      let t := t.modCtx k (fun x => { x with stepGroup := some (arg c 0) })
      (t.hbmLeaves k).foldl (fun s m => s.markLeaf m.1 (2 ^ 9) 0) t) := by
  refine does_of_run _ (fun c s => (rfl : exec (.sgjoin c) s = execSgjoin c s))
    fun c s ⟨number, count, there, ⟨_, live⟩, free, once, member⟩ => ?_
  have found := find?_member once member
  simp only [argOf_eq, Nat.min_eq_right count, find?_member once member]
  exact if_neg (by simp [live_eq_true live, free, there, Nat.not_lt.2 count, once]; omega)

theorem bnot_ne_true {b : Bool} (h : b = true) : ¬(!b) = true := by simp [h]

theorem capset_does : Succeeds .capset (fun c s => liveCtx s (arg c 0) ∧ 1 ≤ arg c 4 ∧ arg c 4 ≤ 16 ∧
      s.ownHbm (arg c 5) (arg c 6) = true ∧
      (c.flg.getLsbD 0 = true → arg c 1 < 8192 ∧ (s.ctr (arg c 1)).owner = some (arg c 0)) ∧
      (¬c.flg.getLsbD 0 = true → arg c 1 < 4096 ∧ (s.queue (arg c 1)).ctx = arg c 0 ∧ (s.queue (arg c 1)).st ≠ .disabled))
    (fun c s =>
      let x : Cap := {
        queue := if c.flg.getLsbD 0 then none else some (arg c 1), index := if c.flg.getLsbD 0 then arg c 1 else arg c 2 % 2 ^ 16,
        first := arg c 3, count := arg c 4, base := arg c 5, size := arg c 6 }
      { s with caps := s.caps ++ [x] }) := by
  refine does_of_run _ (fun c s => (rfl : exec (.capset c) s = execCapset c s))
    fun c s ⟨⟨ctx, live⟩, some_, few, log, byCtr, byQueue⟩ => ?_
  have owned : (if c.flg.getLsbD 0 then decide (arg c 1 < 8192) && (s.ctr (arg c 1)).owner == some (arg c 0)
      else decide (arg c 1 < 4096) && (s.queue (arg c 1)).ctx == arg c 0 && (s.queue (arg c 1)).st != .disabled) = true := by
    cases flag : c.flg.getLsbD 0 with
    | true => simp [byCtr flag]
    | false =>
      obtain ⟨table, own, enabled⟩ := byQueue (by rw [flag]; decide)
      simp [table, own, enabled]
  refine if_neg ?_
  rintro (h | h | h | h | h | h)
  · exact absurd ctx (Nat.not_lt.2 h)
  · exact bnot_ne_true (live_eq_true live) h
  · exact bnot_ne_true owned h
  · exact absurd some_ (Nat.not_le.2 (Nat.lt_one_iff.2 h))
  · exact absurd few (Nat.not_le.2 h)
  · exact bnot_ne_true log h

theorem replay_does (bs : List Byte) (h : Hdr) : Succeeds .replay (fun c s => arg c 0 < 128 ∧ arg c 1 < 512 ∧
      (s.core (arg c 1)).enabled = true ∧ (s.core (arg c 1)).retired = false ∧
      s.ownHbm (arg c 3) (arg c 4) = true ∧ s.ctxRuns (arg c 0) = true ∧ s.loggedRecord (arg c 3) (arg c 4) (arg c 2) = some bs ∧
      s.readHdr (s.ctx (arg c 0)).desc (leNat bs) = some h ∧ arg c 2 < leNat bs / 2 ^ 192 % 2 ^ 16 + 1 ∧
      ((s.roomUsed (arg c 1)).add (newTeamRoom h (lrGroups (leNat bs)))).fits = true ∧ (s.barBase (arg c 1) h.bars).isSome = true)
    (fun c s => s.startReplay (arg c 0) (arg c 1) (arg c 2) (arg c 3) (arg c 4) c.tag bs h) := by
  refine does_of_run _ (fun c s => (rfl : exec (.replay c) s = execReplay c s))
    fun c s ⟨ctx, core, enabled, kept, log, runs, record, header, team, room, bars⟩ => ?_
  have teams : ¬lrTeams (leNat bs) ≤ arg c 2 := by
    rw [lrTeams, bitsOf, Nat.shiftRight_eq_div_pow]
    omega
  have fits : ¬((!((s.roomUsed (arg c 1)).add (newTeamRoom h (lrGroups (leNat bs)))).fits || (s.barBase (arg c 1) h.bars).isNone) = true) := by
    rw [room, ← Option.not_isSome, bars]
    decide
  simp only [argOf_eq, record, header]
  refine (if_neg ?_).trans ((if_neg ?_).trans ((if_neg teams).trans (if_neg fits)))
  · simp [Nat.not_le.2 ctx, Nat.not_le.2 (show arg c 1 < Config.corePositions from core), enabled, kept, log]
  · simp [runs]

theorem ltrain_down : Succeeds .ltrain (fun c s => arg c 0 < 24 ∧ (s.link (arg c 0)).st = .down)
    (fun c s => s.modLink (arg c 0) (fun x => x.train 1)) := by
  refine does_of (fun s => decide (s.mstate = 2)) _ (fun c s => (rfl : exec (.ltrain c) s = execLtrain c s)) fun c s ⟨link, down⟩ => ?_
  exact congrArg some ((if_neg (Nat.not_le.2 link)).trans (if_pos down))

theorem ltrain_half : Succeeds .ltrain (fun c s => arg c 0 < 24 ∧ (s.link (arg c 0)).st = .train ∧ (s.link (arg c 0)).reported = some true ∧
      c.flg.getLsbD 0 = true) (fun c s => s.trainHalf (arg c 0)) := by
  refine does_of (fun s => decide (s.mstate = 2)) _ (fun c s => (rfl : exec (.ltrain c) s = execLtrain c s))
    fun c s ⟨link, training, half, accept⟩ => congrArg some ((if_neg (Nat.not_le.2 link)).trans ?_)
  simp [argOf_eq, training, half, accept]

theorem rstep_released : Succeeds .rstep (fun _ s => s.recov.stage ≠ 0 ∧ s.recov.done = true ∧ s.recov.released = false ∧
      s.host.msplit.getLsbD 3 = true) (fun _ s => { s with recov := { s.recov with released := true } }) := by
  refine does_of (fun s => decide (s.mstate = 5)) _ (fun c s => (rfl : exec (.rstep c) s = execRstep c s))
    fun c s ⟨stage, done, released, host⟩ => congrArg some (if_neg ?_)
  simp only [stage, done, released, host]
  decide

theorem rstep_refused : Refuses .rstep (fun _ s => s.recov.stage = 0 ∨ s.recov.done = false ∨ s.recov.released = true ∨
      s.host.msplit.getLsbD 3 = false) 0x81 := by
  refine does_of (fun s => decide (s.mstate = 5)) _ (fun c s => (rfl : exec (.rstep c) s = execRstep c s))
    fun c s h => congrArg some (if_pos ?_)
  simpa only [Bool.not_eq_true'] using h

/-- A debug command reaches the frame of a group that is off its core or frozen: the place of the eight bytes. -/
abbrev reachesFrame (g : Nat) (x : Group) (c : Cmd) (s : State) : Prop :=
  s.debugGroup c (fun _ => true) = some (g, x) ∧ x.halted = true ∧ arg c 3 % 4 = 0 ∧ arg c 3 / 4 + 8 ≤ (s.frameOf g x).length

theorem dbgrd_frame (g : Nat) (x : Group) :
    Does .dbgrd (reachesFrame g x) (fun _ s => s) 0 (fun c s => leNat (((s.frameOf g x).drop (arg c 3 / 4)).take 8)) := by
  refine does_of (fun _ => true) _ (fun c s => (rfl : exec (.dbgrd c) s = execDbgrd c s)) fun c s ⟨here, halted, what, inside⟩ => congrArg some ?_
  simp only [argOf_eq, here, halted, what]
  exact if_neg (Nat.not_lt.2 inside)

theorem dbgwr_frame (g : Nat) (x : Group) : Succeeds .dbgwr (reachesFrame g x) (fun c s => s.putFrame g x
    ((s.frameOf g x).take (arg c 3 / 4) ++ leBytes 8 (arg c 4) ++ (s.frameOf g x).drop (arg c 3 / 4 + 8))) := by
  refine does_of_run _ (fun c s => (rfl : exec (.dbgwr c) s = execDbgwr c s)) fun c s ⟨here, halted, what, inside⟩ => ?_
  simp only [dbgWhat, argOf_eq, here, halted, what]
  exact if_neg (Nat.not_lt.2 inside)

theorem dbgres_resumes (g : Nat) (x : Group) (e : Ent) :
    Succeeds .dbgres (fun c s => s.debugGroup c (fun x => x.st == .stopped) = some (g, x) ∧ x.chosen = some e)
      (fun _ s => s.setGroup g (({ x with st := .pending, held := false, restFrom := s.cycle } : Group).moveLanes e.mask (e.pc + 1) e.prio)) := by
  refine does_of_run _ (fun c s => (rfl : exec (.dbgres c) s = execDbgres c s)) fun c s ⟨here, chosen⟩ => ?_
  simp only [here, chosen]

theorem dbgres_ends (g : Nat) (x : Group) : Succeeds .dbgresEnd (fun c s => s.debugGroup c Group.isFrozen = some (g, x) ∧ x.st = .frozen)
    (fun _ s => (s.setGroup g { x with badFrame := none, frameAt := none }).endGroup g) := by
  refine does_of_run _ (fun c s => (rfl : exec (.dbgresEnd c) s = execDbgresEnd c s)) fun c s ⟨here, frozen⟩ => ?_
  simp only [here, frozen]
  rfl

/-- Settles O43: each command by the branch of its body that its conditions choose. -/
theorem linkStepAndDebugCommands : Obligations.LinkStepAndDebugCommands :=
  ⟨ltrain_down, ltrain_half, rstep_released, rstep_refused, sgjoin_does, capset_does, replay_does,
    fun g x => ⟨⟨dbgrd_frame g x, dbgwr_frame g x⟩, dbgres_resumes g x, dbgres_ends g x⟩,
    fun _ _ room => congrArg Host.Outcome.next (if_neg (Nat.not_le.2 room)), fun _ _ full => congrArg Host.Outcome.next (if_pos full)⟩

end Sys2Proof.Proofs.Commands
end

section
/-! O42: PGFREE, RPLY, TLBI, PGMIG, COHSET, SCRUB and RESYNC (R171, R172, R276, R350, R351, R365, R368, R369, R434). -/

namespace Sys2Proof.Proofs.Commands

open Sys2Proof Sys2Proof.Machine Sys2Proof.Claims Sys2Proof.Proofs.Flow

theorem pgfree_does : Succeeds .pgfree (fun c s => liveCtx s (arg c 0) ∧ arg c 1 % 65536 = 0 ∧ arg c 1 / 2 ^ 43 = s.modnum.toNat ∧
      arg c 1 % 2 ^ 43 + 65536 * arg c 2 ≤ hbmBytes)
    (fun c s => s.modCtx (arg c 0) (fun x => { x with freePages := x.freePages ++ (List.range (arg c 2)).map (fun i => arg c 1 + 65536 * i) })) := by
  refine does_of_run _ (fun c s => (rfl : exec (.pgfree c) s = execPgfree c s)) fun c s ⟨⟨ctx, live⟩, page, own, there⟩ => if_neg ?_
  rw [Nat.shiftRight_eq_div_pow]
  rintro (h | h | h | h | h)
  · exact absurd ctx (Nat.not_lt.2 h)
  · exact bnot_ne_true (live_eq_true live) h
  · exact h page
  · exact h own
  · exact absurd there (Nat.not_le.2 h)

theorem scrub_does : Succeeds .scrub (fun c s => arg c 0 / 2 ^ 43 = s.modnum.toNat ∧ arg c 0 % 2 ^ 43 + arg c 1 ≤ hbmBytes)
    (fun c s => s.hbmTouch (arg c 0) (arg c 1) false) := by
  refine does_of_run _ (fun c s => (rfl : exec (.scrub c) s = execScrub c s)) fun c s ⟨own, there⟩ => if_neg ?_
  rw [Nat.shiftRight_eq_div_pow]
  rintro (h | h)
  · exact h own
  · exact absurd there (Nat.not_le.2 h)

theorem hostRply_does :
    let woken := fun (c : Cmd) (s : State) => s.replyOn ((List.range 8).filter (fun d => (arg c 0).testBit d))
     (if c.flg.getLsbD 0 then .token (arg c 1) else .page (BitVec.ofNat 16 (arg c 1)) (arg c 2 % 2 ^ 55 / 2 ^ 16))
    Does .hostRply (fun _ _ => True) (fun c s => (woken c s).1) 0 (fun c s => (woken c s).2) := by
  refine does_of_run _ (fun c s => (rfl : exec (.hostRply c) s = execHostRply c s)) fun c s _ => ?_
  rw [Nat.shiftRight_eq_div_pow]
  rfl

theorem hostTlbi_does : Succeeds .hostTlbi (fun c _ => c.flg.toNat % 4 ≠ 3 ∧ arg c 0 % 256 = 255) (fun c s =>
    s.tlbi none (tlbiHit (c.flg.toNat % 4) (BitVec.ofNat 16 (arg c 1)) (arg c 2 % 2 ^ 55))) :=
  does_of_run _ (fun c s => (rfl : exec (.hostTlbi c) s = execHostTlbi c s)) fun _ _ ⟨form, all⟩ => (if_neg form).trans (if_pos all)

theorem hostTlbi_refused : Refuses .hostTlbi (fun c _ => c.flg.toNat % 4 = 3) 0x81 :=
  does_of_run _ (fun c s => (rfl : exec (.hostTlbi c) s = execHostTlbi c s)) fun _ _ form => if_pos form

/-! ### Migration -/

/-- The page that a PGMIG names is a leaf of 64 KiB of the live context, its new place is a page of memory, and neither a step group nor the etcher
keeps it. -/
abbrev migrates (c : Cmd) (s : State) (k pte addr : Nat) : Prop :=
  s.ctxOfAsid (BitVec.ofNat 16 (arg c 0)) = some k ∧
      s.walk 15 (s.ctx k).desc (arg c 1 % 2 ^ 55) = .leaf pte 1 addr ∧ arg c 2 % 65536 = 0 ∧ populated (arg c 2) 65536 = true ∧
      (s.ctx k).split.getLsbD 0 = false ∧ pte.testBit 11 = false

/-- The state after a migration (R369): CW is set in the leaf, the page is copied, the leaf names the new page, and who waits for it goes on. -/
def migrated (c : Cmd) (pte addr : Nat) (s : State) : State :=
  let asid := BitVec.ofNat 16 (arg c 0)
  let va := arg c 1 % 2 ^ 55
  let old := bitsOf pte 51 16 * 65536
  let s := s.grantDue
  let s := (s.homeWrite addr (leBytes 8 (pte + 2 ^ 11)) (s.memPoison addr 8)).tlbi none (tlbiHit 2 asid va)
  let s := s.copyPage old (arg c 2)
  let leaf := pte - old - (if pte.testBit 7 then 128 else 0) + arg c 2 + (if (arg c 2).testBit 42 then 128 else 0)
  let s := (s.homeWrite addr (leBytes 8 leaf) (s.memPoison addr 8)).tlbi none (tlbiHit 2 asid va)
  (s.replyOn (List.range 8) (.page asid (va / 2 ^ 16))).1

theorem pgmig_does (k pte addr : Nat) : Succeeds .pgmig (fun c s => migrates c s.grantDue k pte addr ∧ pte.testBit 10 = false ∧
      s.grantDue.pagePending (bitsOf pte 51 16 * 65536) = false ∧ ((arg c 2).testBit 42 = true → s.grantDue.tierWaits (arg c 2) = false))
    (fun c s => migrated c pte addr s) := by
  refine does_of (fun _ => false) _ (fun c s => (rfl : exec (.pgmig c) s = execPgmig c s))
    fun c s ⟨⟨ctx, leaf, aligned, there, split, kept⟩, uncaptured, idle, room⟩ => ?_
  simp only [argOf_eq, ctx, leaf]
  refine (if_neg ?_).trans ((if_neg ?_).trans ((if_neg ?_).trans ?_))
  · simp [aligned, there]
  · rw [split, kept]
    decide
  · rw [uncaptured, idle, Bool.or_false, Bool.false_or, Bool.and_eq_true]
    exact fun ⟨tier, waits⟩ => absurd ((room tier).symm.trans waits) (by decide)
  · rw [Nat.shiftRight_eq_div_pow]
    rfl

theorem pgmig_waits (k pte addr : Nat) (c : Cmd) (s : State) (room : s.ringUsed < s.ringSize) (ready : s.mstate = 6)
    (page : migrates c s.grantDue k pte addr) (busy : pte.testBit 10 = true ∨ s.grantDue.pagePending (bitsOf pte 51 16 * 65536) = true ∨
      ((arg c 2).testBit 42 = true ∧ s.grantDue.tierWaits (arg c 2) = true)) : exec (.pgmig c) s = .next s := by
  obtain ⟨ctx, leaf, aligned, there, split, kept⟩ := page
  refine waits_of (early := fun _ => false) (fun c s => (rfl : exec (.pgmig c) s = execPgmig c s)) room ready ?_
  simp only [argOf_eq, ctx, leaf]
  refine (if_neg ?_).trans ((if_neg ?_).trans (if_pos ?_))
  · simp [aligned, there]
  · rw [split, kept]
    decide
  · simpa only [Bool.or_eq_true, Bool.and_eq_true, or_assoc] using busy

theorem pgmig_unbound : Does .pgmig (fun c s => s.grantDue.ctxOfAsid (BitVec.ofNat 16 (arg c 0)) = none) (fun _ s => s.grantDue) 4
    (fun _ _ => 0) := by
  refine does_of (fun _ => false) _ (fun c s => (rfl : exec (.pgmig c) s = execPgmig c s)) fun c s none_ => ?_
  simp only [argOf_eq, none_]

/-! ### Changes of COH -/

/-- The range that a COHSET names is pages of this module that a live context maps, with a value that exists. -/
abbrev coversRange (c : Cmd) (s : State) (k : Nat) (ps : List (Nat × Nat × Nat × Nat)) : Prop :=
  arg c 1 % 65536 = 0 ∧ arg c 2 % 65536 = 0 ∧ arg c 3 < 3 ∧ arg c 1 + arg c 2 ≤ 2 ^ 55 ∧
      s.ctxOfAsid (BitVec.ofNat 16 (arg c 0)) = some k ∧ s.rangeLeaves (s.ctx k).desc (arg c 1) (arg c 2 / 65536) = some ps

/-- Steps 1 to 4 of R350 over a range. -/
def recohered (c : Cmd) (ps : List (Nat × Nat × Nat × Nat)) (s : State) : State :=
  ps.foldl (fun s p => s.tlbi none (tlbiHit 2 (BitVec.ofNat 16 (arg c 0)) p.1))
    (ps.foldl (fun s p => s.writeCoh (arg c 3) p) (s.flushRange ps))

/-- What a COHSET of a range answers: it waits while an access of the range cannot be performed. -/
theorem cohset_range {c : Cmd} {s : State} {k : Nat} {ps : List (Nat × Nat × Nat × Nat)} (room : s.ringUsed < s.ringSize) (ready : s.mstate = 6)
    (range : coversRange c s k ps) : exec (.cohset c) s = .next (if s.grantDue.rangePending ps then s else
      ((s.setCoh (BitVec.ofNat 16 (arg c 0)) (arg c 3) ps).1.complete c.tag (s.setCoh (BitVec.ofNat 16 (arg c 0)) (arg c 3) ps).2 0)) := by
  obtain ⟨start, length, value, end_, ctx, leaves⟩ := range
  change execCohset c s = _
  have good : ¬(arg c 1 % 65536 ≠ 0 ∨ arg c 2 % 65536 ≠ 0 ∨ 3 ≤ arg c 3 ∨ 2 ^ 55 < arg c 1 + arg c 2) := by omega
  simp only [execCohset, perform_ready room ready, argOf_eq, if_neg good, ctx, leaves]
  cases s.grantDue.rangePending ps <;> rfl

theorem cohset_does (k : Nat) (ps : List (Nat × Nat × Nat × Nat)) : Succeeds .cohset
    (fun c s => coversRange c s k ps ∧ s.grantDue.rangePending ps = false ∧ s.rangePending ps = false) (fun c s => recohered c ps s) := by
  intro c s room ready ⟨range, idle, calm⟩
  rw [cohset_range room ready range, idle]
  simp only [State.setCoh, calm]
  rfl

theorem cohset_raced (k : Nat) (ps : List (Nat × Nat × Nat × Nat)) : Does .cohset
    (fun c s => coversRange c s k ps ∧ s.grantDue.rangePending ps = false ∧ s.rangePending ps = true)
    (fun c s => (recohered c ps s).grantDue.flushRange ps) 1 (fun _ _ => 0) := by
  intro c s room ready ⟨range, idle, raced⟩
  rw [cohset_range room ready range, idle]
  simp only [State.setCoh, raced]
  rfl

theorem cohset_waits (k : Nat) (ps : List (Nat × Nat × Nat × Nat)) (c : Cmd) (s : State) (room : s.ringUsed < s.ringSize) (ready : s.mstate = 6)
    (range : coversRange c s k ps) (busy : s.grantDue.rangePending ps = true) : exec (.cohset c) s = .next s := by
  rw [cohset_range room ready range, busy]
  rfl

theorem cohset_refused : Refuses .cohset (fun c _ => arg c 1 % 65536 ≠ 0 ∨ arg c 2 % 65536 ≠ 0 ∨ 3 ≤ arg c 3 ∨
    2 ^ 55 < arg c 1 + arg c 2) 2 :=
  does_of (fun _ => false) _ (fun c s => (rfl : exec (.cohset c) s = execCohset c s)) fun _ _ bad => if_pos bad

theorem resync_does : Succeeds .resync (fun c _ => arg c 0 % 4096 = 0) (fun c s =>
    let t := { s with resyncSeq := s.resyncSeq + 1 }
    { t with hostMem := cputs 0 t.hostMem (arg c 0) t.summary }) :=
  does_of_run _ (fun c s => (rfl : exec (.resync c) s = execResync c s)) fun _ _ aligned => if_neg (not_not.2 aligned)

theorem resync_refused : Refuses .resync (fun c _ => arg c 0 % 4096 ≠ 0) 0x81 :=
  does_of_run _ (fun c s => (rfl : exec (.resync c) s = execResync c s)) fun _ _ astray => if_pos astray

/-- Settles O42: each command by the branch of its body that its conditions choose. -/
theorem pageCommands : Obligations.PageCommands := by
  refine ⟨pgfree_does, hostRply_does, ?_, hostTlbi_refused, ⟨pgmig_does, pgmig_waits⟩, pgmig_unbound,
    ⟨cohset_does, cohset_raced, cohset_waits⟩, cohset_refused, scrub_does, resync_does, resync_refused⟩
  have invalidated := hostTlbi_does
  simp only [State.tlbi, tlbInScope, Bool.true_and, tlbiHit_eq] at invalidated
  exact invalidated

end Sys2Proof.Proofs.Commands
end
